-- ==== Sys2Proof/Word.lean ====
section
/-! DEFINITION. Bytes, slots, zones, axes and the tables indexed by them. -/

namespace Sys2Proof

/-- One character of a serial link (R134, R175). -/
abbrev Byte := BitVec 8

/-- A head slot, 0 to 7 (00_scope.md, "Slots and addresses"). -/
abbrev Slot := Fin 8

/-- A floor zone, 0 to 15 (R113). -/
abbrev Zone := Fin 16

/-- A set of axes as a frame carries it: bit a stands for axis a (R188). -/
abbrev AxisMask := BitVec 6

/-- A set of zones as a frame carries it: bit z stands for zone z (R188). -/
abbrev ZoneSet := BitVec 16

/-- A set of slots as a frame carries it: bit s stands for slot s (R188). -/
abbrev SlotSet := BitVec 8

/-- The six axes, numbered as 00_scope.md's "Axes" table numbers them. -/
inductive Axis where
  | pan | tilt | zoom | focus | lift | travel
  deriving DecidableEq, Repr

namespace Axis

/-- The number of an axis. -/
def num : Axis → Nat
  | pan => 0 | tilt => 1 | zoom => 2 | focus => 3 | lift => 4 | travel => 5

/-- The axis of a number, if it names one. -/
def ofNum : Nat → Option Axis
  | 0 => some pan | 1 => some tilt | 2 => some zoom
  | 3 => some focus | 4 => some lift | 5 => some travel
  | _ => none

/-- The axes in ascending number. -/
def all : List Axis := [pan, tilt, zoom, focus, lift, travel]

end Axis

/-- The axes of a mask in ascending axis number, the order of every list of axes in a frame. -/
def AxisMask.axes (m : AxisMask) : List Axis := Axis.all.filter fun a => m.getLsbD a.num

/-- The slots in ascending order. -/
def Slot.all : List Slot := [0, 1, 2, 3, 4, 5, 6, 7]

/-- The zones in ascending order. -/
def Zone.all : List Zone := [0, 1, 2, 3, 4, 5, 6, 7, 8, 9, 10, 11, 12, 13, 14, 15]

/-- The zones of a zone set, ascending. -/
def ZoneSet.zones (zs : ZoneSet) : List Zone := Zone.all.filter fun z => zs.getLsbD z.val

/-- The zone set that holds the zones a test picks. -/
def ZoneSet.ofPred (p : Zone → Bool) : ZoneSet :=
  Zone.all.foldl (fun zs z => if p z then zs ||| (1#16 <<< z.val) else zs) 0#16

/-- One value for each axis. -/
structure PerAxis (α : Type) where
  pan : α
  tilt : α
  zoom : α
  focus : α
  lift : α
  travel : α
  deriving DecidableEq, Repr

namespace PerAxis

variable {α : Type}

/-- The value of one axis. -/
def get (t : PerAxis α) : Axis → α
  | .pan => t.pan | .tilt => t.tilt | .zoom => t.zoom
  | .focus => t.focus | .lift => t.lift | .travel => t.travel

/-- The table with the value `f a` at axis `a`. -/
def gen (f : Axis → α) : PerAxis α :=
  ⟨f .pan, f .tilt, f .zoom, f .focus, f .lift, f .travel⟩

/-- The table with axis `a` set to `v`. -/
def set (t : PerAxis α) (a : Axis) (v : α) : PerAxis α :=
  gen fun b => if b = a then v else t.get b

/-- The table that holds one value everywhere. -/
def const (v : α) : PerAxis α := gen fun _ => v

end PerAxis

/-- An interval of positions, both ends included; empty when the low end exceeds the high end
(00_scope.md, "Ranges and intervals"). -/
structure Span where
  lo : Int
  hi : Int
  deriving DecidableEq, Repr

namespace Span

def isEmpty (i : Span) : Bool := decide (i.hi < i.lo)

def contains (i : Span) (p : Int) : Bool := decide (i.lo ≤ p ∧ p ≤ i.hi)

def meets (i j : Span) : Bool := decide (i.lo ≤ j.hi ∧ j.lo ≤ i.hi)

/-- A value below the low end becomes the low end, one above the high end the high end (R15). -/
def clamp (i : Span) (p : Int) : Int := if p < i.lo then i.lo else if i.hi < p then i.hi else p

end Span

end Sys2Proof
end

