-- ==== Sys2Proof/Syntax.lean ====
section
/-! DEFINITION. The commands of the block: one constructor of `Instr` for each row of
spec/opcode_table.json, and the types of their operands. -/

namespace Sys2Proof

/-- Line A is the even channel of a pair, line B the odd channel (R2). -/
inductive Line where
  | a | b
  deriving DecidableEq, Repr

/-- One of the four line stores: pair 0 A, pair 0 B, pair 1 A, pair 1 B (R133). On a SPLIT pair it is
the logical line of that name; on a DUPLEX pair store A is the pair's one logical line. -/
structure StoreId where
  pair : Fin 2
  line : Line
  deriving DecidableEq, Repr

/-- What is wrong with a head line frame that is discarded (R144, R145). -/
inductive LineFault where
  | character | length | crc | address | kind | size
  deriving DecidableEq, Repr

/-- What is wrong with a program port frame that is discarded (R176). -/
inductive PortFault where
  | character | length | crc | address
  deriving DecidableEq, Repr

/-- What the part meets on one head line at a tick: how many characters of the frame going out have
gone out, and whether a frame is being received. -/
structure LineInput where
  sent : Nat
  receiving : Bool
  deriving DecidableEq, Repr

/-- A piece of a tick's work whose place among the others the rules leave open (R30, R89, R128): the wait
timer of a slot, the setpoint work of its head, its queue, its softening, the grant pass, its page timer
and its loss counter. -/
inductive Turn where
  | timer (slot : Slot)
  | motion (slot : Slot)
  | queue (slot : Slot)
  | soften (slot : Slot)
  | pass
  | page (slot : Slot)
  | link (slot : Slot)
  deriving DecidableEq, Repr

/-- The inputs a tick samples: the eight tally levels (R16), bit s for slot s, and the four lines. `order`
lists the pieces of work that fall together at this tick and that the part takes before the others, in
the order in which it takes them (log entry 1). -/
structure TickInputs where
  tally : SlotSet
  line0A : LineInput
  line0B : LineInput
  line1A : LineInput
  line1B : LineInput
  order : List Turn
  deriving DecidableEq, Repr

/-- The rows of spec/opcode_table.json, in the table's order. A command of the Command Interpreter
carries its tag byte and the bytes of its body (R189), so that every length and code can be given.
`instant` is the time on the timebase clock, where a row needs to know it (R32, R42). -/
inductive Instr where
  | powerOnReset
  | bresenhamTick (inputs : TickInputs)
  | syncEdge (instant : Nat) (inputs : TickInputs)
  | lossExpiry (inputs : TickInputs)
  | freewheelTick (inputs : TickInputs)
  | jogRefreshTimeout (slot : Slot)
  | moveCompletion (slot : Slot)
  | queueEntryStart (slot : Slot)
  | cuedReplaceActs (slot : Slot)
  | zoneWaitTimeout (slot : Slot)
  | zoneGranted (slot : Slot)
  | linkLoss (slot : Slot)
  | pageTimeout (slot : Slot)
  | lineFrameSent (store : StoreId)
  | lineCharacterGapTimeout (store : StoreId)
  | lineBadFrame (store : StoreId) (why : LineFault)
  | report (store : StoreId) (address : Byte) (body : List Byte)
  | page (store : StoreId) (address : Byte) (body : List Byte)
  | portCharacterGapTimeout
  | portBadFrame (why : PortFault)
  | commandFrame (instant : Nat) (kind tag : Byte) (body : List Byte)
  | directFrame (slot : Slot) (body : List Byte)
  | upstreamFrameSent (instant : Nat) (receiving : Bool)
  | unknownKind (kind tag : Byte) (body : List Byte)
  | headmapSet (tag : Byte) (body : List Byte)
  | headmapGet (tag : Byte) (body : List Byte)
  | axisSet (tag : Byte) (body : List Byte)
  | axisRestrict (tag : Byte) (body : List Byte)
  | axisGet (tag : Byte) (body : List Byte)
  | trimSet (tag : Byte) (body : List Byte)
  | shotSet (tag : Byte) (body : List Byte)
  | shotGet (tag : Byte) (body : List Byte)
  | shotErase (tag : Byte) (body : List Byte)
  | zonemapSet (tag : Byte) (body : List Byte)
  | zonemapGet (tag : Byte) (body : List Byte)
  | zonemapClear (tag : Byte) (body : List Byte)
  | forwardSet (tag : Byte) (body : List Byte)
  | lineSet (tag : Byte) (body : List Byte)
  | lineGet (tag : Byte) (body : List Byte)
  | policySet (tag : Byte) (body : List Byte)
  | clockSet (instant : Nat) (tag : Byte) (body : List Byte)
  | clockGet (tag : Byte) (body : List Byte)
  | timeSet (tag : Byte) (body : List Byte)
  | timeSlew (tag : Byte) (body : List Byte)
  | eventSet (tag : Byte) (body : List Byte)
  | portSet (tag : Byte) (body : List Byte)
  | recallShot (tag : Byte) (body : List Byte)
  | recallInline (tag : Byte) (body : List Byte)
  | jog (tag : Byte) (body : List Byte)
  | stop (tag : Byte) (body : List Byte)
  | stopAll (tag : Byte) (body : List Byte)
  | halt (tag : Byte) (body : List Byte)
  | clear (tag : Byte) (body : List Byte)
  | releaseZones (tag : Byte) (body : List Byte)
  | zoneMask (tag : Byte) (body : List Byte)
  | zoneLowest (tag : Byte) (body : List Byte)
  | zoneStatus (tag : Byte) (body : List Byte)
  | headStatus (tag : Byte) (body : List Byte)
  | resetSoft (tag : Byte) (body : List Byte)
  deriving DecidableEq, Repr

/-- The commands of the Command Interpreter (R196 to R199). -/
inductive CommandKind where
  | headmapSet | headmapGet | axisSet | axisRestrict | axisGet | trimSet
  | shotSet | shotGet | shotErase | zonemapSet | zonemapGet | zonemapClear
  | forwardSet | lineSet | lineGet | policySet | clockSet | clockGet | timeSet | timeSlew
  | eventSet | portSet
  | recallShot | recallInline | jog | stop | stopAll | halt | clear
  | releaseZones | zoneMask | zoneLowest | zoneStatus | headStatus | resetSoft
  deriving DecidableEq, Repr

namespace CommandKind

/-- Every command, in the order of the catalogue. -/
def all : List CommandKind :=
  [headmapSet, headmapGet, axisSet, axisRestrict, axisGet, trimSet,
   shotSet, shotGet, shotErase, zonemapSet, zonemapGet, zonemapClear,
   forwardSet, lineSet, lineGet, policySet, clockSet, clockGet, timeSet, timeSlew,
   eventSet, portSet,
   recallShot, recallInline, jog, stop, stopAll, halt, clear,
   releaseZones, zoneMask, zoneLowest, zoneStatus, headStatus, resetSoft]

end CommandKind

end Sys2Proof
end

