-- ==== Sys2Proof/Config.lean ====
section
/-! DEFINITION. The constants of the part and the values the spec leaves open. -/

namespace Sys2Proof.Config

/-- The numerator N of the frame rate of a rate code (R1). -/
def rateN : Fin 8 → Nat
  | 0 => 24000 | 1 => 24 | 2 => 25 | 3 => 30000 | 4 => 30 | 5 => 50 | 6 => 60000 | 7 => 60

/-- The denominator M of the frame rate of a rate code (R1). -/
def rateM : Fin 8 → Nat
  | 0 => 1001 | 1 => 1 | 2 => 1 | 3 => 1001 | 4 => 1 | 5 => 1 | 6 => 1001 | 7 => 1

/-- Timebase clock units in one second: 10 ns each (00_scope.md, "The part at a glance"). -/
def timebaseHz : Nat := 100000000

/-- The line clock, 14.7456 MHz (R134, R175). -/
def lineClockHz : Nat := 14745600

/-- Places of the stores, as the rules that bound them give them. -/
def moveQueueMax : Nat := 8        -- R45
def receiveBufferMax : Nat := 4    -- R177
def replyQueueMax : Nat := 4       -- R178
def eventQueueMax : Nat := 32      -- R202
def passQueueMax : Nat := 8        -- R142
def passBodyMax : Nat := 48        -- R143
def historyMax : Nat := 16         -- R165
def followRunMax : Nat := 8        -- R168
def durationMax : Nat := 4095      -- R98
def jogRefreshTicks : Nat := 12    -- R87
def pageTimeoutTicks : Nat := 16   -- R156

/-- FREE VALUE (log entry 6): the 24-bit code in a frame of a position that three bytes of two's
complement cannot hold, such as a measured position less the trim. R188 and R195 give such a
position three bytes and no rule gives its code. -/
opaque unfitPosition : Int → BitVec 24

/-- FREE VALUE (log entry 7): the one-byte refresh count that HEAD STATUS shows for a jog whose count
has passed 255. R195 gives the count one byte and R87 lets it rise for as long as the jog winds down. -/
opaque unfitRefresh : Nat → Byte

/-- FREE VALUE (log entry 29): the four bytes in which CLOCK GET shows a period estimate that they
cannot hold. R195 gives P̂ four bytes, and no rule bounds an estimate that edges go on stretching (R33). -/
opaque unfitPeriod : Nat → BitVec 32

end Sys2Proof.Config
end

