-- ==== Sys2Proof/Decode.lean ====
section
/-! DEFINITION. Reading and writing frames: byte order, CRC, the envelopes of the program port and of
the head lines, the kind codes of commands, and the rows' decoder (no row of the table has bits). -/

namespace Sys2Proof

/-! ### Big-endian fields (R188) -/

/-- The value of two bytes, high byte first. -/
def be2 (b1 b0 : Byte) : Nat := b1.toNat * 256 + b0.toNat

/-- The value of four bytes, high byte first. -/
def be4 (b3 b2 b1 b0 : Byte) : BitVec 32 := b3 ++ b2 ++ b1 ++ b0

/-- A three-byte two's complement value (R188). -/
def be3 (b2 b1 b0 : Byte) : Int := (b2 ++ b1 ++ b0 : BitVec 24).toInt

/-- A value as one byte. -/
def enc1 (n : Nat) : List Byte := [BitVec.ofNat 8 n]

/-- A value as two bytes. -/
def enc2 (n : Nat) : List Byte := [BitVec.ofNat 8 (n / 256), BitVec.ofNat 8 n]

/-- A 16-bit word as two bytes. -/
def encW (w : BitVec 16) : List Byte := enc2 w.toNat

/-- A 32-bit word as four bytes. -/
def enc4 (w : BitVec 32) : List Byte :=
  [w.extractLsb' 24 8, w.extractLsb' 16 8, w.extractLsb' 8 8, w.extractLsb' 0 8]

/-- A 24-bit word as three bytes. -/
def enc3 (w : BitVec 24) : List Byte :=
  [w.extractLsb' 16 8, w.extractLsb' 8 8, w.extractLsb' 0 8]

/-- A position fits three bytes of two's complement (R9, R188). -/
def fitsPosition (p : Int) : Bool := decide (-8388608 ≤ p ∧ p ≤ 8388607)

/-- The three bytes of a position (R188). What stands in them for a position they cannot hold is free. -/
def encPos (p : Int) : List Byte :=
  enc3 (if fitsPosition p then BitVec.ofInt 24 p else Config.unfitPosition p)

/-! ### The CRC (R144, R176) -/

/-- One bit of the CRC-16 with polynomial x^16 + x^12 + x^5 + 1, most significant bit first. -/
def crcBit (crc : BitVec 16) : BitVec 16 :=
  if crc.msb then (crc <<< 1) ^^^ 0x1021#16 else crc <<< 1

/-- One character of the CRC. -/
def crcByte (crc : BitVec 16) (b : Byte) : BitVec 16 :=
  let c := crc ^^^ (b.zeroExtend 16 <<< 8)
  crcBit (crcBit (crcBit (crcBit (crcBit (crcBit (crcBit (crcBit c)))))))

/-- The CRC of a string of characters: initial value 0xFFFF, no reflection, no final inversion. -/
def crc16 (bytes : List Byte) : BitVec 16 := bytes.foldl crcByte 0xFFFF#16

/-! ### Assembling characters into frames (R144, R176) -/

/-- How a receiver finds frames: the marker, and the least and the greatest length it admits. -/
structure FrameFormat where
  marker : Byte
  least : Nat
  greatest : Nat
  deriving DecidableEq, Repr

/-- What one more character makes at a receiver: nothing yet, a frame with all its characters from the
marker on, or the discard of the frame in progress. -/
inductive Heard where
  | nothing
  | frame (chars : List Byte)
  | badCharacter
  | badLength
  deriving DecidableEq, Repr

namespace FrameFormat

/-- A frame in progress with one more character at its end. The length is judged as it arrives. -/
def extend (f : FrameFormat) (chars : List Byte) : Option (List Byte) × Heard :=
  match chars with
  | [] => (some [], .nothing)
  | len :: rest =>
    if len.toNat < f.least ∨ f.greatest < len.toNat then (none, .badLength)
    else if rest.length < len.toNat + 2 then (some chars, .nothing)
    else (none, .frame (f.marker :: chars))

/-- One arriving character, `none` for one with a character error, at a receiver whose frame in progress
holds `taken` after its marker. Between frames everything but the marker is passed over. Inside a frame
the marker is an ordinary character, and a character error discards the frame. -/
def hear (f : FrameFormat) (taken : Option (List Byte)) (char : Option Byte) :
    Option (List Byte) × Heard :=
  match taken, char with
  | none, some b => if b = f.marker then f.extend [] else (none, .nothing)
  | none, none => (none, .nothing)
  | some chars, some b => f.extend (chars ++ [b])
  | some _, none => (none, .badCharacter)

end FrameFormat

/-! ### The program port envelope (R176, R189) -/

/-- A frame of the program port without its marker, length and CRC. -/
structure PortFrame where
  address : Byte
  kind : Byte
  tag : Byte
  body : List Byte
  deriving DecidableEq, Repr

def portMarker : Byte := 0xC5#8

/-- Frames of the program port: lengths 3 to 250 (R176). -/
def portFormat : FrameFormat := ⟨portMarker, 3, 250⟩

/-- The characters of a frame: marker, length, address, kind, tag, body, CRC high byte first. -/
def PortFrame.encode (f : PortFrame) : List Byte :=
  let covered := BitVec.ofNat 8 (f.body.length + 3) :: f.address :: f.kind :: f.tag :: f.body
  portMarker :: (covered ++ encW (crc16 covered))

/-- What the receiver makes of the characters from one marker on, once as many have arrived as the
length asks for: a frame, or the reason for which it is discarded (R176). -/
def PortFrame.decode (chars : List Byte) : Except PortFault PortFrame :=
  match chars with
  | m :: len :: rest =>
    if m ≠ portMarker ∨ len.toNat < 3 ∨ 250 < len.toNat ∨ rest.length ≠ len.toNat + 2 then
      .error .length
    else if rest.drop len.toNat ≠ encW (crc16 (len :: rest.take len.toNat)) then .error .crc
    else
      match rest.take len.toNat with
      | a :: k :: t :: body => if 8 < a.toNat then .error .address else .ok ⟨a, k, t, body⟩
      | _ => .error .length
  | _ => .error .length

/-- The row that a complete program port frame is (R176, R177): a command frame for address 0, a
direct frame for addresses 1 to 8, else a bad frame. -/
def portArrival (instant : Nat) (chars : List Byte) : Instr :=
  match PortFrame.decode chars with
  | .error why => .portBadFrame why
  | .ok f =>
    if f.address = 0#8 then .commandFrame instant f.kind f.tag f.body
    else .directFrame (Fin.ofNat 8 (f.address.toNat - 1)) f.body

/-- The row that a character completes at the port's receiver, if it completes one. -/
def portHeard (instant : Nat) : Heard → Option Instr
  | .nothing => none
  | .frame chars => some (portArrival instant chars)
  | .badCharacter => some (.portBadFrame .character)
  | .badLength => some (.portBadFrame .length)

/-! ### The head line envelope (R136, R144, R193) -/

/-- The kinds of head line frames (R193). -/
inductive LineKind where
  | setpoint | probe | pageAck | pass | report | page
  deriving DecidableEq, Repr

/-- The kind codes of R193. -/
def LineKind.code : LineKind → Byte
  | .setpoint => 0x01#8 | .probe => 0x02#8 | .pageAck => 0x03#8
  | .pass => 0x04#8 | .report => 0x81#8 | .page => 0x82#8

/-- A frame of a head line without its marker, length and CRC. -/
structure LineFrame where
  address : Byte
  kind : LineKind
  body : List Byte
  deriving DecidableEq, Repr

def lineMarker : Byte := 0xA3#8

/-- Frames of a head line: 6 to 64 characters, so lengths 2 to 60 (R136, R144). -/
def lineFormat : FrameFormat := ⟨lineMarker, 2, 60⟩

/-- The size of a frame in characters: six of envelope and the body (R136). -/
def LineFrame.size (f : LineFrame) : Nat := 6 + f.body.length

/-- The characters of a frame: marker, length, line address, kind, body, CRC high byte first (R193). -/
def LineFrame.encode (f : LineFrame) : List Byte :=
  let covered := BitVec.ofNat 8 (f.body.length + 2) :: f.address :: f.kind.code :: f.body
  lineMarker :: (covered ++ encW (crc16 covered))

/-- The row that the characters of one frame arriving on a line are (R144, R145, R193). The address and
the size are judged against the head map when the row is taken. -/
def lineArrival (store : StoreId) (chars : List Byte) : Instr :=
  match chars with
  | m :: len :: rest =>
    if m ≠ lineMarker ∨ len.toNat < 2 ∨ 60 < len.toNat ∨ rest.length ≠ len.toNat + 2 then
      .lineBadFrame store .length
    else if rest.drop len.toNat ≠ encW (crc16 (len :: rest.take len.toNat)) then
      .lineBadFrame store .crc
    else
      match rest.take len.toNat with
      | a :: k :: body =>
        if k = LineKind.report.code then .report store a body
        else if k = LineKind.page.code then .page store a body
        else .lineBadFrame store .kind
      | _ => .lineBadFrame store .length
  | _ => .lineBadFrame store .length

/-- The row that a character completes at the receiver of a line, if it completes one. -/
def lineHeard (store : StoreId) : Heard → Option Instr
  | .nothing => none
  | .frame chars => some (lineArrival store chars)
  | .badCharacter => some (.lineBadFrame store .character)
  | .badLength => some (.lineBadFrame store .length)

/-! ### Kind codes of commands (R196 to R199) and of upstream frames (R189) -/

namespace CommandKind

/-- The kind byte of a command. -/
def code : CommandKind → Byte
  | headmapSet => 0x10#8 | headmapGet => 0x11#8 | axisSet => 0x12#8
  | axisRestrict => 0x13#8 | axisGet => 0x14#8 | trimSet => 0x15#8
  | shotSet => 0x20#8 | shotGet => 0x21#8 | shotErase => 0x22#8
  | zonemapSet => 0x28#8 | zonemapGet => 0x29#8 | zonemapClear => 0x2A#8
  | forwardSet => 0x30#8 | lineSet => 0x31#8 | lineGet => 0x32#8 | policySet => 0x33#8
  | clockSet => 0x38#8 | clockGet => 0x39#8 | timeSet => 0x3A#8 | timeSlew => 0x3B#8
  | eventSet => 0x40#8 | portSet => 0x41#8
  | recallShot => 0x50#8 | recallInline => 0x51#8 | jog => 0x52#8 | stop => 0x53#8
  | stopAll => 0x54#8 | halt => 0x55#8 | clear => 0x56#8
  | releaseZones => 0x60#8 | zoneMask => 0x61#8 | zoneLowest => 0x62#8 | zoneStatus => 0x63#8
  | headStatus => 0x70#8 | resetSoft => 0x7F#8

/-- The command that a kind byte names, if it names one (R179). -/
def ofCode (b : Byte) : Option CommandKind := all.find? fun k => k.code = b

end CommandKind

def kindReply : Byte := 0xE0#8
def kindEvent : Byte := 0xE1#8
def kindReport : Byte := 0xE2#8

/-- The row of a command of the interpreter. `instant` is used by CLOCK SET alone (R42). -/
def commandRow (instant : Nat) (k : CommandKind) (tag : Byte) (body : List Byte) : Instr :=
  match k with
  | .headmapSet => .headmapSet tag body | .headmapGet => .headmapGet tag body
  | .axisSet => .axisSet tag body | .axisRestrict => .axisRestrict tag body
  | .axisGet => .axisGet tag body | .trimSet => .trimSet tag body
  | .shotSet => .shotSet tag body | .shotGet => .shotGet tag body
  | .shotErase => .shotErase tag body | .zonemapSet => .zonemapSet tag body
  | .zonemapGet => .zonemapGet tag body | .zonemapClear => .zonemapClear tag body
  | .forwardSet => .forwardSet tag body | .lineSet => .lineSet tag body
  | .lineGet => .lineGet tag body | .policySet => .policySet tag body
  | .clockSet => .clockSet instant tag body | .clockGet => .clockGet tag body
  | .timeSet => .timeSet tag body | .timeSlew => .timeSlew tag body
  | .eventSet => .eventSet tag body | .portSet => .portSet tag body
  | .recallShot => .recallShot tag body | .recallInline => .recallInline tag body
  | .jog => .jog tag body | .stop => .stop tag body | .stopAll => .stopAll tag body
  | .halt => .halt tag body | .clear => .clear tag body
  | .releaseZones => .releaseZones tag body | .zoneMask => .zoneMask tag body
  | .zoneLowest => .zoneLowest tag body | .zoneStatus => .zoneStatus tag body
  | .headStatus => .headStatus tag body | .resetSoft => .resetSoft tag body

/-- The command that `nbits` bits `w` spell. The table gives its rows no bits (98_reader.md,
"n_rows_with_fixed": 0), so no word spells a command. -/
def decodeTableWord (_nbits _w : Nat) : Option Instr := none

end Sys2Proof
end

