-- ==== Sys2Proof/WellFormed.lean ====
section
/-! DEFINITION. The commands that the outside world can give: lengths that a frame can carry, and a
kind that names no command where the row says so. The meanings are total on every command. -/

namespace Sys2Proof

/-- A program port body holds 0 to 247 characters (R176). -/
def portBodyFits (body : List Byte) : Bool := decide (body.length ≤ 247)

/-- A head line body holds at most 58 characters: 64 less the envelope of six (R136, R193). -/
def lineBodyFits (body : List Byte) : Bool := decide (body.length ≤ 58)

/-- The characters of a frame that have gone out before its last are fewer than 64 (R136). -/
def LineInput.wf (i : LineInput) : Bool := decide (i.sent < 64)

def TickInputs.wf (i : TickInputs) : Bool :=
  i.line0A.wf && i.line0B.wf && i.line1A.wf && i.line1B.wf

/-- The command can reach the part. -/
def Instr.wf : Instr → Bool
  | .powerOnReset => true
  | .bresenhamTick i => i.wf
  | .syncEdge _ i => i.wf
  | .lossExpiry i => i.wf
  | .freewheelTick i => i.wf
  | .jogRefreshTimeout _ => true
  | .moveCompletion _ => true
  | .queueEntryStart _ => true
  | .cuedReplaceActs _ => true
  | .zoneWaitTimeout _ => true
  | .zoneGranted _ => true
  | .linkLoss _ => true
  | .pageTimeout _ => true
  | .lineFrameSent _ => true
  | .lineCharacterGapTimeout _ => true
  | .lineBadFrame _ _ => true
  | .report _ _ body => lineBodyFits body
  | .page _ _ body => lineBodyFits body
  | .portCharacterGapTimeout => true
  | .portBadFrame _ => true
  | .commandFrame _ _ _ body => portBodyFits body
  | .directFrame _ body => portBodyFits body
  | .upstreamFrameSent _ _ => true
  | .unknownKind kind _ body => (CommandKind.ofCode kind).isNone && portBodyFits body
  | .headmapSet _ body => portBodyFits body
  | .headmapGet _ body => portBodyFits body
  | .axisSet _ body => portBodyFits body
  | .axisRestrict _ body => portBodyFits body
  | .axisGet _ body => portBodyFits body
  | .trimSet _ body => portBodyFits body
  | .shotSet _ body => portBodyFits body
  | .shotGet _ body => portBodyFits body
  | .shotErase _ body => portBodyFits body
  | .zonemapSet _ body => portBodyFits body
  | .zonemapGet _ body => portBodyFits body
  | .zonemapClear _ body => portBodyFits body
  | .forwardSet _ body => portBodyFits body
  | .lineSet _ body => portBodyFits body
  | .lineGet _ body => portBodyFits body
  | .policySet _ body => portBodyFits body
  | .clockSet _ _ body => portBodyFits body
  | .clockGet _ body => portBodyFits body
  | .timeSet _ body => portBodyFits body
  | .timeSlew _ body => portBodyFits body
  | .eventSet _ body => portBodyFits body
  | .portSet _ body => portBodyFits body
  | .recallShot _ body => portBodyFits body
  | .recallInline _ body => portBodyFits body
  | .jog _ body => portBodyFits body
  | .stop _ body => portBodyFits body
  | .stopAll _ body => portBodyFits body
  | .halt _ body => portBodyFits body
  | .clear _ body => portBodyFits body
  | .releaseZones _ body => portBodyFits body
  | .zoneMask _ body => portBodyFits body
  | .zoneLowest _ body => portBodyFits body
  | .zoneStatus _ body => portBodyFits body
  | .headStatus _ body => portBodyFits body
  | .resetSoft _ body => portBodyFits body

end Sys2Proof
end

