-- ==== Sys2Proof/Machine/State.lean ====
section
/-! DEFINITION. The state of the CM-8 as plain data, its reset, and the ways a step can stop. -/

namespace Sys2Proof.Machine

/-! ### Names -/

/-- The two profiles a shot or call may name (R19, 06 "EASE and SWIFT"). -/
inductive Profile where
  | ease | swift
  deriving DecidableEq, Repr

/-- The reasons of a refused command (R179). -/
inductive Reason where
  | malformed | unknown | range | noHead | noShot | queueFull | halted | busy | zoneBusy | limit
  | onAir | capacity | mismatch
  deriving DecidableEq, Repr

/-- The reasons of MOVE_DROPPED (R61, R191). -/
inductive DropReason where
  | flushed | superseded | noShot | limit | onAir | zoneBusy | zoneTimeout
  deriving DecidableEq, Repr

/-- The causes of a halt (R65, R81). -/
inductive HaltCause where
  | command | follow | head | lost | mismatch | range | conflict | reset
  deriving DecidableEq, Repr

/-- The reasons of HEAD_UNLINKED (R191). -/
inductive UnlinkReason where
  | loss | map | line
  deriving DecidableEq, Repr

/-! ### Axes, shots and moves -/

/-- A head map record (R2). A slot with an empty mask is OFF. -/
structure HeadMap where
  pair : Fin 2
  line : Line
  address : Byte
  mask : AxisMask
  deriving DecidableEq, Repr

/-- The limit layers, motion values and trim of one axis of one slot (R7, R9, R11, R12). The working
interval is formed from the layers wherever it is read (R13, log entry 2). -/
structure AxisEntry where
  comm : Span
  vmax : Nat
  amax : Nat
  jogLimit : Nat
  followLimit : Nat
  restriction : Option Span
  headRange : Option Span
  trim : Int
  deriving DecidableEq, Repr

/-- A valid shot record (R19). -/
structure Shot where
  duration : Nat
  profile : Profile
  targets : List (Axis × Int)
  deriving DecidableEq, Repr

/-- What a call is planned from (R46). -/
inductive Source where
  | shot (number : Fin 64)
  | inline (targets : List (Axis × Int))
  deriving DecidableEq, Repr

/-- The source as a move and an event carry it (R27): a shot number, or "inline". -/
inductive SourceName where
  | shot (number : Fin 64)
  | inline
  deriving DecidableEq, Repr

inductive StartRule where
  | after | cuedReplace
  deriving DecidableEq, Repr

/-- An entry of a move queue (R46). -/
structure QueueEntry where
  source : Source
  rule : StartRule
  cue : Option (BitVec 32)
  duration : Option Nat
  profile : Option Profile
  tag : Byte
  deriving DecidableEq, Repr

inductive MoveClass where
  | planned | priority | stop
  deriving DecidableEq, Repr

structure MoveFlags where
  stretched : Bool
  late : Bool
  clamped : Bool
  softened : Bool
  deriving DecidableEq, Repr

/-- A move record (R67). Source, tag and profile are those of the call; a stop move has none. -/
structure Move where
  cls : MoveClass
  source : Option SourceName
  tag : Option Byte
  profile : Option Profile
  d : Nat
  k : Nat
  p0 : PerAxis Int
  v0 : PerAxis Int
  target : PerAxis Int
  zones : ZoneSet
  flags : MoveFlags
  deriving DecidableEq, Repr

/-- A held move record (R71). -/
structure Held where
  target : PerAxis Int
  remaining : Nat
  profile : Option Profile
  source : Option SourceName
  tag : Option Byte
  zones : ZoneSet
  deriving DecidableEq, Repr

/-- A waiting move and its wait timer (R54, R65, R119). `requested` is the requested duration of its
planning and `easeRequest` the one R74 gives should it be made EASE; `back` is the entry it becomes
when PRIORITY puts it back (R59); `fresh` says that the wait began in a tick whose timer step is still
to come (R120). -/
structure Waiting where
  move : Move
  cue : Option (BitVec 32)
  requested : Nat
  easeRequest : Nat
  back : QueueEntry
  timer : Nat
  fresh : Bool
  deriving DecidableEq, Repr

/-- A jog record (R106). -/
structure Jog where
  commanded : PerAxis Int
  velocity : PerAxis Int
  refresh : Nat
  deriving DecidableEq, Repr

/-- The motion state of a head together with the records that R66 allows in it. -/
inductive Activity where
  | offline
  | idle
  | waitCue
  | waitZone (w : Waiting)
  | moving (m : Move) (held : Option Held)
  | jogging (j : Jog)
  | halted (cause : HaltCause)
  deriving DecidableEq, Repr

/-! ### Links and reports -/

inductive LinkState where
  | off | probe | exchange | linked
  deriving DecidableEq, Repr

/-- The pending enrolment frame (R151). `fresh` says that a PAGE_ACK acknowledges a newly accepted page
rather than a repeat (R156). -/
inductive PendingFrame where
  | none
  | probe
  | pageAck (page : Byte) (toggle : Bool) (fresh : Bool)
  deriving DecidableEq, Repr

/-- The enrolment engine of a slot (R151) and the ranges gathered in an exchange (R155). -/
structure Link where
  state : LinkState
  pending : PendingFrame
  pages : Nat
  toggle : Option Bool
  headMask : Option AxisMask
  gathered : PerAxis (Option Span)
  pageTimer : Option Nat
  loss : Nat
  reported : Bool
  lostFlag : Bool
  deriving DecidableEq, Repr

/-- An entry of the setpoint history (R165); the positions are in head units, `none` for an empty frame. -/
structure HistoryEntry where
  seq : Byte
  mask : AxisMask
  positions : Option (PerAxis Int)
  deriving DecidableEq, Repr

/-- The interval flag when it is set (R170). -/
structure IntervalFlag where
  savedRun : Nat
  forwarded : Bool
  deriving DecidableEq, Repr

/-- A forwarded report (R173); positions in studio units. -/
structure ForwardedReport where
  frame : BitVec 32
  echo : Byte
  servoFault : Bool
  localControl : Bool
  stale : Bool
  superseded : Bool
  mask : AxisMask
  positions : PerAxis Int
  deriving DecidableEq, Repr

/-- The Report Tracker's record of a slot (R164). -/
structure Tracker where
  history : List HistoryEntry
  measured : Option (PerAxis Int)
  servoFault : Bool
  localControl : Bool
  run : Nat
  interval : Option IntervalFlag
  decimation : Nat
  upstream : Option ForwardedReport
  deriving DecidableEq, Repr

/-- A forward table entry (R142, R172, R186). -/
structure Forward where
  classes : Byte
  decimation : Nat
  deriving DecidableEq, Repr

/-- Everything the part keeps for one head slot. -/
structure Head where
  map : HeadMap
  axes : PerAxis AxisEntry
  followCount : Nat
  shots : Vector (Option Shot) 64
  forward : Forward
  tally : Bool
  tallyChanged : Bool
  queue : List QueueEntry
  activity : Activity
  resumptions : BitVec 16
  setpoint : PerAxis Int
  previous : PerAxis Int
  seq : Byte
  link : Link
  track : Tracker
  deriving DecidableEq, Repr

/-! ### Zones -/

/-- A non-empty zone map entry (R109). -/
structure ZoneEntry where
  slot : Slot
  zone : Zone
  range : Span
  deriving DecidableEq, Repr

/-- The Zone Arbiter (R113, R126, R127). The waiting set is the set of heads in WAIT_ZONE (log entry
3). `released` is the model's own: a zone was freed and the pass that R122 owes has not run. -/
structure Arbiter where
  holders : Vector (Option Slot) 16
  mask : SlotSet
  lowest : Slot
  released : Bool
  deriving DecidableEq, Repr

inductive OnAirPolicy where
  | soften | block
  deriving DecidableEq, Repr

inductive Rotation where
  | fixed | rotate
  deriving DecidableEq, Repr

/-- The policy record (R74, R120, R125, R185). -/
structure Policy where
  onAir : OnAirPolicy
  minimum : Nat
  waitTimeout : Nat
  rotation : Rotation
  deriving DecidableEq, Repr

/-! ### Lines -/

inductive PairMode where
  | duplex | split
  deriving DecidableEq, Repr

inductive Parity where
  | none | even | odd
  deriving DecidableEq, Repr

/-- A line setup record (R133). -/
structure LineSetup where
  mode : PairMode
  divisor : Nat
  parity : Parity
  twoStop : Bool
  inverted : Bool
  lossTicks : Nat
  deriving DecidableEq, Repr

/-- The counters of a line store (R146). -/
inductive LineCounter where
  | sent | received | bad | stale | overrun | passDrop
  deriving DecidableEq, Repr

structure LineCounters where
  sent : BitVec 16
  received : BitVec 16
  bad : BitVec 16
  stale : BitVec 16
  overrun : BitVec 16
  passDrop : BitVec 16
  deriving DecidableEq, Repr

/-- A frame of a PASS queue (R142). -/
structure PassFrame where
  slot : Slot
  body : List Byte
  deriving DecidableEq, Repr

/-- A line store (R133), the frames of its schedule that are still going out (R139), and the frame in
progress at its receiver: the characters after the marker, when a frame has begun (R144). -/
structure LineStore where
  pass : List PassFrame
  counters : LineCounters
  roundRobin : Slot
  outgoing : List LineFrame
  incoming : Option (List Byte)
  deriving DecidableEq, Repr

/-- A pair of head line channels: its record, the setup in force on the wire (R148: a LINE SET takes
effect there at the next tick), and its two stores. -/
structure Pair where
  setup : LineSetup
  inForce : LineSetup
  relined : Bool
  storeA : LineStore
  storeB : LineStore
  deriving DecidableEq, Repr

/-! ### Time -/

inductive ClockState where
  | unlocked | locked | freewheel
  deriving DecidableEq, Repr

inductive TimeChange where
  | set (value : BitVec 32)
  | slew (amount : BitVec 32)
  deriving DecidableEq, Repr

/-- The Studio Timebase (R29); times are in 10 ns units from instant 0. `now` is the latest instant the
timebase clock is known to have reached. -/
structure Timebase where
  state : ClockState
  rate : Fin 8
  period : Nat
  reference : Nat
  index : Nat
  remainder : Nat
  lastTick : Option Nat
  phase : Option Nat
  lastEdge : Option Nat
  run : Nat
  frame : BitVec 32
  change : Option TimeChange
  glitch : BitVec 16
  now : Nat
  deriving DecidableEq, Repr

/-! ### Events -/

/-- The statistics counters of the part (R203). -/
inductive CounterId where
  | line (store : StoreId) (counter : LineCounter)
  | rxOk | rxBad | rxOverrun | glitch
  deriving DecidableEq, Repr

/-- What an event record says: its kind and detail (R191, R200). An empty interval of LIMITS_NARROWED
shows by its bounds. -/
inductive Event where
  | moveStarted (source : Option SourceName) (d : Nat) (flags : MoveFlags)
  | moveDone (source : Option SourceName)
  | moveDropped (source : Option SourceName) (reason : DropReason)
  | moveHeld (source : Option SourceName) (remaining : Nat)
  | moveResumed (source : Option SourceName) (d : Nat) (flags : MoveFlags) (count : BitVec 16)
  | moveSoftened (d : Nat)
  | zoneWait (needed : ZoneSet)
  | zoneGranted (zones : ZoneSet) (ticks : Nat)
  | headHalted (cause : HaltCause)
  | headLinked (mask : AxisMask)
  | headUnlinked (reason : UnlinkReason)
  | limitsNarrowed (axes : List (Axis × Span))
  | tally (on : Bool)
  | syncLost
  | syncLocked
  | counter (id : CounterId) (full : Bool)
  | resetDone
  deriving DecidableEq, Repr

/-- An event record (R200). -/
structure EventRecord where
  event : Event
  frame : BitVec 32
  slot : Option Slot
  tag : Option Byte
  dropped : Nat
  deriving DecidableEq, Repr

inductive QueueMode where
  | keep | overwrite
  deriving DecidableEq, Repr

inductive CounterMode where
  | wrap | saturate
  deriving DecidableEq, Repr

/-- The Event Unit less the counters, which stand with their owners (R202, R206). -/
structure EventUnit where
  queue : List EventRecord
  dropped : Nat
  mode : QueueMode
  kinds : BitVec 64
  counterMode : CounterMode
  clearOnRead : Bool
  deriving DecidableEq, Repr

/-! ### The program port -/

/-- A command frame in the receive buffer (R177). -/
structure CommandFrame where
  kind : Byte
  tag : Byte
  body : List Byte
  deriving DecidableEq, Repr

structure PortSettings where
  divisor : Nat
  parity : Parity
  deriving DecidableEq, Repr

/-- The outcome of a command (R179, R190). An accepted PORT SET carries the settings that take effect
when its reply has gone out (R183). -/
inductive Answer where
  | accepted (data : List Byte)
  | acceptedSettings (settings : PortSettings) (data : List Byte)
  | refused (reason : Reason)
  deriving DecidableEq, Repr

/-- A reply (R179). -/
structure Reply where
  kind : Byte
  tag : Byte
  answer : Answer
  deriving DecidableEq, Repr

/-- An upstream frame that the arbiter has chosen (R180, R181). -/
inductive Upstream where
  | reply (r : Reply)
  | event (e : EventRecord)
  | report (slot : Slot) (r : ForwardedReport)
  deriving DecidableEq, Repr

/-- The Program Port Interface (R175 to R180). `incoming` is the frame in progress at its receiver: the
characters after the marker, when a frame has begun (R176). -/
structure Port where
  settings : PortSettings
  incoming : Option (List Byte)
  buffer : List CommandFrame
  replies : List Reply
  sending : Option Upstream
  lastServed : Slot
  rxOk : BitVec 16
  rxBad : BitVec 16
  rxOverrun : BitVec 16
  deriving DecidableEq, Repr

/-! ### The part -/

/-- A piece of a tick's work that is still to be done (log entry 1). `schedule` carries what the tick
met on the line: characters of the frame going out already sent, whether a frame is being received,
and whether a LINE SET takes effect at this tick. -/
inductive Work where
  | motion (slot : Slot)
  | queue (slot : Slot)
  | soften (slot : Slot)
  | timer (slot : Slot)
  | pass
  | handover (slot : Slot)
  | settle
  | page (slot : Slot)
  | link (slot : Slot)
  | schedule (store : StoreId) (sent : Nat) (receiving relined : Bool)
  | announce (event : Event)
  deriving DecidableEq, Repr

/-- Everything the CM-8 holds. -/
structure Cm8 where
  port : Port
  policy : Policy
  zonemap : Vector (Option ZoneEntry) 32
  clock : Timebase
  heads : Vector Head 8
  arbiter : Arbiter
  pair0 : Pair
  pair1 : Pair
  events : EventUnit
  work : List Work
  deriving DecidableEq, Repr

/-- The block: the part, and the commands that wait for it, first in, first out. -/
structure State where
  part : Cm8
  pending : List Instr
  deriving DecidableEq, Repr

/-- No command of this block ends in a fault: the spec gives every row its effect in every state. -/
inductive Fault where
  deriving DecidableEq, Repr

/-- Reasons for which a step has no meaning. -/
inductive Refusal where
  /-- Answered by an arm of `exec` for a row that has no meaning yet; no arm does so now. Safe: it claims
  nothing about the row. -/
  | notModelled (mnemonic : String)
  deriving DecidableEq, Repr

/-! ### Power-on values -/

/-- The power-on entry of an axis (R7, R9, R11, R12). -/
def AxisEntry.reset : AxisEntry where
  comm := ⟨-8388608, 8388607⟩
  vmax := 256
  amax := 4
  jogLimit := 128
  followLimit := 4096
  restriction := none
  headRange := none
  trim := 0

/-- The power-on enrolment engine (R151). -/
def Link.reset : Link where
  state := .off
  pending := .none
  pages := 0
  toggle := none
  headMask := none
  gathered := .const none
  pageTimer := none
  loss := 0
  reported := false
  lostFlag := false

/-- The power-on tracker (R164). -/
def Tracker.reset : Tracker where
  history := []
  measured := none
  servoFault := false
  localControl := false
  run := 0
  interval := none
  decimation := 0
  upstream := none

/-- A head slot at power-on (R2, R9, R18, R19, R45, R65, R92, R151, R164, R186). -/
def Head.reset : Head where
  map := ⟨0, .a, 1#8, 0#6⟩
  axes := .const .reset
  followCount := 3
  shots := .replicate 64 none
  forward := ⟨0#8, 0⟩
  tally := false
  tallyChanged := false
  queue := []
  activity := .offline
  resumptions := 0#16
  setpoint := .const 0
  previous := .const 0
  seq := 0#8
  link := .reset
  track := .reset

/-- The power-on line setup (R133). -/
def LineSetup.reset : LineSetup where
  mode := .duplex
  divisor := 63
  parity := .even
  twoStop := false
  inverted := false
  lossTicks := 10

def LineCounters.zero : LineCounters := ⟨0, 0, 0, 0, 0, 0⟩

/-- A line store at power-on (R140, R142, R146), with no frame in progress (log entry 5). -/
def LineStore.reset : LineStore := ⟨[], .zero, 7, [], none⟩

def Pair.reset : Pair := ⟨.reset, .reset, false, .reset, .reset⟩

/-- The power-on Timebase (R29). -/
def Timebase.reset : Timebase where
  state := .unlocked
  rate := 6
  period := 1668333
  reference := 0
  index := 0
  remainder := 0
  lastTick := none
  phase := none
  lastEdge := none
  run := 0
  frame := 0#32
  change := none
  glitch := 0#16
  now := 0

/-- The kind mask with every one of the seventeen kinds enabled (R207): bit c for the kind of code c
(R191, R194). -/
def everyKind : BitVec 64 := 0x00030003001F01FE#64

/-- The part at power-on (R29, R109, R132, R175 to R180, R185, R207). -/
def Cm8.reset : Cm8 where
  port := ⟨⟨127, .none⟩, none, [], [], none, 7, 0, 0, 0⟩
  policy := ⟨.soften, 25, 250, .fixed⟩
  zonemap := .replicate 32 none
  clock := .reset
  heads := .replicate 8 .reset
  arbiter := ⟨.replicate 16 none, 0#8, 7, false⟩
  pair0 := .reset
  pair1 := .reset
  events := ⟨[], 0, .keep, everyKind, .saturate, true⟩
  work := []

/-- The machine right after the power-on reset pin is released (R29). -/
def State.reset : State := ⟨.reset, []⟩

end Sys2Proof.Machine
end

