-- ==== Sys2Proof/Machine/Ops.lean ====
section
/-! DEFINITION. The named operations on the part's state: heads, events, counters, line stores. -/

namespace Sys2Proof.Machine

/-- Changes the part and leaves the command queue alone. -/
def State.onPart (s : State) (f : Cm8 → Cm8) : State := { s with part := f s.part }

namespace Cm8

/-! ### Heads -/

def head (c : Cm8) (i : Slot) : Head := c.heads[i]

def setHead (c : Cm8) (i : Slot) (h : Head) : Cm8 := { c with heads := c.heads.set i h }

def onHead (c : Cm8) (i : Slot) (f : Head → Head) : Cm8 := c.setHead i (f (c.head i))

/-- Changes every head. -/
def onHeads (c : Cm8) (f : Slot → Head → Head) : Cm8 :=
  { c with heads := Vector.ofFn fun i => f i c.heads[i] }

def setActivity (c : Cm8) (i : Slot) (a : Activity) : Cm8 :=
  c.onHead i fun h => { h with activity := a }

def setQueue (c : Cm8) (i : Slot) (q : List QueueEntry) : Cm8 :=
  c.onHead i fun h => { h with queue := q }

/-- The studio frame count F as it stands (R29). -/
def frame (c : Cm8) : BitVec 32 := c.clock.frame

/-! ### Events (R200 to R202) -/

end Cm8

namespace Event

/-- The kind code of an event (R191). -/
def code : Event → Nat
  | .moveStarted .. => 0x01 | .moveDone _ => 0x02 | .moveDropped .. => 0x03 | .moveHeld .. => 0x04
  | .moveResumed .. => 0x05 | .moveSoftened _ => 0x06 | .zoneWait _ => 0x07 | .zoneGranted .. => 0x08
  | .headHalted _ => 0x10 | .headLinked _ => 0x11 | .headUnlinked _ => 0x12
  | .limitsNarrowed _ => 0x13 | .tally _ => 0x14 | .syncLost => 0x20 | .syncLocked => 0x21
  | .counter .. => 0x30 | .resetDone => 0x31

end Event

namespace EventUnit

/-- One more lost record; the count stays at 255 (R202). -/
def countLoss (n : Nat) : Nat := min 255 (n + 1)

/-- An enabled record meets the queue: it joins with the dropped count, or KEEP discards it, or
OVERWRITE removes the oldest record for it (R202). -/
def enqueue (u : EventUnit) (r : EventRecord) : EventUnit :=
  if u.queue.length < Config.eventQueueMax then
    { u with queue := u.queue ++ [{ r with dropped := u.dropped }], dropped := 0 }
  else
    match u.mode with
    | .keep => { u with dropped := countLoss u.dropped }
    | .overwrite =>
      { u with queue := u.queue.drop 1 ++ [{ r with dropped := countLoss u.dropped }], dropped := 0 }

/-- The kind mask enables an event (R201). -/
def enabled (u : EventUnit) (e : Event) : Bool := u.kinds.getLsbD e.code

end EventUnit

namespace Cm8

/-- Posts an event: nothing when its kind is disabled, else it meets the queue stamped with F. -/
def post (c : Cm8) (slot : Option Slot) (tag : Option Byte) (e : Event) : Cm8 :=
  if c.events.enabled e then
    { c with events := c.events.enqueue ⟨e, c.frame, slot, tag, 0⟩ }
  else c

/-! ### Pairs and line stores -/

def pair (c : Cm8) (p : Fin 2) : Pair := if p = 0 then c.pair0 else c.pair1

def setPair (c : Cm8) (p : Fin 2) (v : Pair) : Cm8 :=
  if p = 0 then { c with pair0 := v } else { c with pair1 := v }

end Cm8

def Pair.store (p : Pair) : Line → LineStore
  | .a => p.storeA
  | .b => p.storeB

def Pair.setStore (p : Pair) (l : Line) (s : LineStore) : Pair :=
  match l with
  | .a => { p with storeA := s }
  | .b => { p with storeB := s }

namespace Cm8

def store (c : Cm8) (st : StoreId) : LineStore := (c.pair st.pair).store st.line

def setStore (c : Cm8) (st : StoreId) (s : LineStore) : Cm8 :=
  c.setPair st.pair ((c.pair st.pair).setStore st.line s)

def onStore (c : Cm8) (st : StoreId) (f : LineStore → LineStore) : Cm8 :=
  c.setStore st (f (c.store st))

end Cm8

/-- The four line stores, in the order of R203. -/
def allStores : List StoreId := [⟨0, .a⟩, ⟨0, .b⟩, ⟨1, .a⟩, ⟨1, .b⟩]

/-! ### Statistics counters (R203, R204) -/

namespace LineCounters

def get (s : LineCounters) : LineCounter → BitVec 16
  | .sent => s.sent | .received => s.received | .bad => s.bad
  | .stale => s.stale | .overrun => s.overrun | .passDrop => s.passDrop

def set (s : LineCounters) (k : LineCounter) (v : BitVec 16) : LineCounters :=
  match k with
  | .sent => { s with sent := v } | .received => { s with received := v }
  | .bad => { s with bad := v } | .stale => { s with stale := v }
  | .overrun => { s with overrun := v } | .passDrop => { s with passDrop := v }

end LineCounters

namespace Cm8

def counter (c : Cm8) : CounterId → BitVec 16
  | .line st k => (c.store st).counters.get k
  | .rxOk => c.port.rxOk
  | .rxBad => c.port.rxBad
  | .rxOverrun => c.port.rxOverrun
  | .glitch => c.clock.glitch

def setCounter (c : Cm8) (id : CounterId) (v : BitVec 16) : Cm8 :=
  match id with
  | .line st k => c.onStore st fun s => { s with counters := s.counters.set k v }
  | .rxOk => { c with port := { c.port with rxOk := v } }
  | .rxBad => { c with port := { c.port with rxBad := v } }
  | .rxOverrun => { c with port := { c.port with rxOverrun := v } }
  | .glitch => { c with clock := { c.clock with glitch := v } }

/-- One increment of a counter: WRAP or SATURATE at the top (R203), and COUNTER posted when the
increment brings it to 32 768 or to 65 535 (R204). -/
def bump (c : Cm8) (id : CounterId) : Cm8 :=
  let v := c.counter id
  if v = 0xFFFF#16 then
    match c.events.counterMode with
    | .wrap => c.setCounter id 0#16
    | .saturate => c
  else
    let c := c.setCounter id (v + 1#16)
    if v + 1#16 = 0x8000#16 then c.post none none (.counter id false)
    else if v + 1#16 = 0xFFFF#16 then c.post none none (.counter id true)
    else c

/-- `n` increments of a counter, one after the other. -/
def bumps (c : Cm8) (id : CounterId) : Nat → Cm8
  | 0 => c
  | n + 1 => (c.bump id).bumps id n

/-- A read sets a returned counter to 0 when clear-on-read is on (R205). -/
def clearOnRead (c : Cm8) (ids : List CounterId) : Cm8 :=
  if c.events.clearOnRead then ids.foldl (fun c id => c.setCounter id 0#16) c else c

end Cm8

/-- The six counters of a line store (R146). -/
def storeCounters (st : StoreId) : List CounterId :=
  [.line st .sent, .line st .received, .line st .bad, .line st .stale, .line st .overrun,
   .line st .passDrop]

/-- The 28 statistics counters of the part (R203: 24 of the stores, three of the port, GLITCH). -/
def allCounters : List CounterId :=
  allStores.flatMap storeCounters ++ [.rxOk, .rxBad, .rxOverrun, .glitch]

/-- The nominal period floor(10^8 · M / N) of a rate code (R29, R42). -/
def nominalPeriod (rate : Fin 8) : Nat :=
  Config.timebaseHz * Config.rateM rate / Config.rateN rate

/-! ### Parts of a head -/

namespace Activity

def active : Activity → Option Move
  | .moving m _ => some m
  | _ => none

def held : Activity → Option Held
  | .moving _ h => h
  | _ => none

def waiting : Activity → Option Waiting
  | .waitZone w => some w
  | _ => none

def isHalted : Activity → Bool
  | .halted _ => true
  | _ => false

def isOffline : Activity → Bool
  | .offline => true
  | _ => false

/-- The motion state code of R195. -/
def code : Activity → Nat
  | .offline => 0 | .idle => 1 | .waitCue => 2 | .waitZone _ => 3 | .moving _ _ => 4
  | .jogging _ => 5 | .halted _ => 6

/-- The SETPOINT frames of a tick carry positions in this motion state (R66, R93). -/
def carriesPositions : Activity → Bool
  | .offline => false
  | .halted _ => false
  | _ => true

end Activity

namespace Head

/-- The axes the controller drives on the slot (R6). -/
def axisList (h : Head) : List Axis := h.map.mask.axes

def configured (h : Head) (a : Axis) : Bool := h.map.mask.getLsbD a.num

/-- The slot has a non-empty configured axis mask (R2). -/
def isConfigured (h : Head) : Bool := h.map.mask ≠ 0#6

def hasTravel (h : Head) : Bool := h.configured .travel

def isLinked (h : Head) : Bool := h.link.state = .linked

end Head

end Sys2Proof.Machine
end

