-- ==== Sys2Proof/Machine/Limits.lean ====
section
/-! DEFINITION. The limit layers and the working interval (R11, R13). -/

namespace Sys2Proof.Machine

namespace AxisEntry

/-- One bound layer narrows an interval; an absent layer takes no part (R13). -/
def narrow (i : Span) : Option Span → Span
  | none => i
  | some l => ⟨max i.lo l.lo, min i.hi l.hi⟩

/-- The head range in studio units: the head range less the trim (R7, R13). -/
def studioRange (e : AxisEntry) : Option Span :=
  e.headRange.map fun r => ⟨r.lo - e.trim, r.hi - e.trim⟩

/-- The working interval of an axis (R13). -/
def working (e : AxisEntry) : Span := narrow (narrow e.comm e.restriction) e.studioRange

/-- Each bound of a restriction clamped into the commissioned interval (R11). -/
def clampInto (comm r : Span) : Span := ⟨comm.clamp r.lo, comm.clamp r.hi⟩

end AxisEntry

namespace Head

def working (h : Head) (a : Axis) : Span := (h.axes.get a).working

/-- A configured axis has an empty working interval (R13). -/
def anyEmpty (h : Head) : Bool := h.axisList.any fun a => (h.working a).isEmpty

/-- Every configured axis's setpoint lies inside its working interval (R84, R85). -/
def insideLimits (h : Head) : Bool :=
  h.axisList.all fun a => (h.working a).contains (h.setpoint.get a)

end Head

end Sys2Proof.Machine
end

