-- ==== Sys2Proof/Machine/Zones.lean ====
section
/-! DEFINITION. The zone map as a head sees it, the holders of the zones, and the ways zones are given
and freed (R109, R113 to R118). -/

namespace Sys2Proof.Machine

namespace Cm8

/-! ### The map (R109, R114) -/

/-- The zone map entries of a slot. -/
def entriesOf (c : Cm8) (slot : Slot) : List ZoneEntry :=
  c.zonemap.toList.filterMap fun e => e.filter fun z => z.slot = slot

/-- The zones of the entries of a slot that a test picks; none when the mask lacks TRAVEL (R114). -/
def mappedZones (c : Cm8) (slot : Slot) (p : ZoneEntry → Bool) : ZoneSet :=
  if (c.head slot).hasTravel then
    ZoneSet.ofPred fun z => (c.entriesOf slot).any fun e => e.zone = z && p e
  else 0#16

/-- The resident zones of a head: a range of the zone contains its TRAVEL setpoint (R114). -/
def residentZones (c : Cm8) (slot : Slot) : ZoneSet :=
  c.mappedZones slot fun e => e.range.contains ((c.head slot).setpoint.get .travel)

/-- The needed zones of a sweep: a range of the zone meets the sweep (R114). -/
def neededZones (c : Cm8) (slot : Slot) (sweep : Span) : ZoneSet :=
  c.mappedZones slot fun e => e.range.meets sweep

/-! ### The holders (R113) -/

def holder (c : Cm8) (z : Zone) : Option Slot := c.arbiter.holders[z]

/-- Gives every zone a new holder at once. -/
def withHolders (c : Cm8) (f : Zone → Option Slot) : Cm8 :=
  { c with arbiter := { c.arbiter with holders := Vector.ofFn f } }

def holdsZone (c : Cm8) (slot : Slot) (z : Zone) : Bool := c.holder z = some slot

def isFree (c : Cm8) (z : Zone) : Bool := c.holder z = none

/-- The holdings of a head. -/
def holdings (c : Cm8) (slot : Slot) : ZoneSet := ZoneSet.ofPred (c.holdsZone slot)

/-- The zone is held by another head. -/
def heldByOther (c : Cm8) (slot : Slot) (z : Zone) : Bool :=
  match c.holder z with
  | none => false
  | some o => o ≠ slot

/-- Every zone of the set is free or held by this head (R55, R116). -/
def obtainable (c : Cm8) (slot : Slot) (zs : ZoneSet) : Bool :=
  zs.zones.all fun z => !c.heldByOther slot z

/-- The free zones of the set are given to the head (R116, R117, R124). -/
def giveFree (c : Cm8) (slot : Slot) (zs : ZoneSet) : Cm8 :=
  c.withHolders fun z => if zs.getLsbD z.val && c.isFree z then some slot else c.holder z

/-- Every zone the head holds outside `keep` is freed. The pass that a release owes (R122) is noted. -/
def freeOutside (c : Cm8) (slot : Slot) (keep : ZoneSet) : Cm8 :=
  let freed := Zone.all.any fun z => c.holdsZone slot z && !keep.getLsbD z.val
  let c' := c.withHolders fun z =>
    if c.holdsZone slot z && !keep.getLsbD z.val then none else c.holder z
  { c' with arbiter := { c'.arbiter with released := c.arbiter.released || freed } }

/-- The sweep zones of the active move and the recorded sweep zones of the held move. -/
def moveZones (c : Cm8) (slot : Slot) : ZoneSet :=
  match (c.head slot).activity with
  | .moving m none => m.zones
  | .moving m (some h) => m.zones ||| h.zones
  | _ => 0#16

/-- A holdings recomputation (R115). A HALTED head's holdings are not recomputed. -/
def recompute (c : Cm8) (slot : Slot) : Cm8 :=
  if (c.head slot).activity.isHalted then c
  else c.freeOutside slot (c.residentZones slot ||| c.moveZones slot)

/-! ### The waiting set (R119) -/

/-- The waiting move of a slot, if its head is in WAIT_ZONE. -/
def waitingOf (c : Cm8) (slot : Slot) : Option Waiting := (c.head slot).activity.waiting

/-- A head of the waiting set needs the zone (R118); masked heads count. -/
def wanted (c : Cm8) (z : Zone) : Bool :=
  Slot.all.any fun i => ((c.waitingOf i).map fun w => w.move.zones.getLsbD z.val).getD false

end Cm8

end Sys2Proof.Machine
end

