-- ==== Sys2Proof/Machine/Profile.lean ====
section
/-! DEFINITION. Profile arithmetic: rounding, duration bounds, the path, the sweep, stop moves and the
plannings (R92 to R105, with the source reading of R25 and the on-air policy of R74). -/

namespace Sys2Proof.Machine

/-! ### Integer arithmetic -/

/-- `n / d` rounded to nearest, ties away from zero (00_scope.md, "Rounding"). -/
def roundDiv (n : Int) (d : Nat) : Int :=
  let q : Int := ((2 * n.natAbs + d) / (2 * d) : Nat)
  if n < 0 then -q else q

/-- The least D with `d * D ≥ n`. -/
def ceilDiv (n d : Nat) : Nat := (n + d - 1) / d

/-- Descends the bits below `b`: the greatest `x` above the start with `ok` false, for a test that
stays true once it is true. -/
def descend (ok : Nat → Bool) : Nat → Nat → Nat
  | 0, x => x
  | b + 1, x => descend ok b (if ok (x + 2 ^ b) then x else x + 2 ^ b)

/-- The least D with `ok D`, for a test that is false at 0 and stays true once it is true; 8192 when no
D up to 8191 meets it, which is above every duration (R98). -/
def leastD (ok : Nat → Bool) : Nat := descend ok 13 0 + 1

/-! ### The path (R100 to R102) -/

/-- The numerator n(k) of R100. -/
def pathNumerator (delta v0 d k : Int) : Int :=
  delta * (3 * k * k * d - 2 * k * k * k) +
    v0 * (k * d * d * d - 2 * k * k * d * d + k * k * k * d)

/-- The path value of an axis at tick k, before the output clamp (R100). -/
def pathValue (p0 v0 target : Int) (d k : Nat) : Int :=
  p0 + roundDiv (pathNumerator (target - p0) v0 d k) (d ^ 3)

/-- p(k) of an axis of a move: the path value after the output clamp (R15, R100). -/
def Head.pathPoint (h : Head) (m : Move) (k : Nat) (a : Axis) : Int :=
  (h.working a).clamp (pathValue (m.p0.get a) (m.v0.get a) (m.target.get a) m.d k)

/-- The smallest interval that holds `p0` and every `p 1` to `p n` (R102). -/
def sweepSpan (p : Nat → Int) (p0 : Int) : Nat → Span
  | 0 => ⟨p0, p0⟩
  | n + 1 =>
    let s := sweepSpan p p0 n
    ⟨min s.lo (p (n + 1)), max s.hi (p (n + 1))⟩

/-- The sweep of a move (R102); read only on a head whose mask includes TRAVEL. -/
def Head.sweep (h : Head) (m : Move) : Span :=
  sweepSpan (fun k => h.pathPoint m k .travel) (m.p0.get .travel) m.d

/-! ### Start states (R95) -/

structure Start where
  p0 : PerAxis Int
  v0 : PerAxis Int
  deriving DecidableEq, Repr

namespace Head

/-- From rest: the setpoint with velocity 0. -/
def restStart (h : Head) : Start := ⟨h.setpoint, .const 0⟩

/-- A blend: the setpoint and the difference of the last two, or the start state of an active move that
has made no setpoint. -/
def blendStart (h : Head) (m : Move) : Start :=
  if m.k = 0 then ⟨m.p0, m.v0⟩
  else ⟨h.setpoint, .gen fun a =>
    if h.configured a then h.setpoint.get a - h.previous.get a else 0⟩

end Head

/-! ### Choosing D and the targets (R96 to R99) -/

/-- What a planning is made from once the source is read and the policy applied. `named` gives the
positions of the named axes. -/
structure Ask where
  cls : MoveClass
  source : Option SourceName
  tag : Option Byte
  profile : Option Profile
  requested : Nat
  named : PerAxis (Option Int)
  softened : Bool
  deriving DecidableEq, Repr

/-- The bounds that one axis sets on D (R98): D_v and D_a for a named axis with Δ ≠ 0, D_b for an axis
with v0 ≠ 0. -/
def axisBound (e : AxisEntry) (named : Bool) (delta v0 : Int) : Nat :=
  let dv := if named && delta ≠ 0 then ceilDiv (3 * delta.natAbs) (2 * e.vmax) else 0
  let da := if named && delta ≠ 0 then
    leastD (fun d => decide (6 * delta.natAbs ≤ e.amax * d * d)) else 0
  let db := if v0 ≠ 0 then ceilDiv (4 * v0.natAbs) e.amax else 0
  max dv (max da db)

namespace Head

/-- The bound that an axis of the head sets on D, for the clamped target of a named axis (R96, R98). -/
def bound (h : Head) (st : Start) (ask : Ask) (a : Axis) : Nat :=
  match ask.named.get a with
  | some p => axisBound (h.axes.get a) true ((h.working a).clamp p - st.p0.get a) (st.v0.get a)
  | none => axisBound (h.axes.get a) false 0 (st.v0.get a)

/-- D: the greatest of the request, the on-air minimum on an on-air head, and the bounds of the
configured axes (R98). -/
def chooseD (h : Head) (minimum : Nat) (st : Start) (ask : Ask) : Nat :=
  h.axisList.foldl (fun d a => max d (h.bound st ask a))
    (max ask.requested (if h.tally then minimum else 0))

/-- The free-axis target before its clamp: p0 + round(v0 · D / 2) (R99). -/
def freeTarget (st : Start) (d : Nat) (a : Axis) : Int :=
  st.p0.get a + roundDiv (st.v0.get a * d) 2

/-- The target of an axis before its clamp: the named position, or the free-axis target (R96, R99). -/
def rawTarget (st : Start) (ask : Ask) (d : Nat) (a : Axis) : Int :=
  (ask.named.get a).getD (freeTarget st d a)

/-- The record of steps 3 to 7 of R94, its sweep zones not yet found. -/
def draft (h : Head) (st : Start) (ask : Ask) (d : Nat) : Move where
  cls := ask.cls
  source := ask.source
  tag := ask.tag
  profile := ask.profile
  d := d
  k := 0
  p0 := st.p0
  v0 := st.v0
  target := .gen fun a =>
    if h.configured a then (h.working a).clamp (rawTarget st ask d a) else st.p0.get a
  zones := 0#16
  flags :=
    { stretched := decide (ask.requested < d)
      late := false
      clamped := h.axisList.any fun a =>
        (h.working a).clamp (rawTarget st ask d a) ≠ rawTarget st ask d a
      softened := ask.softened }

end Head

namespace Cm8

/-- The sweep zones of a move of a head (R102, R114). -/
def sweepZones (c : Cm8) (slot : Slot) (m : Move) : ZoneSet :=
  if (c.head slot).hasTravel then c.neededZones slot ((c.head slot).sweep m) else 0#16

/-- Steps 3 to 8 of a planning (R94): nothing when D would exceed 4095 (LIMIT, R98). -/
def plan (c : Cm8) (slot : Slot) (st : Start) (ask : Ask) : Option Move :=
  let h := c.head slot
  let d := h.chooseD c.policy.minimum st ask
  if Config.durationMax < d then none
  else
    let m := h.draft st ask d
    some { m with zones := c.sweepZones slot m }

end Cm8

/-! ### Sources and the on-air policy (R25, R74, R97) -/

/-- What a source gives a planning (R25). -/
structure Reading where
  name : SourceName
  requested : Nat
  profile : Profile
  targets : List (Axis × Int)
  deriving DecidableEq, Repr

/-- The source as events name it (R27). -/
def Source.name : Source → SourceName
  | .shot n => .shot n
  | .inline _ => .inline

/-- Reads a source once (R24, R25); nothing for an invalid shot record (NO_SHOT). -/
def Head.read (h : Head) (src : Source) (duration : Option Nat) (profile : Option Profile) :
    Option Reading :=
  match src with
  | .shot n =>
    h.shots[n].map fun r =>
      ⟨.shot n, duration.getD r.duration, profile.getD r.profile, r.targets⟩
  | .inline ts => some ⟨.inline, duration.getD 1, profile.getD .ease, ts⟩

/-- The target set: the source's pairs whose axes are configured (R25). -/
def Head.targetSet (h : Head) (ts : List (Axis × Int)) : PerAxis (Option Int) :=
  .gen fun a => if h.configured a then (ts.find? fun t => t.1 = a).map (·.2) else none

/-- The on-air policy on a profile (R74): the profile that stands and whether it was softened; nothing
when BLOCK fails the planning with ON_AIR. -/
def Policy.apply (p : Policy) (tally : Bool) (profile : Profile) : Option (Profile × Bool) :=
  match tally, profile, p.onAir with
  | true, .swift, .soften => some (.ease, true)
  | true, .swift, .block => none
  | _, q, _ => some (q, false)

/-- The requested duration: 1 for a move that stands as SWIFT (R97). -/
def requestFor (profile : Profile) (base : Nat) : Nat := if profile = .swift then 1 else base

/-- A planned move with the requested durations that a grant may still read (R75). -/
structure Planned where
  move : Move
  requested : Nat
  easeRequest : Nat
  deriving DecidableEq, Repr

namespace Cm8

/-- An ordinary planning (R94): NO_SHOT, ON_AIR or LIMIT, or the planned move. -/
def planSource (c : Cm8) (slot : Slot) (st : Start) (cls : MoveClass) (src : Source)
    (duration : Option Nat) (profile : Option Profile) (tag : Byte) : Except DropReason Planned :=
  let h := c.head slot
  match h.read src duration profile with
  | none => .error .noShot
  | some r =>
    match c.policy.apply h.tally r.profile with
    | none => .error .onAir
    | some (p, soft) =>
      let q := requestFor p r.requested
      match c.plan slot st ⟨cls, some r.name, some tag, some p, q, h.targetSet r.targets, soft⟩ with
      | none => .error .limit
      | some m => .ok ⟨m, q, r.requested⟩

/-- A planning of a queue entry. -/
def planEntry (c : Cm8) (slot : Slot) (st : Start) (e : QueueEntry) : Except DropReason Planned :=
  c.planSource slot st .planned e.source e.duration e.profile e.tag

/-- Every configured axis named at its position, none free. -/
def nameAll (c : Cm8) (slot : Slot) (t : PerAxis Int) : PerAxis (Option Int) :=
  .gen fun a => if (c.head slot).configured a then some (t.get a) else none

/-- The re-planning of a held move (R73): from rest, to its own targets, with requested duration R. -/
def planResume (c : Cm8) (slot : Slot) (x : Held) : Except DropReason Planned :=
  let h := c.head slot
  match c.policy.apply h.tally (x.profile.getD .ease) with
  | none => .error .onAir
  | some (p, soft) =>
    let q := requestFor p x.remaining
    match c.plan slot h.restStart ⟨.planned, x.source, x.tag, some p, q,
        c.nameAll slot x.target, soft⟩ with
    | none => .error .limit
    | some m => .ok ⟨m, q, x.remaining⟩

/-- The re-planning of a SWIFT move on a tally rise (R76): a blend to the same targets, EASE, with
requested duration max(D − k, on-air minimum). DESIGN CHOICE (log entry 22): R76 lists no flags; the LATE of
the move stands, and CLAMPED and STRETCHED are what this planning gives, so an earlier CLAMPED goes. -/
def planSoften (c : Cm8) (slot : Slot) (m : Move) : Option Move :=
  let h := c.head slot
  (c.plan slot (h.blendStart m) ⟨m.cls, m.source, m.tag, some .ease,
      max (m.d - m.k) c.policy.minimum, c.nameAll slot m.target, true⟩).map
    fun n => { n with flags := { n.flags with late := m.flags.late } }

/-! ### Stop moves (R103 to R105) -/

/-- D_s before any shortening: the least D ≥ 1 with Amax · D ≥ |v0| on every configured axis, at most
4095 (R103). -/
def stopDuration (h : Head) (st : Start) : Nat :=
  min Config.durationMax (h.axisList.foldl
    (fun d a => max d (ceilDiv (st.v0.get a).natAbs (h.axes.get a).amax)) 1)

/-- The stop-like target of an axis (R103). -/
def stopTarget (h : Head) (st : Start) (d : Nat) (a : Axis) : Int :=
  if h.configured a then (h.working a).clamp (Head.freeTarget st d a) else st.p0.get a

/-- The interval between two positions, in either order. -/
def between (p q : Int) : Span := ⟨min p q, max p q⟩

/-- The last count before a range, for a head that comes with velocity `v` (R104, R107). -/
def lastBefore (v : Int) (r : Span) : Int := if 0 < v then r.lo - 1 else r.hi + 1

/-- The range met first in the direction of `v`: the least low end, or the greatest high end. Of ranges
that begin at the same count the first listed is taken. -/
def nearest (v : Int) : List ZoneEntry → Option ZoneEntry
  | [] => none
  | e :: es =>
    match nearest v es with
    | none => some e
    | some f =>
      if 0 < v then (if e.range.lo ≤ f.range.lo then some e else some f)
      else (if f.range.hi ≤ e.range.hi then some e else some f)

/-- The range that blocks a stop (R104): mapped to this head for a zone another head holds, meeting the
stop interval, nearest in the direction of TRAVEL v0. -/
def stopBlocker (c : Cm8) (slot : Slot) (st : Start) (target : Int) : Option ZoneEntry :=
  if (c.head slot).hasTravel && st.v0.get .travel ≠ 0 then
    nearest (st.v0.get .travel) ((c.entriesOf slot).filter fun e =>
      c.heldByOther slot e.zone && e.range.meets (between (st.p0.get .travel) target))
  else none

/-- The duration and targets of a stop move after the examination of R104. -/
def stopShape (c : Cm8) (slot : Slot) (st : Start) : Nat × PerAxis Int :=
  let h := c.head slot
  let d := stopDuration h st
  let full := PerAxis.gen (stopTarget h st d)
  match c.stopBlocker slot st (full.get .travel) with
  | none => (d, full)
  | some e =>
    let v := st.v0.get .travel
    let stop := lastBefore v e.range
    let dist := (stop - st.p0.get .travel).natAbs
    if v.natAbs * d ≤ 3 * dist then (d, full.set .travel stop)
    else
      let d' := max 1 (3 * dist / v.natAbs)
      (d', (PerAxis.gen (stopTarget h st d')).set .travel stop)

/-- A stop planning (R103 to R105). -/
def planStop (c : Cm8) (slot : Slot) (m : Move) : Move :=
  let st := (c.head slot).blendStart m
  let shape := c.stopShape slot st
  let n : Move :=
    { cls := .stop, source := none, tag := none, profile := none, d := shape.1, k := 0,
      p0 := st.p0, v0 := st.v0, target := shape.2, zones := 0#16,
      flags := ⟨false, false, false, false⟩ }
  { n with zones := c.sweepZones slot n }

end Cm8

end Sys2Proof.Machine
end

