-- ==== Sys2Proof/Machine/Sequencer.lean ====
section
/-! DEFINITION. The Move Sequencer and the grant pass: free states, drops and flushes, starts, waits,
passes, supersession and entry into HALTED (R41, R50 to R61, R69, R75, R81, R82, R119 to R125). -/

namespace Sys2Proof.Machine

/-! ### Free states (R41, R50) -/

/-- A cue has come when F − c, modulo 2^32, is less than 2^31 (R41). -/
def cueCome (f cue : BitVec 32) : Bool := decide ((f - cue).toNat < 2 ^ 31)

/-- The state of a free head: WAIT_CUE when its head entry's cue has not come, else IDLE (R50). -/
def freeActivity (f : BitVec 32) (q : List QueueEntry) : Activity :=
  match q.head? with
  | some e =>
    match e.cue with
    | some cue => if cueCome f cue then .idle else .waitCue
    | none => .idle
  | none => .idle

namespace Activity

/-- IDLE or WAIT_CUE. -/
def isFree : Activity → Bool
  | .idle => true
  | .waitCue => true
  | _ => false

end Activity

namespace Cm8

/-- The head takes the state that R50 gives for its queue. -/
def toFree (c : Cm8) (slot : Slot) : Cm8 :=
  c.onHead slot fun h => { h with activity := freeActivity c.frame h.queue }

/-- A free head's state is set afresh; any other head keeps its state (R50). -/
def refresh (c : Cm8) (slot : Slot) : Cm8 :=
  if (c.head slot).activity.isFree then c.toFree slot else c

/-! ### Events of a move -/

/-- MOVE_DROPPED for a move (R61); a stop move receives no record (R80, R82). -/
def dropMove (c : Cm8) (slot : Slot) (m : Move) (why : DropReason) : Cm8 :=
  if m.cls = .stop then c else c.post (some slot) m.tag (.moveDropped m.source why)

def dropHeld (c : Cm8) (slot : Slot) (x : Held) (why : DropReason) : Cm8 :=
  c.post (some slot) x.tag (.moveDropped x.source why)

/-- MOVE_DROPPED for a held move, where there is one. -/
def dropHeld? (c : Cm8) (slot : Slot) (x : Option Held) (why : DropReason) : Cm8 :=
  match x with
  | none => c
  | some x => c.dropHeld slot x why

def dropEntry (c : Cm8) (slot : Slot) (e : QueueEntry) (why : DropReason) : Cm8 :=
  c.post (some slot) (some e.tag) (.moveDropped (some e.source.name) why)

/-- A flush: MOVE_DROPPED FLUSHED for each entry, head entry first, and the queue empty (R60). -/
def flush (c : Cm8) (slot : Slot) : Cm8 :=
  ((c.head slot).queue.foldl (fun c e => c.dropEntry slot e .flushed) c).setQueue slot []

def postStarted (c : Cm8) (slot : Slot) (m : Move) : Cm8 :=
  c.post (some slot) m.tag (.moveStarted m.source m.d m.flags)

/-! ### The grant pass (R122 to R125) -/

/-- The waiting heads that are not masked, on-air heads first, each group in cyclic slot order from the
slot after the lowest-priority slot (R123). -/
def candidates (c : Cm8) : List Slot :=
  let cyclic := Slot.all.map fun i => c.arbiter.lowest + 1 + i
  let waiting := cyclic.filter fun i => (c.waitingOf i).isSome && !c.arbiter.mask.getLsbD i.val
  waiting.filter (fun i => (c.head i).tally) ++ waiting.filter fun i => !(c.head i).tally

/-- Judges one candidate against the zones as they stand after the candidates before it: a grant, or a
reservation of its free zones for the rest of the pass (R124). -/
def judge (a : Cm8 × ZoneSet × List Slot) (i : Slot) : Cm8 × ZoneSet × List Slot :=
  let c := a.1
  let reserved := a.2.1
  match c.waitingOf i with
  | none => a
  | some w =>
    let ok := w.move.zones.zones.all fun z =>
      c.holdsZone i z || (c.isFree z && !reserved.getLsbD z.val)
    if ok then (c.giveFree i w.move.zones, reserved, a.2.2 ++ [i])
    else (c, reserved ||| (w.move.zones &&& ZoneSet.ofPred c.isFree), a.2.2)

/-- A pass: the grants in pass order, and the lowest-priority slot in ROTATE mode (R125). It answers
for every release made before it. -/
def judgePass (c : Cm8) : Cm8 × List Slot :=
  let c := { c with arbiter := { c.arbiter with released := false } }
  let r := c.candidates.foldl judge (c, 0#16, [])
  match c.policy.rotation, r.2.2.getLast? with
  | .rotate, some i => ({ r.1 with arbiter := { r.1.arbiter with lowest := i } }, r.2.2)
  | _, _ => (r.1, r.2.2)

/-- LATE at a start: the entry carried a cue and F differs from it (R53, R54). DESIGN CHOICE (log entry 34):
a cued move that waited and is granted while F is still its cue is not LATE, by R54's test, although R54
also calls a cued move that had to wait always late. -/
def lateBy (f : BitVec 32) (cue : Option (BitVec 32)) : Bool :=
  match cue with
  | none => false
  | some x => x ≠ f

/-- The first setpoint of a move that starts within a tick belongs to the next tick (R51). -/
def skipMotion (c : Cm8) (slot : Slot) : Cm8 := { c with work := c.work.erase (.motion slot) }

/-- A move becomes the active move of a head that had none; its record and the recomputation follow. -/
def makeActive (c : Cm8) (slot : Slot) (m : Move) : Cm8 :=
  (c.skipMotion slot).setActivity slot (.moving m none)

/-- A move becomes the active move of a head that had none: MOVE_STARTED, then the holdings
recomputation of its start (R115, R125). -/
def startMove (c : Cm8) (slot : Slot) (m : Move) (cue : Option (BitVec 32)) : Cm8 :=
  let m := { m with flags := { m.flags with late := lateBy c.frame cue } }
  ((c.makeActive slot m).postStarted slot m).recompute slot

/-- The on-air check at a grant (R75): the move as it starts, or nothing where BLOCK drops it. -/
def grantCheck (c : Cm8) (slot : Slot) (w : Waiting) : Option Move :=
  if (c.head slot).tally then
    match w.move.profile, c.policy.onAir with
    | some .swift, .block => none
    | some .swift, .soften =>
      let d := max w.move.d (max c.policy.minimum w.easeRequest)
      some { w.move with
        profile := some .ease, d := d,
        flags := { w.move.flags with softened := true, stretched := decide (w.easeRequest < d) } }
    | _, _ =>
      let d := max w.move.d c.policy.minimum
      some { w.move with
        d := d, flags := { w.move.flags with stretched := decide (w.requested < d) } }
  else some w.move

/-- The hand-over of a grant to a waiting head (R75, R125): ZONE_GRANTED, then the start, or
MOVE_DROPPED ON_AIR and a recomputation that frees the zones just granted. -/
def handGrant (c : Cm8) (slot : Slot) : Cm8 :=
  match c.waitingOf slot with
  | none => c
  | some w =>
    let c := c.post (some slot) w.move.tag (.zoneGranted w.move.zones w.timer)
    match c.grantCheck slot w with
    | some m => c.startMove slot m w.cue
    | none => ((c.dropMove slot w.move .onAir).toFree slot).recompute slot

/-- The answer of a request that its own pass granted: the move starts, with no ZONE_GRANTED (R119). -/
def answerRequest (c : Cm8) (slot : Slot) : Cm8 :=
  match c.waitingOf slot with
  | none => c
  | some w => c.startMove slot w.move w.cue

/-- The hand-over of one grant of a pass that `requester`'s request ran, or that none ran. -/
def handOver (requester : Option Slot) (c : Cm8) (slot : Slot) : Cm8 :=
  if requester = some slot then c.answerRequest slot else c.handGrant slot

/-- Further passes until one frees nothing (R122). Each pass that leads to another has granted a
waiting head, so nine are enough. -/
def settleN : Nat → Cm8 → Cm8
  | 0, c => c
  | n + 1, c =>
    if c.arbiter.released then
      let r := c.judgePass
      settleN n (r.2.foldl (handOver none) r.1)
    else c

/-- Runs the passes that releases owe. -/
def settle (c : Cm8) : Cm8 := settleN 9 c

/-- A grant pass with its hand-over and the passes that follow from it (R122, R125). -/
def grantPass (c : Cm8) : Cm8 :=
  let r := c.judgePass
  (r.2.foldl (handOver none) r.1).settle

/-! ### Requests (R119) -/

/-- The timer step of the tick in progress is still to come for the slot (R120). -/
def timerOutstanding (c : Cm8) (slot : Slot) : Bool := c.work.contains (.timer slot)

/-- ZONE_WAIT for a head whose request was not granted; its holdings become its resident zones (R54,
R73, R119, R121). -/
def beginWait (c : Cm8) (slot : Slot) (w : Waiting) : Cm8 :=
  (c.post (some slot) w.move.tag (.zoneWait w.move.zones)).recompute slot

/-- The waiting move of a request (R119). -/
def asWaiting (c : Cm8) (slot : Slot) (p : Planned) (cue : Option (BitVec 32)) (back : QueueEntry) :
    Waiting where
  move := p.move
  cue := cue
  requested := p.requested
  easeRequest := p.easeRequest
  back := back
  timer := 0
  fresh := c.timerOutstanding slot

/-- A request for the needed zones of a move that may wait (R119): granted at once when it needs none;
else the head joins the waiting set and a pass runs, which grants it or leaves it in WAIT_ZONE. -/
def request (c : Cm8) (slot : Slot) (p : Planned) (cue : Option (BitVec 32)) (back : QueueEntry) :
    Cm8 :=
  if p.move.zones = 0#16 then (c.startMove slot p.move cue).settle
  else
    let w := c.asWaiting slot p cue back
    let r := (c.setActivity slot (.waitZone w)).judgePass
    let c := r.2.foldl (handOver (some slot)) r.1
    (if r.2.contains slot then c else c.beginWait slot w).settle

/-- The hand-over of one grant of a request's pass, the requester's own record left for later. -/
def handOverUntold (requester : Slot) (m : Move) (c : Cm8) (slot : Slot) : Cm8 :=
  if requester = slot then (c.makeActive slot m).recompute slot else c.handGrant slot

/-- ZONE_WAIT after all that the request brings; but a head that a later pass of the moment grants tells
its wait before that pass (R55, log entry 33). -/
def waitTold (c : Cm8) (slot : Slot) (w : Waiting) : Cm8 :=
  let quiet := (c.recompute slot).settle
  if (quiet.waitingOf slot).isSome then quiet.post (some slot) w.move.tag (.zoneWait w.move.zones)
  else (c.beginWait slot w).settle

/-- The request of a REPLACE (R55 step 4): as any request, with MOVE_STARTED or ZONE_WAIT of the new move
posted after every record that its passes bring. -/
def requestTold (c : Cm8) (slot : Slot) (p : Planned) (back : QueueEntry) : Cm8 :=
  let m := { p.move with flags := { p.move.flags with late := false } }
  if p.move.zones = 0#16 then ((c.makeActive slot m).recompute slot).settle.postStarted slot m
  else
    let w := c.asWaiting slot p none back
    let r := (c.setActivity slot (.waitZone w)).judgePass
    let c := r.2.foldl (handOverUntold slot m) r.1
    if r.2.contains slot then c.settle.postStarted slot m else c.waitTold slot w

/-! ### Taking over a head at once (R69, R116, R117) -/

/-- The free zones of the new move go to the head, it becomes the active move, the holdings are
recomputed, and the pass of a release runs. -/
def takeOver (c : Cm8) (slot : Slot) (m : Move) (held : Option Held) : Cm8 :=
  (((c.giveFree slot m.zones).setActivity slot (.moving m held)).recompute slot).settle

/-- Starts a stop move over the active move `m` (R80, R105). -/
def beginStop (c : Cm8) (slot : Slot) (m : Move) : Cm8 :=
  c.takeOver slot (c.planStop slot m) none

/-! ### Halting (R81, R82) -/

/-- Steps 2 to 4 of R82 for the records a head had. -/
def dropRecords (c : Cm8) (slot : Slot) : Activity → Cm8
  | .moving m held => (c.dropMove slot m .flushed).dropHeld? slot held .flushed
  | .waitZone w => c.dropMove slot w.move .flushed
  | _ => c

/-- Entry into HALTED (R82). Setpoints and holdings stay, and no pass runs. -/
def enterHalted (c : Cm8) (slot : Slot) (cause : HaltCause) : Cm8 :=
  let old := (c.head slot).activity
  (((c.setActivity slot (.halted cause)).dropRecords slot old).flush slot).post
    (some slot) none (.headHalted cause)

/-- The causes that halt an OFFLINE head (R81). -/
def HaltCause.haltsOffline : HaltCause → Bool
  | .mismatch => true | .range => true | .conflict => true | _ => false

/-- A halt request (R81). -/
def haltRequest (c : Cm8) (slot : Slot) (cause : HaltCause) : Cm8 :=
  match (c.head slot).activity with
  | .offline => if HaltCause.haltsOffline cause then c.enterHalted slot cause else c
  | .halted _ => c
  | _ => c.enterHalted slot cause

/-- A resident zone of the head is held by another head. -/
def conflicted (c : Cm8) (slot : Slot) : Bool := !c.obtainable slot (c.residentZones slot)

end Cm8

end Sys2Proof.Machine
end

