-- ==== Sys2Proof/Machine/Jogging.lean ====
section
/-! DEFINITION. The jog step, the jog claim and the end of a jog (R87, R88, R106, R107, R118). -/

namespace Sys2Proof.Machine

/-- The jog speed limit of an axis (R106 step 1). -/
def AxisEntry.jogSpeed (e : AxisEntry) : Int := min e.jogLimit e.vmax

/-- The jog velocity after its ramp towards the clamped command (R106 steps 1 and 2). -/
def rampJog (e : AxisEntry) (commanded velocity : Int) : Int :=
  let goal := max (-e.jogSpeed) (min e.jogSpeed commanded)
  if (goal - velocity).natAbs ≤ e.amax then goal
  else if velocity < goal then velocity + e.amax else velocity - e.amax

/-- Position and velocity of an axis after steps 1 to 4 of R106. -/
def jogAxis (h : Head) (j : Jog) (a : Axis) : Int × Int :=
  let v := rampJog (h.axes.get a) (j.commanded.get a) (j.velocity.get a)
  let p := h.setpoint.get a + v
  let q := (h.working a).clamp p
  (q, if q = p then v else 0)

/-- The jog record after the refresh count of a tick (R87). -/
def Jog.refreshed (j : Jog) : Jog :=
  { j with
    refresh := j.refresh + 1,
    commanded := if Config.jogRefreshTicks ≤ j.refresh + 1 then .const 0 else j.commanded }

/-- Every commanded and every jog velocity of a configured axis is 0 (R87). -/
def Jog.still (h : Head) (j : Jog) : Bool :=
  h.axisList.all fun a => j.commanded.get a = 0 && j.velocity.get a = 0

namespace Cm8

/-- The next range that the TRAVEL step from `p` to `q` meets and that needs a claim, nearest first in
the direction of the step (R107). -/
def jogObstacle (c : Cm8) (i : Slot) (p q : Int) : Option ZoneEntry :=
  nearest (q - p) ((c.entriesOf i).filter fun e =>
    !c.holdsZone i e.zone && e.range.meets (between p q))

/-- The zone can be claimed by a jog: free and needed by no waiting head (R118). -/
def jogMayClaim (c : Cm8) (z : Zone) : Bool := c.isFree z && !c.wanted z

/-- Examines the ranges that a TRAVEL step meets: the zones that the step takes, and where it stops
when a range cannot be granted (R107). Every round grants one zone or ends, so 17 rounds are enough. -/
def jogTravel (i : Slot) (p q : Int) : Nat → Cm8 → Cm8 × Option Int
  | 0, c => (c, none)
  | n + 1, c =>
    match c.jogObstacle i p q with
    | none => (c, none)
    | some e =>
      if c.jogMayClaim e.zone then
        jogTravel i p q n (c.giveFree i (1#16 <<< e.zone.val))
      else (c, some (lastBefore (q - p) e.range))

/-- The TRAVEL step of a jog, where it is one (R88, R106 step 5). -/
def jogClaim (c : Cm8) (i : Slot) (p q : Int) : Cm8 × Option Int :=
  if (c.head i).hasTravel && p ≠ q then jogTravel i p q 17 c else (c, none)

/-- The jog step of every configured axis (R106); `j` is the record after the refresh count. -/
def jogStep (c : Cm8) (i : Slot) (j : Jog) : Cm8 × Jog :=
  let h := c.head i
  let next (a : Axis) : Int × Int :=
    if h.configured a then jogAxis h j a else (h.setpoint.get a, j.velocity.get a)
  let r := c.jogClaim i (h.setpoint.get .travel) (next .travel).1
  let after (a : Axis) : Int × Int :=
    match a, r.2 with
    | .travel, some stop => (stop, 0)
    | a, _ => next a
  (r.1.onHead i fun h =>
      { h with
        previous := .gen fun a => if h.configured a then h.setpoint.get a else h.previous.get a,
        setpoint := .gen fun a => (after a).1 },
    { j with velocity := .gen fun a => (after a).2 })

/-- A tick of a JOGGING head: the refresh count, the step, and the end of the jog (R87). -/
def jogTick (c : Cm8) (i : Slot) (j : Jog) : Cm8 :=
  let r := c.jogStep i j.refreshed
  if Jog.still (c.head i) r.2 then ((r.1.toFree i).recompute i).settle
  else r.1.setActivity i (.jogging r.2)

end Cm8

end Sys2Proof.Machine
end

