-- ==== Sys2Proof/Machine/Moves.lean ====
section
/-! DEFINITION. A head's own work at a tick: evaluation, completion and resumption, the queue, softening
and the wait timer (R51 to R57, R68, R73, R76, R77, R120). -/

namespace Sys2Proof.Machine

/-- The setpoint that tick k of a move makes (R68, R100). -/
def Head.evaluate (h : Head) (m : Move) : Head :=
  { h with
    previous := .gen fun a => if h.configured a then h.setpoint.get a else h.previous.get a,
    setpoint := .gen fun a => if h.configured a then h.pathPoint m m.k a else h.setpoint.get a }

namespace Cm8

/-! ### Completion and resumption (R68, R73) -/

/-- The queue entry that a resumed held move becomes when PRIORITY puts it back (R59). -/
def backOfHeld (c : Cm8) (i : Slot) (x : Held) : QueueEntry where
  source := .inline (((c.head i).axisList).map fun a => (a, x.target.get a))
  rule := .after
  cue := none
  duration := some x.remaining
  profile := x.profile
  tag := x.tag.getD 0#8

/-- The head takes the state R50 gives and its holdings become its resident zones, with the pass of a
release. -/
def restFree (c : Cm8) (i : Slot) : Cm8 := ((c.toFree i).recompute i).settle

/-- Resumption of a held move at the completion tick (R73). -/
def resume (c : Cm8) (i : Slot) (x : Held) : Cm8 :=
  match c.planResume i x with
  | .error why => (c.dropHeld i x why).restFree i
  | .ok p =>
    let n := (c.head i).resumptions + 1#16
    let c := (c.onHead i fun h => { h with resumptions := n, activity := .idle }).post (some i) x.tag
      (.moveResumed x.source p.move.d p.move.flags n)
    c.request i p none (c.backOfHeld i x)

/-- The completion of the active move (R68). -/
def complete (c : Cm8) (i : Slot) (m : Move) (held : Option Held) : Cm8 :=
  let c := if m.cls = .stop then c else c.post (some i) m.tag (.moveDone m.source)
  match held with
  | some x => c.resume i x
  | none => c.restFree i

/-- The queue is not considered at a tick at which a move completes or a jog runs (R51). -/
def skipQueue (c : Cm8) (i : Slot) : Cm8 := { c with work := c.work.erase (.queue i) }

/-- A tick of a MOVING head (R68). -/
def moveTick (c : Cm8) (i : Slot) (m : Move) (held : Option Held) : Cm8 :=
  let m := { m with k := m.k + 1 }
  let c := c.onHead i fun h => { h.evaluate m with activity := .moving m held }
  if m.d ≤ m.k then (c.skipQueue i).complete i m held else c

/-- The setpoint work of a head at a tick (R66). -/
def motionStep (c : Cm8) (i : Slot) : Cm8 :=
  match (c.head i).activity with
  | .moving m held => c.moveTick i m held
  | .jogging j => (c.skipQueue i).jogTick i j
  | _ => c

/-- The active move of the head completes at this tick. -/
def completionDue (c : Cm8) (i : Slot) : Bool :=
  match (c.head i).activity with
  | .moving m _ => decide (m.d ≤ m.k + 1)
  | _ => false

/-- The refresh count of the head's jog reaches 12 at this tick. -/
def refreshDue (c : Cm8) (i : Slot) : Bool :=
  match (c.head i).activity with
  | .jogging j => decide (j.refresh + 1 = Config.jogRefreshTicks)
  | _ => false

/-! ### The queue (R51 to R57) -/

/-- The cue of an entry, if it has one, has come. -/
def cueReady (c : Cm8) (e : QueueEntry) : Bool :=
  match e.cue with
  | none => true
  | some cue => cueCome c.frame cue

/-- The head entry, when it acts at this tick by its start rule (R52, R57). DESIGN CHOICE (log entry 37): R51
skips a tick at which the head is in WAIT_ZONE, and the state is read here as it stands at the consideration,
so a head whose wait a timer step or a hand-over of the same tick has ended by then is considered. -/
def actingEntry (c : Cm8) (i : Slot) : Option QueueEntry :=
  ((c.head i).queue.head?).filter fun e =>
    c.cueReady e &&
      match e.rule, (c.head i).activity with
      | .after, .idle => true
      | .after, .waitCue => true
      | .after, _ => false
      | .cuedReplace, .idle => true
      | .cuedReplace, .waitCue => true
      | .cuedReplace, .waitZone _ => true
      | .cuedReplace, .moving m _ => m.cls ≠ .stop
      | .cuedReplace, _ => false

/-- The head entry leaves the queue. -/
def takeEntry (c : Cm8) (i : Slot) : Cm8 := c.onHead i fun h => { h with queue := h.queue.drop 1 }

/-- An eligible AFTER entry at its tick (R53). -/
def startEntry (c : Cm8) (i : Slot) (e : QueueEntry) : Cm8 :=
  let c := c.takeEntry i
  match c.planEntry i (c.head i).restStart e with
  | .error why => (c.dropEntry i e why).toFree i
  | .ok p => c.request i p e.cue { e with rule := .after, cue := none }

/-- The start state of a move that takes over the head: a blend over an active move, else rest (R55,
R57, R58). -/
def overStart (c : Cm8) (i : Slot) : Start :=
  match (c.head i).activity.active with
  | some m => (c.head i).blendStart m
  | none => (c.head i).restStart

/-- The records that a call displaces: MOVE_DROPPED SUPERSEDED for the active and the held move, or for
the waiting move (R55, R57). -/
def dropDisplaced (c : Cm8) (i : Slot) : Cm8 :=
  match (c.head i).activity with
  | .moving m held => (c.dropMove i m .superseded).dropHeld? i held .superseded
  | .waitZone w => c.dropMove i w.move .superseded
  | _ => c

/-- A move takes over the head at once: displaced records are dropped, its zones are taken, and
MOVE_STARTED is posted last (R55, R57). -/
def overrideWith (c : Cm8) (i : Slot) (m : Move) : Cm8 :=
  ((c.dropDisplaced i).takeOver i m none).postStarted i m

/-- A due CUED-REPLACE entry (R57). -/
def cuedReplace (c : Cm8) (i : Slot) (e : QueueEntry) : Cm8 :=
  let c := c.takeEntry i
  match c.planEntry i (c.overStart i) e with
  | .error why => (c.dropEntry i e why).refresh i
  | .ok p =>
    if c.obtainable i p.move.zones then
      c.overrideWith i { p.move with flags := { p.move.flags with late := lateBy c.frame e.cue } }
    else (c.dropEntry i e .zoneBusy).refresh i

/-- The consideration of a head's queue at a tick (R51). -/
def queueStep (c : Cm8) (i : Slot) : Cm8 :=
  match c.actingEntry i with
  | none => c
  | some e =>
    match e.rule with
    | .after => c.startEntry i e
    | .cuedReplace => c.cuedReplace i e

/-! ### Softening (R76, R77) -/

/-- The stop move of a failed softening (R77). -/
def softenFails (c : Cm8) (i : Slot) (m : Move) (held : Option Held) (why : DropReason) : Cm8 :=
  ((c.dropMove i m why).dropHeld? i held .superseded).beginStop i m

/-- The examination of a head whose tally rose at this tick (R76). -/
def softenStep (c : Cm8) (i : Slot) : Cm8 :=
  match (c.head i).activity with
  | .moving m held =>
    if m.profile = some .swift then
      match c.planSoften i m with
      | none => c.softenFails i m held .limit
      | some n =>
        if c.obtainable i n.zones then
          (c.takeOver i n held).post (some i) n.tag (.moveSoftened n.d)
        else c.softenFails i m held .zoneBusy
    else c
  | _ => c

/-! ### The wait timer (R120) -/

/-- The wait timer of the head reaches the zone wait timeout at this step. -/
def timeoutDue (c : Cm8) (i : Slot) : Bool :=
  match c.waitingOf i with
  | none => false
  | some w => !w.fresh && decide (c.policy.waitTimeout ≤ w.timer + 1)

/-- The timer step of one waiting head (R120). -/
def timerStep (c : Cm8) (i : Slot) : Cm8 :=
  match c.waitingOf i with
  | none => c
  | some w =>
    if w.fresh then c.setActivity i (.waitZone { w with fresh := false })
    else if c.policy.waitTimeout ≤ w.timer + 1 then (c.dropMove i w.move .zoneTimeout).restFree i
    else c.setActivity i (.waitZone { w with timer := w.timer + 1 })

end Cm8

end Sys2Proof.Machine
end

