-- ==== Sys2Proof/Machine/Flags.lean ====
section
/-! DEFINITION. The flag bytes of frames and replies, and the one-byte codes of names (R188 to R195). -/

namespace Sys2Proof.Machine

/-- A byte of flags: element i of the list is bit i. -/
def flagsByte (bits : List Bool) : Byte :=
  BitVec.ofNat 8 (bits.foldr (fun b n => n * 2 + b.toNat) 0)

def boolByte (b : Bool) : Byte := if b then 1#8 else 0#8

/-- The flags of MOVE_STARTED and MOVE_RESUMED (R191). -/
def MoveFlags.byte (f : MoveFlags) : Byte := flagsByte [f.stretched, f.late, f.clamped, f.softened]

/-- The flags of a forwarded report (R192). -/
def ForwardedReport.flags (r : ForwardedReport) : Byte :=
  flagsByte [r.servoFault, r.localControl, r.stale, r.superseded]

/-- Which of slot and tag an event record carries (R191). -/
def EventRecord.presence (r : EventRecord) : Byte := flagsByte [r.slot.isSome, r.tag.isSome]

/-- The flags of AXIS GET (R195). -/
def AxisEntry.flags (e : AxisEntry) : Byte :=
  flagsByte [e.restriction.isSome, e.headRange.isSome, e.working.isEmpty]

/-- The flags of HEAD STATUS (R195). -/
def Head.statusFlags (h : Head) : Byte :=
  flagsByte [h.link.lostFlag, h.tally, h.tallyChanged,
    h.link.reported && decide (h.link.state = .linked), h.track.servoFault, h.track.localControl,
    h.track.upstream.isSome, h.track.measured.isSome]

/-! ### Codes -/

/-- A source byte (R188), 0xFF when there is no source (R195). -/
def SourceName.byte : SourceName → Byte
  | .shot n => BitVec.ofNat 8 n.val
  | .inline => 0x80#8

def sourceByte : Option SourceName → Byte
  | some s => s.byte
  | none => 0xFF#8

def tagByte : Option Byte → Byte
  | some t => t
  | none => 0xFF#8

def Reason.code : Reason → Byte
  | .malformed => 1 | .unknown => 2 | .range => 3 | .noHead => 4 | .noShot => 5 | .queueFull => 6
  | .halted => 7 | .busy => 8 | .zoneBusy => 9 | .limit => 10 | .onAir => 11 | .capacity => 12
  | .mismatch => 13

def DropReason.code : DropReason → Byte
  | .flushed => 1 | .superseded => 2 | .noShot => 3 | .limit => 4 | .onAir => 5 | .zoneBusy => 6
  | .zoneTimeout => 7

def HaltCause.code : HaltCause → Byte
  | .command => 1 | .follow => 2 | .head => 3 | .lost => 4 | .mismatch => 5 | .range => 6
  | .conflict => 7 | .reset => 8

def UnlinkReason.code : UnlinkReason → Byte
  | .loss => 1 | .map => 2 | .line => 3

def LinkState.code : LinkState → Byte
  | .off => 0 | .probe => 1 | .exchange => 2 | .linked => 3

def Profile.code : Profile → Byte
  | .ease => 0 | .swift => 1

def lineByte : Line → Byte
  | .a => 0 | .b => 1

def PairMode.code : PairMode → Byte
  | .duplex => 0 | .split => 1

def Parity.code : Parity → Byte
  | .none => 0 | .even => 1 | .odd => 2

def ClockState.code : ClockState → Byte
  | .unlocked => 0 | .locked => 1 | .freewheel => 2

def Rotation.code : Rotation → Byte
  | .fixed => 0 | .rotate => 1

def MoveClass.code : MoveClass → Byte
  | .planned => 1 | .priority => 2 | .stop => 3

def StartRule.code : StartRule → Byte
  | .after => 1 | .cuedReplace => 2

/-- The number of a line counter (R191). -/
def LineCounter.code : LineCounter → Nat
  | .sent => 0 | .received => 1 | .bad => 2 | .stale => 3 | .overrun => 4 | .passDrop => 5

/-- The number of a line store (R191). -/
def storeNumber (s : StoreId) : Nat :=
  2 * s.pair.val + (match s.line with | .a => 0 | .b => 1)

/-- The counter byte of COUNTER: the store in the high four bits, the counter in the low four (R191). -/
def CounterId.byte : CounterId → Byte
  | .line st k => BitVec.ofNat 8 (16 * storeNumber st + k.code)
  | .rxOk => 0x40#8 | .rxBad => 0x41#8 | .rxOverrun => 0x42#8
  | .glitch => 0x50#8

end Sys2Proof.Machine
end

