-- ==== Sys2Proof/Machine/Layout.lean ====
section
/-! DEFINITION. The bodies of upstream frames: event records, replies and forwarded reports (R181,
R190 to R192). -/

namespace Sys2Proof.Machine

/-- The detail of an event record (R191). -/
def Event.detail : Event → List Byte
  | .moveStarted src d f => [sourceByte src] ++ enc2 d ++ [f.byte]
  | .moveDone src => [sourceByte src]
  | .moveDropped src why => [sourceByte src, why.code]
  | .moveHeld src r => [sourceByte src] ++ enc2 r
  | .moveResumed src d f n => [sourceByte src] ++ enc2 d ++ [f.byte] ++ encW n
  | .moveSoftened d => enc2 d
  | .zoneWait zs => encW zs
  | .zoneGranted zs t => encW zs ++ enc2 t
  | .headHalted cause => [cause.code]
  | .headLinked mask => [mask.setWidth 8]
  | .headUnlinked why => [why.code]
  | .limitsNarrowed axes =>
    enc1 axes.length ++ axes.flatMap fun a =>
      enc1 (a.1.num + if a.2.isEmpty then 128 else 0) ++ encPos a.2.lo ++ encPos a.2.hi
  | .tally on => [boolByte on]
  | .syncLost => []
  | .syncLocked => []
  | .counter id full => [id.byte, if full then 2#8 else 1#8]
  | .resetDone => []

/-- The body of an event record (R191). -/
def EventRecord.body (r : EventRecord) : List Byte :=
  enc1 r.event.code ++ enc4 r.frame ++
    [r.presence, (r.slot.map fun s => BitVec.ofNat 8 s.val).getD 0#8, r.tag.getD 0#8,
      BitVec.ofNat 8 r.dropped] ++ r.event.detail

/-- The body of a forwarded report (R192). -/
def ForwardedReport.body (r : ForwardedReport) : List Byte :=
  enc4 r.frame ++ [r.echo, r.flags, r.mask.setWidth 8] ++
    r.mask.axes.flatMap fun a => encPos (r.positions.get a)

/-- The outcome byte of an answer and its read data (R190). -/
def Answer.bytes : Answer → List Byte
  | .accepted data => 0#8 :: data
  | .acceptedSettings _ data => 0#8 :: data
  | .refused why => [why.code]

/-- The body of a reply (R190). -/
def Reply.body (r : Reply) : List Byte := r.kind :: r.answer.bytes

/-- The frame in which an item goes upstream (R181). -/
def Upstream.frame : Upstream → PortFrame
  | .reply r => ⟨0#8, kindReply, r.tag, r.body⟩
  | .event e => ⟨0#8, kindEvent, 0#8, e.body⟩
  | .report slot r => ⟨BitVec.ofNat 8 (slot.val + 1), kindReport, 0#8, r.body⟩

/-- The characters that the port is sending, if it is sending a frame (R189). -/
def Port.wire (p : Port) : List Byte := (p.sending.map fun u => u.frame.encode).getD []

end Sys2Proof.Machine
end

