-- ==== Sys2Proof/Machine/Lines.lean ====
section
/-! DEFINITION. The logical lines: placement, capacity, budgets, the per-tick schedule less its
enrolment frame, the Forward Filter and the receiver (R2, R133 to R149). -/

namespace Sys2Proof.Machine

/-! ### Placement and capacity (R2, R134 to R138) -/

/-- The logical line of a head map record on a pair in this mode (R2). -/
def HeadMap.storeUnder (m : HeadMap) (mode : PairMode) : StoreId :=
  match mode with
  | .duplex => ⟨m.pair, .a⟩
  | .split => ⟨m.pair, m.line⟩

/-- The characters of a SETPOINT with positions, and of a REPORT (R136). -/
def HeadMap.frameSize (m : HeadMap) : Nat := 8 + 3 * m.mask.axes.length

/-- Bits of a character (R134). -/
def LineSetup.bits (l : LineSetup) : Nat :=
  10 + (if l.parity = .none then 0 else 1) + (if l.twoStop then 1 else 0)

/-- C of a logical line (R135). -/
def LineSetup.capacity (l : LineSetup) (rate : Fin 8) : Nat :=
  Config.lineClockHz * Config.rateM rate / ((l.divisor + 1) * l.bits * Config.rateN rate)

/-- The stores that are logical lines of a pair in this mode (R133). -/
def pairLines (p : Fin 2) : PairMode → List StoreId
  | .duplex => [⟨p, .a⟩]
  | .split => [⟨p, .a⟩, ⟨p, .b⟩]

namespace Cm8

def setup (c : Cm8) (p : Fin 2) : LineSetup := (c.pair p).setup

/-- The logical line of a slot's record (R2). -/
def lineOf (c : Cm8) (slot : Slot) : StoreId :=
  let m := (c.head slot).map
  m.storeUnder (c.setup m.pair).mode

/-- The configured slots that R2 places on a logical line, ascending. -/
def slotsOn (c : Cm8) (st : StoreId) : List Slot :=
  Slot.all.filter fun i => (c.head i).isConfigured && decide (c.lineOf i = st)

/-- The logical lines of the part. -/
def lines (c : Cm8) : List StoreId :=
  pairLines 0 (c.setup 0).mode ++ pairLines 1 (c.setup 1).mode

/-- C of the lines of a pair (R135). -/
def capacity (c : Cm8) (p : Fin 2) : Nat := (c.setup p).capacity c.clock.rate

/-- Adds up a number over the slots of a line. -/
def sumSlots (c : Cm8) (st : StoreId) (f : HeadMap → Nat) : Nat :=
  (c.slotsOn st).foldl (fun n i => n + f (c.head i).map) 0

/-- One logical line passes the capacity check (R137). -/
def lineFits (c : Cm8) (st : StoreId) : Bool :=
  match (c.setup st.pair).mode with
  | .duplex => decide (c.sumSlots st HeadMap.frameSize ≤ c.capacity st.pair)
  | .split => decide (c.sumSlots st (fun m => 2 * m.frameSize + 2) ≤ c.capacity st.pair)

/-- The capacity check: every logical line with a configured slot passes (R137). -/
def linesFit (c : Cm8) : Bool := c.lines.all fun st => (c.slotsOn st).isEmpty || c.lineFits st

/-- The listen reserve of a logical line, 0 in DUPLEX (R138, R150). -/
def reserve (c : Cm8) (st : StoreId) : Nat :=
  match (c.setup st.pair).mode with
  | .duplex => 0
  | .split => c.sumSlots st fun m => m.frameSize + 2

/-- The send budget of a logical line (R138). -/
def sendBudget (c : Cm8) (st : StoreId) : Nat := c.capacity st.pair - c.reserve st

/-- Another configured slot shares the slot's logical line and line address (R3, R147). -/
def addressTaken (c : Cm8) (i : Slot) : Bool :=
  Slot.all.any fun j =>
    decide (j ≠ i) && (c.head j).isConfigured && decide (c.lineOf j = c.lineOf i) &&
      decide ((c.head j).map.address = (c.head i).map.address)

/-! ### The schedule of a tick (R139, R141) -/

/-- Joins frames to those going out on a line. -/
def place (c : Cm8) (st : StoreId) (fs : List LineFrame) : Cm8 :=
  c.onStore st fun s => { s with outgoing := s.outgoing ++ fs }

end Cm8

/-- A position in head units: the setpoint plus the trim (R7). -/
def Head.outward (h : Head) (a : Axis) : Int := h.setpoint.get a + (h.axes.get a).trim

/-- A new entry joins the history, the oldest leaving a full one first (R165). -/
def pushHistory (l : List HistoryEntry) (e : HistoryEntry) : List HistoryEntry :=
  (if l.length < Config.historyMax then l else l.drop 1) ++ [e]

/-- The SETPOINT frame of a tick for a linked slot (R93, R139, R193). -/
def Head.setpointFrame (h : Head) : LineFrame where
  address := h.map.address
  kind := .setpoint
  body :=
    if h.activity.carriesPositions then
      [h.seq + 1#8, 1#8] ++ h.axisList.flatMap fun a => encPos (h.outward a)
    else [h.seq + 1#8, 0#8]

/-- The history entry of that frame (R165). -/
def Head.setpointEntry (h : Head) : HistoryEntry where
  seq := h.seq + 1#8
  mask := h.map.mask
  positions :=
    if h.activity.carriesPositions then
      some (.gen fun a => if h.configured a then h.outward a else 0)
    else none

/-- The slot's sequence number is advanced and its history receives the frame (R93, R165). -/
def Head.sendSetpoint (h : Head) : Head :=
  { h with seq := h.seq + 1#8, track := { h.track with history := pushHistory h.track.history h.setpointEntry } }

/-- What a tick takes from a PASS queue (R141). -/
structure PassTake where
  sent : List PassFrame
  dropped : Nat
  left : List PassFrame
  deriving DecidableEq, Repr

/-- Takes PASS frames from the head of a queue: `here` says that a slot is LINKED and on the line,
`budget` is the send budget, and the `Int` is what is left of it (R141). -/
def takePass (here : Slot → Bool) (budget : Nat) : Int → List PassFrame → PassTake
  | _, [] => ⟨[], 0, []⟩
  | room, f :: fs =>
    if !here f.slot || decide (budget < 6 + f.body.length) then
      let t := takePass here budget room fs
      { t with dropped := t.dropped + 1 }
    else if (6 + f.body.length : Int) ≤ room then
      let t := takePass here budget (room - (6 + f.body.length : Int)) fs
      { t with sent := f :: t.sent }
    else ⟨[], 0, f :: fs⟩

namespace Cm8

/-- The slot is LINKED and on this line. -/
def linkedOn (c : Cm8) (st : StoreId) (i : Slot) : Bool :=
  (c.head i).isLinked && (c.head i).isConfigured && decide (c.lineOf i = st)

/-- Part 1 of the schedule for one slot. -/
def placeSetpoint (st : StoreId) (c : Cm8) (i : Slot) : Cm8 :=
  (c.place st [(c.head i).setpointFrame]).onHead i Head.sendSetpoint

/-- Part 1 of the schedule: one SETPOINT frame for each LINKED slot, ascending. -/
def placeSetpoints (c : Cm8) (st : StoreId) : Cm8 :=
  ((c.slotsOn st).filter fun i => (c.head i).isLinked).foldl (placeSetpoint st) c

/-- The head line frame of a PASS frame (R141). -/
def passLineFrame (c : Cm8) (f : PassFrame) : LineFrame :=
  ⟨(c.head f.slot).map.address, .pass, f.body⟩

/-- Part 3 of the schedule. -/
def placePass (c : Cm8) (st : StoreId) (room : Int) : Cm8 :=
  let t := takePass (c.linkedOn st) (c.sendBudget st) room (c.store st).pass
  ((c.onStore st fun s => { s with pass := t.left }).place st (t.sent.map c.passLineFrame)).bumps
    (.line st .passDrop) t.dropped

/-- Characters of a list of frames. -/
def chars (fs : List LineFrame) : Nat := (fs.map LineFrame.size).sum

/-! ### The Forward Filter (R143) -/

/-- The six tests: the frame is discarded. -/
def directFails (c : Cm8) (slot : Slot) (body : List Byte) : Bool :=
  let h := c.head slot
  let st := c.lineOf slot
  match body with
  | [] => true
  | cls :: _ =>
    !h.isLinked || decide (Config.passBodyMax < body.length) || decide (cls = 0#8) ||
      decide (8 ≤ cls.toNat) || !h.forward.classes.getLsbD cls.toNat ||
      decide (c.sendBudget st < 6 + body.length) ||
      decide (Config.passQueueMax ≤ (c.store st).pass.length)

/-- The Forward Filter on a direct frame (R143). -/
def filterDirect (c : Cm8) (slot : Slot) (body : List Byte) : Cm8 :=
  let st := c.lineOf slot
  if c.directFails slot body then c.bump (.line st .passDrop)
  else c.onStore st fun s => { s with pass := s.pass ++ [⟨slot, body⟩] }

/-! ### Reception (R144, R145) -/

/-- The mode in force on the wires of a pair (R148). -/
def wireMode (c : Cm8) (p : Fin 2) : PairMode := (c.pair p).inForce.mode

/-- The line can receive: it is a line of its pair, and a SPLIT line is not sending (R133, R144). -/
def receives (c : Cm8) (st : StoreId) : Bool :=
  match c.wireMode st.pair with
  | .duplex => decide (st.line = .a)
  | .split => (c.store st).outgoing.isEmpty

/-- The configured slot that answers to a line address on the receiving line (R145). DESIGN CHOICE (log entry
23): where a LINE SET to SPLIT that waits for its tick and a HEADMAP SET after it have given one address
to two slots that are still on one wire, it is the lowest of them. -/
def slotAt (c : Cm8) (st : StoreId) (address : Byte) : Option Slot :=
  Slot.all.find? fun i =>
    let h := c.head i
    h.isConfigured && decide (h.map.storeUnder (c.wireMode h.map.pair) = st) &&
      decide (h.map.address = address)

/-- A frame in progress is discarded and counted in BAD (R144, R145). -/
def lineBad (c : Cm8) (st : StoreId) : Cm8 :=
  if c.receives st then c.bump (.line st .bad) else c

end Cm8

end Sys2Proof.Machine
end

