-- ==== Sys2Proof/Machine/Operands.lean ====
section
/-! DEFINITION. The operand forms of the commands: the fields of their bodies (R194). `none` says that
the body's length does not agree with the fields it declares (MALFORMED, R179). -/

namespace Sys2Proof.Machine

/-! ### Codes (R194) -/

def slotOf (b : Byte) : Option Slot := if h : b.toNat < 8 then some ⟨b.toNat, h⟩ else none

def shotOf (b : Byte) : Option (Fin 64) := if h : b.toNat < 64 then some ⟨b.toNat, h⟩ else none

def zoneOf (b : Byte) : Option Zone := if h : b.toNat < 16 then some ⟨b.toNat, h⟩ else none

def pairOf (b : Byte) : Option (Fin 2) := if h : b.toNat < 2 then some ⟨b.toNat, h⟩ else none

def rateOf (b : Byte) : Option (Fin 8) := if h : b.toNat < 8 then some ⟨b.toNat, h⟩ else none

def axisOf (b : Byte) : Option Axis := Axis.ofNum b.toNat

/-- An axis mask that names no axis number above 5. -/
def maskOf (b : Byte) : Option AxisMask :=
  if b.toNat < 64 then some (b.setWidth 6) else none

def lineOfCode (b : Byte) : Option Line :=
  if b = 0#8 then some .a else if b = 1#8 then some .b else none

def profileOf (b : Byte) : Option Profile :=
  if b = 0#8 then some .ease else if b = 1#8 then some .swift else none

/-- The three modes of a call (R194). -/
inductive CallMode where
  | append | replace | priority
  deriving DecidableEq, Repr

def modeOf (b : Byte) : Option CallMode :=
  if b = 0#8 then some .append else if b = 1#8 then some .replace
  else if b = 2#8 then some .priority else none

def pairModeOf (b : Byte) : Option PairMode :=
  if b = 0#8 then some .duplex else if b = 1#8 then some .split else none

def parityOf (b : Byte) : Option Parity :=
  if b = 0#8 then some .none else if b = 1#8 then some .even
  else if b = 2#8 then some .odd else none

/-- A switch of two codes: 0 off or the first value, 1 on or the second. -/
def switchOf (b : Byte) : Option Bool :=
  if b = 0#8 then some false else if b = 1#8 then some true else none

/-- A number inside a range, both ends included. -/
def within (lo hi n : Nat) : Bool := decide (lo ≤ n ∧ n ≤ hi)

def withinInt (lo hi n : Int) : Bool := decide (lo ≤ n ∧ n ≤ hi)

/-! ### Lists that follow a count byte -/

/-- Pairs of an axis byte and a signed three-byte value. -/
def axisPairs : List Byte → Option (List (Byte × Int))
  | [] => some []
  | a :: b2 :: b1 :: b0 :: rest => (axisPairs rest).map fun ps => (a, be3 b2 b1 b0) :: ps
  | _ => none

/-- A list whose length is the declared count. -/
def counted {α : Type} (n : Byte) (l : Option (List α)) : Option (List α) :=
  l.filter fun xs => xs.length = n.toNat

/-- Axis numbers that rise strictly, each above `lo`. -/
def ascendingFrom (lo : Int) : List (Byte × Int) → Bool
  | [] => true
  | p :: ps => decide (lo < p.1.toNat) && ascendingFrom p.1.toNat ps

/-- The pairs with their axes named; none when an axis byte names no axis. -/
def nameAxes : List (Byte × Int) → Option (List (Axis × Int))
  | [] => some []
  | p :: ps =>
    match axisOf p.1, nameAxes ps with
    | some a, some rest => some ((a, p.2) :: rest)
    | _, _ => none

/-- A list of configured axes in strictly ascending order; none for RANGE (R20 steps 4 and 5, R86). -/
def axisList (mask : AxisMask) (ps : List (Byte × Int)) : Option (List (Axis × Int)) :=
  if ascendingFrom (-1) ps then
    (nameAxes ps).filter fun l => l.all fun t => mask.getLsbD t.1.num
  else none

/-- The target list of a shot or an inline call: one to six pairs (R20 steps 3 to 5, R24). -/
def targetList (mask : AxisMask) (ps : List (Byte × Int)) : Option (List (Axis × Int)) :=
  if within 1 6 ps.length then axisList mask ps else none

/-- The trims of TRIM SET: one to six pairs with distinct axes and values in range (R8 step 1). -/
def trimList (ps : List (Byte × Int)) : Option (List (Axis × Int)) :=
  if within 1 6 ps.length then
    (nameAxes ps).filter fun l =>
      decide (l.map Prod.fst).Nodup && l.all fun t => withinInt (-1048576) 1048575 t.2
  else none

/-- The velocities of JOG: at most six pairs, each from −65 535 to 65 535 (R86). -/
def jogList (mask : AxisMask) (ps : List (Byte × Int)) : Option (List (Axis × Int)) :=
  if ps.length ≤ 6 then
    (axisList mask ps).filter fun l => l.all fun t => withinInt (-65535) 65535 t.2
  else none

/-! ### Zone map entries (R110) -/

/-- An entry as its bytes give it. -/
structure RawZone where
  slot : Byte
  zone : Byte
  low : Int
  high : Int
  deriving DecidableEq, Repr

/-- The entries of ZONEMAP SET; 0xFF marks an empty one. -/
def rawZones : List Byte → Option (List (Option RawZone))
  | [] => some []
  | b :: rest =>
    if b = 0xFF#8 then (rawZones rest).map fun es => none :: es
    else
      match rest with
      | z :: l2 :: l1 :: l0 :: h2 :: h1 :: h0 :: rest' =>
        (rawZones rest').map fun es => some ⟨b, z, be3 l2 l1 l0, be3 h2 h1 h0⟩ :: es
      | _ => none

/-- A checked entry (R110 step 3). -/
def zoneEntry (r : RawZone) : Option ZoneEntry :=
  match slotOf r.slot, zoneOf r.zone with
  | some s, some z => if r.high < r.low then none else some ⟨s, z, ⟨r.low, r.high⟩⟩
  | _, _ => none

/-- All entries checked; none for RANGE. -/
def zoneEntries : List (Option RawZone) → Option (List (Option ZoneEntry))
  | [] => some []
  | none :: es => (zoneEntries es).map fun l => none :: l
  | some r :: es =>
    match zoneEntry r, zoneEntries es with
    | some e, some l => some (some e :: l)
    | _, _ => none

/-! ### The optional fields of a call (R47, R194) -/

structure CallOptions where
  cue : Option (BitVec 32)
  duration : Option Nat
  profile : Option Byte
  deriving DecidableEq, Repr

/-- The cue, when bit 0 of the presence byte is set. -/
def takeCue (presence : Byte) (body : List Byte) : Option (Option (BitVec 32) × List Byte) :=
  if presence.getLsbD 0 then
    match body with
    | b3 :: b2 :: b1 :: b0 :: rest => some (some (be4 b3 b2 b1 b0), rest)
    | _ => none
  else some (none, body)

/-- The duration override, when bit 1 is set. -/
def takeDuration (presence : Byte) (body : List Byte) : Option (Option Nat × List Byte) :=
  if presence.getLsbD 1 then
    match body with
    | b1 :: b0 :: rest => some (some (be2 b1 b0), rest)
    | _ => none
  else some (none, body)

/-- The profile override, when bit 2 is set. -/
def takeProfile (presence : Byte) (body : List Byte) : Option (Option Byte × List Byte) :=
  if presence.getLsbD 2 then
    match body with
    | b :: rest => some (some b, rest)
    | _ => none
  else some (none, body)

/-- The optional fields that a presence byte names, and what follows them. -/
def takeOptions (presence : Byte) (body : List Byte) : Option (CallOptions × List Byte) :=
  match takeCue presence body with
  | none => none
  | some (cue, r1) =>
    match takeDuration presence r1 with
    | none => none
    | some (duration, r2) =>
      match takeProfile presence r2 with
      | none => none
      | some (profile, r3) => some (⟨cue, duration, profile⟩, r3)

/-- The overrides are in range (R47 step 2): the profile override as a profile. -/
def CallOptions.checked (o : CallOptions) : Option (Option Profile) :=
  if o.duration.all (within 1 Config.durationMax) then
    match o.profile with
    | none => some none
    | some b => (profileOf b).map some
  else none

end Sys2Proof.Machine
end

