-- ==== Sys2Proof/Machine/Enrol.lean ====
section
/-! DEFINITION. The enrolment engine: restart, pages, the enrolment frame of a tick, entry into LINKED,
page timeout and link loss (R140, R151 to R163). -/

namespace Sys2Proof.Machine

namespace Head

/-- Discards the head ranges of every axis (R12). -/
def dropRanges (h : Head) : Head :=
  { h with axes := .gen fun a => { h.axes.get a with headRange := none } }

end Head

namespace Link

/-- The engine restarted in PROBE (R151); the link-lost latched flag stays. -/
def restarted (l : Link) : Link :=
  { Link.reset with state := .probe, pending := .probe, lostFlag := l.lostFlag }

/-- The engine restarted in OFF, for an empty mask (R151). -/
def switchedOff (l : Link) : Link := { Link.reset with lostFlag := l.lostFlag }

/-- Back to PROBE after a failed page or a page timeout (R155, R156). -/
def backToProbe (l : Link) : Link :=
  { l with
    state := .probe, pending := .probe, pages := 0, toggle := none, headMask := none,
    gathered := .const none, pageTimer := none }

end Link

/-! ### Pages (R153 to R155, R193) -/

/-- Bit 0 of a toggle or more byte; the other bits are not read (R193). -/
def lowBit (b : Byte) : Bool := b.getLsbD 0

/-- The page 0 checks of R154 on a whole PAGE body: the head axis mask it gives. -/
def page0Mask (body : List Byte) : Option AxisMask :=
  match body with
  | [_, _, more, mask] =>
    (maskOf mask).filter fun m => lowBit more = decide (m ≠ 0#6)
  | _ => none

/-- The checks of R154 on page i of a head with this mask: the axis and range it gives. -/
def pageRange (headMask : AxisMask) (i : Nat) (body : List Byte) : Option (Axis × Span) :=
  match body with
  | [_, _, more, axis, l2, l1, l0, h2, h1, h0] =>
    let axes := headMask.axes
    match axes[i - 1]? with
    | none => none
    | some a =>
      let r : Span := ⟨be3 l2 l1 l0, be3 h2 h1 h0⟩
      if axis.toNat = a.num && !r.isEmpty && (lowBit more = decide (i < axes.length)) then some (a, r)
      else none
  | _ => none

namespace Link

/-- A page 0 that passes begins an exchange (R153, R155). -/
def begin0 (l : Link) (toggle : Bool) (mask : AxisMask) : Link :=
  { l with
    state := .exchange, pending := .pageAck 0#8 toggle true, pages := 1, toggle := some toggle,
    headMask := some mask, gathered := .const none, pageTimer := none }

/-- A next page that passes (R155). -/
def accept (l : Link) (page : Byte) (toggle : Bool) (r : Axis × Span) : Link :=
  { l with
    pending := .pageAck page toggle true, pages := l.pages + 1, toggle := some toggle,
    gathered := l.gathered.set r.1 (some r.2), pageTimer := none }

/-- A PAGE for a slot in PROBE (R153). -/
def takeInProbe (l : Link) (body : List Byte) : Link :=
  match body with
  | page :: toggle :: _ =>
    if page = 0#8 then
      match page0Mask body with
      | some m => l.begin0 (lowBit toggle) m
      | none => l
    else l
  | _ => l

/-- The pages a head with this mask sends after page 0: one for each axis (R154). -/
def lastPage (l : Link) : Nat := ((l.headMask.getD 0#6).axes).length

/-- The last page of the exchange has been accepted (R155). -/
def lastAccepted (l : Link) : Bool := decide (l.pages = l.lastPage + 1)

/-- A new page for a slot in EXCHANGE (R155). One that arrives after the last page has been accepted
fails, a page 0 too (log entry 18). -/
def takeNew (l : Link) (page toggle : Byte) (body : List Byte) : Link :=
  if l.lastAccepted then l.backToProbe
  else if page = 0#8 then
    match page0Mask body with
    | some m => l.begin0 (lowBit toggle) m
    | none => l.backToProbe
  else if page.toNat = l.pages then
    match pageRange (l.headMask.getD 0#6) page.toNat body with
    | some r => l.accept page (lowBit toggle) r
    | none => l.backToProbe
  else l.backToProbe

/-- A PAGE for a slot in EXCHANGE (R155). A body too short to hold a page number and a toggle fails. -/
def takeInExchange (l : Link) (body : List Byte) : Link :=
  match body with
  | page :: toggle :: _ =>
    if l.toggle = some (lowBit toggle) then
      { l with pending := .pageAck page (lowBit toggle) false }
    else l.takeNew page toggle body
  | _ => l.backToProbe

/-- A PAGE by link state (R152). -/
def takePage (l : Link) (body : List Byte) : Link :=
  match l.state with
  | .probe => l.takeInProbe body
  | .exchange => l.takeInExchange body
  | .off => l
  | .linked => l

/-- The acknowledgement of this page is that of the last page (R155, R156). -/
def acksLast (l : Link) (page : Byte) : Bool :=
  decide (page.toNat = l.lastPage) && l.lastAccepted

end Link

/-! ### The enrolment frame of a tick (R140, R153, R156) -/

/-- Bodies of PROBE and PAGE_ACK (R193). -/
def probeBody (rate : Fin 8) (mask : AxisMask) (lossTicks : Nat) : List Byte :=
  [1#8, BitVec.ofNat 8 rate.val, mask.setWidth 8, BitVec.ofNat 8 lossTicks]

def ackBody (page : Byte) (toggle : Bool) : List Byte := [page, boolByte toggle]

namespace Cm8

/-- The enrolment frame that a slot has pending (R151). -/
def enrolFrame (c : Cm8) (i : Slot) : Option LineFrame :=
  let h := c.head i
  match h.link.pending with
  | .none => none
  | .probe =>
    some ⟨h.map.address, .probe, probeBody c.clock.rate h.map.mask (c.setup h.map.pair).lossTicks⟩
  | .pageAck page toggle _ => some ⟨h.map.address, .pageAck, ackBody page toggle⟩

/-- The first slot in cyclic order after the round-robin position that is on the line and has an
enrolment frame pending (R140). -/
def nextEnrol (c : Cm8) (st : StoreId) : Option Slot :=
  let rr := (c.store st).roundRobin
  (Slot.all.map fun i => rr + 1 + i).find? fun i =>
    (c.slotsOn st).contains i && (c.enrolFrame i).isSome

/-! ### Entry into LINKED (R157, R158) -/

/-- The configured axes that a change of layers narrowed, with their new working intervals (R157). -/
def narrowedAxes (old new : Head) : List (Axis × Span) :=
  (new.axisList.filter fun a =>
    decide ((old.working a).lo < (new.working a).lo) ||
      decide ((new.working a).hi < (old.working a).hi)).map fun a => (a, new.working a)

/-- The configured mask names an axis that the head lacks (R157 step 5). -/
def lacksAxis (h : Head) (headMask : AxisMask) : Bool :=
  h.axisList.any fun a => !headMask.getLsbD a.num

/-- The cause that a HALTED head takes on entry into LINKED (R158). -/
def reviewedCause (lacks : Bool) (cause : HaltCause) : HaltCause :=
  if lacks then .mismatch else if cause = .mismatch then .lost else cause

/-- Step 1 and 2 of R157 on a head's record. -/
def linkHead (h : Head) (mask : AxisMask) : Head :=
  { h with
    link := { h.link with state := .linked, pending := .none, pageTimer := none, loss := 0,
                          reported := false },
    axes := .gen fun a =>
      { h.axes.get a with
        headRange := if mask.getLsbD a.num then h.link.gathered.get a else none } }

/-- The halts and the re-evaluation of the entry (R157 steps 5 and 6, R158). -/
def linkHalts (c : Cm8) (i : Slot) (mask : AxisMask) : Cm8 :=
  let h := c.head i
  match h.activity with
  | .halted cause => c.setActivity i (.halted (reviewedCause (lacksAxis h mask) cause))
  | _ =>
    let c := if lacksAxis h mask then c.haltRequest i .mismatch else c
    if h.anyEmpty then c.haltRequest i .range else c

/-- Entry into LINKED (R157). -/
def enterLinked (c : Cm8) (i : Slot) : Cm8 :=
  let old := c.head i
  let mask := old.link.headMask.getD 0#6
  let new := linkHead old mask
  let c := (c.setHead i new).post (some i) none (.headLinked mask)
  let narrowed := narrowedAxes old new
  let c := if narrowed.isEmpty then c else c.post (some i) none (.limitsNarrowed narrowed)
  c.linkHalts i mask

/-- The slot's pending frame has been placed in the schedule (R153, R156). -/
def enrolPlaced (c : Cm8) (i : Slot) : Cm8 :=
  let l := (c.head i).link
  match l.pending with
  | .pageAck page _ fresh =>
    if l.acksLast page then c.enterLinked i
    else
      c.onHead i fun h =>
        { h with link := { h.link with pending := .none,
                                       pageTimer := if fresh then some 0 else h.link.pageTimer } }
  | _ => c

/-- Part 2 of the schedule: the line after it and the room that is left (R140). -/
def placeEnrol (c : Cm8) (st : StoreId) (room : Int) : Cm8 × Int :=
  match c.nextEnrol st with
  | none => (c, room)
  | some i =>
    match c.enrolFrame i with
    | none => (c, room)
    | some f =>
      if (f.size : Int) ≤ room then
        (((c.place st [f]).onStore st fun s => { s with roundRobin := i }).enrolPlaced i,
          room - f.size)
      else (c, room)

/-! ### Timers of a tick (R156, R160) -/

/-- The page timer of a slot at a tick: advanced, and at 16 ticks back to PROBE (R156). -/
def pageStep (c : Cm8) (i : Slot) : Cm8 :=
  match (c.head i).link.pageTimer with
  | none => c
  | some t =>
    if Config.pageTimeoutTicks ≤ t + 1 then
      c.onHead i fun h => { h with link := h.link.backToProbe }
    else c.onHead i fun h => { h with link := { h.link with pageTimer := some (t + 1) } }

/-- The link of a slot is lost (R160). -/
def loseLink (c : Cm8) (i : Slot) : Cm8 :=
  (((c.haltRequest i .lost).onHead i fun h =>
    { h.dropRanges with link := { h.link.restarted with lostFlag := true } }).post
      (some i) none (.headUnlinked .loss))

/-- The loss tick counter of a slot reaches the link loss ticks at this step (R160). -/
def lossDue (c : Cm8) (i : Slot) : Bool :=
  let h := c.head i
  h.isLinked && decide ((c.setup h.map.pair).lossTicks ≤ h.link.loss + 1)

/-- The loss tick counter of a slot at a tick (R160). -/
def lossStep (c : Cm8) (i : Slot) : Cm8 :=
  if c.lossDue i then c.loseLink i
  else if (c.head i).isLinked then
    c.onHead i fun h => { h with link := { h.link with loss := h.link.loss + 1 } }
  else c

end Cm8

end Sys2Proof.Machine
end

