-- ==== Sys2Proof/Machine/Reports.lean ====
section
/-! DEFINITION. Reports: the first report, overrun, matching, the following check and forwarding (R85,
R145, R159, R164 to R173). -/

namespace Sys2Proof.Machine

/-- A REPORT as its body gives it, with the measured positions in head units (R193). -/
structure Report where
  echo : Byte
  servoFault : Bool
  localControl : Bool
  measured : PerAxis Int
  deriving DecidableEq, Repr

/-- Reads three-byte positions for the axes of a list; 0 stands for an axis not in it. -/
def readPositions : List Axis → List Byte → PerAxis Int → Option (PerAxis Int)
  | [], [], t => some t
  | a :: as, b2 :: b1 :: b0 :: rest, t => readPositions as rest (t.set a (be3 b2 b1 b0))
  | _, _, _ => none

/-- The report in a body of the right size for the slot's mask (R145, R193). -/
def readReport (mask : AxisMask) (body : List Byte) : Option Report :=
  match body with
  | echo :: status :: rest =>
    (readPositions mask.axes rest (.const 0)).map fun t =>
      ⟨echo, status.getLsbD 0, status.getLsbD 1, t⟩
  | _ => none

namespace Head

/-- A measured head unit position in studio units, with the trim in force (R7). -/
def inward (h : Head) (t : PerAxis Int) (a : Axis) : Int := t.get a - (h.axes.get a).trim

/-- The setpoint of each configured axis becomes the measured position less the trim (R84, R85). -/
def adopt (h : Head) (t : PerAxis Int) : Head :=
  { h with setpoint := .gen fun a => if h.configured a then h.inward t a else h.setpoint.get a }

/-- The previous setpoint of each configured axis becomes the setpoint. -/
def settleSetpoint (h : Head) : Head :=
  { h with previous := .gen fun a => if h.configured a then h.setpoint.get a else h.previous.get a }

/-- An axis exceeds its follow limit (R168). -/
def exceeds (h : Head) (want got : PerAxis Int) : Bool :=
  h.axisList.any fun a => decide ((h.axes.get a).followLimit < (want.get a - got.get a).natAbs)

def onTrack (h : Head) (f : Tracker → Tracker) : Head := { h with track := f h.track }

end Head

namespace Cm8

def onTrack (c : Cm8) (i : Slot) (f : Tracker → Tracker) : Cm8 := c.onHead i fun h => h.onTrack f

/-! ### The first report (R85) -/

/-- The first valid report of an OFFLINE head (R85). -/
def firstReport (c : Cm8) (i : Slot) (r : Report) : Cm8 :=
  let c := c.onHead i fun h => (h.adopt r.measured).settleSetpoint
  if !(c.head i).insideLimits then c.haltRequest i .range
  else if c.conflicted i then c.haltRequest i .conflict
  else (c.giveFree i (c.residentZones i)).toFree i

/-! ### Matching and following (R166, R168) -/

/-- The history entry that a report answers; none when it is stale (R166). -/
def matching (h : Head) (r : Report) : Option HistoryEntry :=
  h.track.history.find? fun e => e.seq = r.echo

/-- The positions to compare with, when the following check is made (R168). -/
def checkAgainst (h : Head) (r : Report) (e : HistoryEntry) : Option (PerAxis Int) :=
  if e.mask = h.map.mask && !h.activity.isHalted && !h.activity.isOffline && !r.localControl then
    e.positions
  else none

/-- The run after the following check; it never exceeds 8 (R168, log entry 31). -/
def followRun (h : Head) (r : Report) (want : PerAxis Int) : Nat :=
  if h.exceeds want r.measured then min (h.track.run + 1) Config.followRunMax else 0

/-- Step 4 of R167. DESIGN CHOICE (log entry 35): a report with local control set makes the run 0 on a HALTED
head too, although R168 also says that the run of a halted head stays as it stands. -/
def followStep (c : Cm8) (i : Slot) (r : Report) : Cm8 :=
  let h := c.head i
  let clearLocal (c : Cm8) : Cm8 :=
    if r.localControl then c.onTrack i fun t => { t with run := 0 } else c
  match matching h r with
  | none => clearLocal (c.bump (.line (c.lineOf i) .stale))
  | some e =>
    match checkAgainst h r e with
    | none => clearLocal c
    | some want =>
      let run := followRun h r want
      let c := c.onTrack i fun t => { t with run := run }
      if h.exceeds want r.measured && decide (h.followCount ≤ run) then c.haltRequest i .follow
      else c

/-! ### Forwarding (R172, R173) -/

/-- The report is placed in the upstream report slot (R173). -/
def placeReport (c : Cm8) (i : Slot) (r : Report) (stale : Bool) : Cm8 :=
  let h := c.head i
  c.onTrack i fun t =>
    { t with
      upstream := some
        { frame := c.frame, echo := r.echo, servoFault := r.servoFault,
          localControl := r.localControl, stale := stale, superseded := t.upstream.isSome,
          mask := h.map.mask,
          positions := .gen fun a => if h.configured a then h.inward r.measured a else 0 } }

/-- The first report of an interval is offered for forwarding, and the interval flag is set (R170,
R172). -/
def offerReport (c : Cm8) (i : Slot) (r : Report) (stale : Bool) (savedRun : Nat) : Cm8 :=
  let d := (c.head i).forward.decimation
  let n := (c.head i).track.decimation + 1
  let mark (c : Cm8) (forwarded : Bool) : Cm8 :=
    c.onTrack i fun t => { t with interval := some ⟨savedRun, forwarded⟩ }
  if d = 0 then mark c false
  else if d ≤ n then mark ((c.onTrack i fun t => { t with decimation := 0 }).placeReport i r stale) true
  else mark (c.onTrack i fun t => { t with decimation := n }) false

/-! ### Taking a report (R159, R167, R171) -/

/-- Steps 2 and 3 of R167. -/
def storeReport (c : Cm8) (i : Slot) (r : Report) : Cm8 :=
  let c := c.onTrack i fun t =>
    { t with measured := some r.measured, servoFault := r.servoFault,
             localControl := r.localControl }
  if r.servoFault then c.haltRequest i .head else c

/-- The Report Tracker takes the first report of an interval (R167, R170). -/
def trackFirst (c : Cm8) (i : Slot) (r : Report) : Cm8 :=
  let saved := (c.head i).track.run
  let c := c.storeReport i r
  let stale := (matching (c.head i) r).isNone
  (c.followStep i r).offerReport i r stale saved

/-- The Report Tracker takes an overrun report (R171). The run goes back to the saved value in every case
(log entry 19). DESIGN CHOICE (log entry 31): it does so after a CLEAR taken within the interval too, which
had set the run to 0 (R84), and (log entry 35) on a HALTED head, whose run R168 says stays as it stands. -/
def trackOverrun (c : Cm8) (i : Slot) (r : Report) (flag : IntervalFlag) : Cm8 :=
  let c := (c.bump (.line (c.lineOf i) .overrun)).storeReport i r
  let c := c.onTrack i fun t => { t with run := flag.savedRun }
  let stale := (matching (c.head i) r).isNone
  let c := c.followStep i r
  if flag.forwarded then c.placeReport i r stale else c

/-- The Report Tracker takes a report (R167). -/
def trackReport (c : Cm8) (i : Slot) (r : Report) : Cm8 :=
  match (c.head i).track.interval with
  | none => c.trackFirst i r
  | some flag => c.trackOverrun i r flag

/-- A valid report of a LINKED slot (R159). -/
def linkedReport (c : Cm8) (i : Slot) (r : Report) : Cm8 :=
  let first := (c.head i).activity.isOffline && !(c.head i).link.reported
  let c := c.onHead i fun h => { h with link := { h.link with loss := 0, reported := true } }
  (if first then c.firstReport i r else c).trackReport i r

/-- A REPORT that arrives on a line (R145, R152, R159). -/
def arriveReport (c : Cm8) (st : StoreId) (address : Byte) (body : List Byte) : Cm8 :=
  if c.receives st then
    match c.slotAt st address with
    | none => c.bump (.line st .bad)
    | some i =>
      match readReport (c.head i).map.mask body with
      | none => c.bump (.line st .bad)
      | some r =>
        let c := c.bump (.line st .received)
        if (c.head i).isLinked then c.linkedReport i r else c
  else c

/-- A PAGE that arrives on a line (R145, R152). -/
def arrivePage (c : Cm8) (st : StoreId) (address : Byte) (body : List Byte) : Cm8 :=
  if c.receives st then
    match c.slotAt st address with
    | none => c.bump (.line st .bad)
    | some i =>
      (c.bump (.line st .received)).onHead i fun h => { h with link := h.link.takePage body }
  else c

end Cm8

end Sys2Proof.Machine
end

