-- ==== Sys2Proof/Machine/Schedule.lean ====
section
/-! DEFINITION. The per-tick transmit schedule of a logical line (R139 to R141, R144). -/

namespace Sys2Proof.Machine

/-- The characters of the frame going out that have gone out: never more than the frame has. -/
def goneOut (out : List LineFrame) (sent : Nat) : Nat := min sent ((out.head?.map LineFrame.size).getD 0)

namespace Cm8

/-- A SPLIT line that was receiving begins to send: the frame being received is discarded and counted
in BAD (R144). A LINE SET that takes effect at this tick discards it uncounted (R148). -/
def cutReception (before : LineStore) (c : Cm8) (st : StoreId) (receiving relined : Bool) : Cm8 :=
  if decide (c.wireMode st.pair = .split) && before.outgoing.isEmpty &&
      (receiving || before.incoming.isSome) && !relined && !(c.store st).outgoing.isEmpty then
    (c.onStore st fun s => { s with incoming := none }).bump (.line st .bad)
  else c

/-- The schedule of a line at a tick: SETPOINT frames whatever the budget, at most one enrolment frame,
then PASS frames (R139). `sent` counts the characters of the frame going out already sent. -/
def formSchedule (c : Cm8) (st : StoreId) (sent : Nat) (receiving relined : Bool) : Cm8 :=
  let before := c.store st
  let c := c.placeSetpoints st
  let room : Int :=
    (c.sendBudget st : Int) - ((chars (c.store st).outgoing : Int) - goneOut before.outgoing sent)
  let e := c.placeEnrol st room
  let c := e.1.placePass st e.2
  cutReception before c st receiving relined

end Cm8

end Sys2Proof.Machine
end

