-- ==== Sys2Proof/Machine/Upstream.lean ====
section
/-! DEFINITION. The transmit arbiter of the program port (R180). -/

namespace Sys2Proof.Machine.Cm8

/-- The next slot in cyclic order after the last slot served that holds a forwarded report (R180). -/
def nextReport (c : Cm8) : Option (Slot × ForwardedReport) :=
  (Slot.all.map fun i => c.port.lastServed + 1 + i).findSome? fun i =>
    (c.head i).track.upstream.map fun r => (i, r)

/-- One choice of the arbiter: the oldest reply, else the oldest event record, else one forwarded
report; the item leaves its store (R180). -/
def choose (c : Cm8) : Cm8 :=
  match c.port.replies with
  | r :: rs => { c with port := { c.port with replies := rs, sending := some (.reply r) } }
  | [] =>
    match c.events.queue with
    | e :: es =>
      { c with
        port := { c.port with sending := some (.event e) },
        events := { c.events with queue := es } }
    | [] =>
      match c.nextReport with
      | some (i, r) =>
        { (c.onHead i fun h => { h with track := { h.track with upstream := none } }) with
          port := { c.port with lastServed := i, sending := some (.report i r) } }
      | none => { c with port := { c.port with sending := none } }

/-- When nothing is being sent the arbiter chooses as soon as something is ready (R180, log entry 4). -/
def chooseIdle (c : Cm8) : Cm8 :=
  match c.port.sending with
  | some _ => c
  | none => c.choose

end Sys2Proof.Machine.Cm8
end

