-- ==== Sys2Proof/Machine/Tick.lean ====
section
/-! DEFINITION. The tick: what it does at once, the work it owes, and the running of that work (R16,
R30, R50, R122, R160, R170; log entry 1). -/

namespace Sys2Proof.Machine

/-- F after a tick (R30 step 1, R39). -/
def nextFrame (f : BitVec 32) : Option TimeChange → BitVec 32
  | none => f + 1#32
  | some (.set v) => v
  | some (.slew s) => f + 1#32 + s

/-- What a tick meets on a line. -/
def lineInput (inputs : TickInputs) (st : StoreId) : LineInput :=
  match st.pair, st.line with
  | 0, .a => inputs.line0A
  | 0, .b => inputs.line0B
  | 1, .a => inputs.line1A
  | 1, .b => inputs.line1B

/-- The piece of work that a turn stands for. -/
def workOf : Turn → Work
  | .timer i => .timer i
  | .motion i => .motion i
  | .queue i => .queue i
  | .soften i => .soften i
  | .pass => .pass
  | .page i => .page i
  | .link i => .link i

/-- The first piece comes before the second by rule: a head's setpoint before its queue (R51), both before
its softening (R76), and the timer steps before the pass (R122). -/
def Work.precedes : Work → Work → Bool
  | .motion i, .queue j => i = j
  | .motion i, .soften j => i = j
  | .queue i, .soften j => i = j
  | .timer _, .pass => true
  | _, _ => false

/-- Brings a piece of the work ahead, with what comes before it by rule: `done` is ahead already. -/
def bringAhead (done rest : List Work) (w : Work) : List Work × List Work :=
  let first (v : Work) : Bool := v = w || v.precedes w
  if rest.contains w then (done ++ rest.filter first, rest.filter fun v => !first v) else (done, rest)

/-- The work of a tick with the pieces that are asked for ahead of the others, in that order (R128). -/
def arrange (order : List Turn) (ws : List Work) : List Work :=
  let r := order.foldl (fun a t => bringAhead a.1 a.2 (workOf t)) ([], ws)
  r.1 ++ r.2

/-- The line setup of a pair takes effect on its wires; when a LINE SET brought it, a frame being received
is discarded without a count (R148). -/
def Pair.reline (p : Pair) : Pair :=
  let p := { p with inForce := p.setup }
  if p.relined then
    { p with
      relined := false,
      storeA := { p.storeA with incoming := none }, storeB := { p.storeB with incoming := none } }
  else p

namespace Cm8

/-- The timebase clock has reached this instant. -/
def reach (c : Cm8) (instant : Nat) : Cm8 :=
  { c with clock := { c.clock with now := max c.clock.now instant } }

/-- Steps 1 and 2 of R30. -/
def countFrame (c : Cm8) (instant : Nat) : Cm8 :=
  let c := c.reach instant
  { c with
    clock := { c.clock with frame := nextFrame c.clock.frame c.clock.change, change := none,
                            lastTick := some instant } }

/-- The sample of one tally input (R16, R17). -/
def sampleTally (tally : SlotSet) (c : Cm8) (i : Slot) : Cm8 :=
  if (c.head i).tally = tally.getLsbD i.val then c
  else
    (c.onHead i fun h => { h with tally := tally.getLsbD i.val, tallyChanged := true }).post
      (some i) none (.tally (tally.getLsbD i.val))

/-- The slots whose tally changes from OFF to ON at this tick (R76). -/
def rising (c : Cm8) (tally : SlotSet) : List Slot :=
  Slot.all.filter fun i => tally.getLsbD i.val && !(c.head i).tally

/-- The interval flags are cleared as the tick is delivered (R170). -/
def clearIntervals (c : Cm8) : Cm8 :=
  c.onHeads fun _ h => { h with track := { h.track with interval := none } }

/-- The line setups take effect (R148). -/
def reline (c : Cm8) : Cm8 := { c with pair0 := c.pair0.reline, pair1 := c.pair1.reline }

/-- The work of a tick in the order in which it is done when the tick's inputs ask for no other. -/
def plainWork (c : Cm8) (rise : List Slot) (inputs : TickInputs) (tail : List Work) : List Work :=
  Slot.all.map .timer ++ Slot.all.map .motion ++ Slot.all.map .queue ++ rise.map .soften ++ [.pass] ++
    Slot.all.map .page ++ Slot.all.map .link ++
    (c.lines.map fun st =>
      .schedule st (lineInput inputs st).sent (lineInput inputs st).receiving
        (c.pair st.pair).relined) ++ tail

/-- The work of a tick in the order in which it is done unless a row takes a piece earlier. -/
def tickWork (c : Cm8) (rise : List Slot) (inputs : TickInputs) (tail : List Work) : List Work :=
  arrange inputs.order (c.plainWork rise inputs tail)

/-- A tick at an instant: F, the sampled tallies, the interval flags, the line setups and the states of
the free heads at once, and the rest as work owed (R30). `tail` is what follows the tick. -/
def tick (c : Cm8) (instant : Nat) (inputs : TickInputs) (tail : List Work) : Cm8 :=
  let rise := c.rising inputs.tally
  let work := c.tickWork rise inputs tail
  let c := Slot.all.foldl (sampleTally inputs.tally) (c.countFrame instant)
  let c := Slot.all.foldl refresh (c.clearIntervals.reline)
  { c with work := work }

/-! ### Running the work -/

/-- Does one piece of work, which has left the list. -/
def runWork (c : Cm8) : Work → Cm8
  | .motion i => c.motionStep i
  | .queue i => c.queueStep i
  | .soften i => c.softenStep i
  | .timer i => c.timerStep i
  | .pass =>
    let r := c.judgePass
    { r.1 with work := r.2.map .handover ++ .settle :: r.1.work }
  | .handover i => c.handGrant i
  | .settle => c.settle
  | .page i => c.pageStep i
  | .link i => c.lossStep i
  | .schedule st sent receiving relined => c.formSchedule st sent receiving relined
  | .announce e => c.post none none e

/-- The piece of work is an event of the table, which its own row takes (log entry 1). -/
def due (c : Cm8) : Work → Bool
  | .motion i => c.completionDue i || c.refreshDue i
  | .queue i => (c.actingEntry i).isSome
  | .timer i => c.timeoutDue i
  | .handover _ => true
  | .page i => (c.head i).link.pageTimer.any fun t => decide (Config.pageTimeoutTicks ≤ t + 1)
  | .link i => c.lossDue i
  | _ => false

/-- How many rounds a piece of work can take: a pass adds at most eight hand-overs and a settling. -/
def weight : List Work → Nat
  | [] => 0
  | .pass :: ws => 11 + weight ws
  | _ :: ws => 1 + weight ws

/-- The first piece of work, done. -/
def runFront (c : Cm8) : Cm8 :=
  match c.work with
  | [] => c
  | w :: ws => { c with work := ws }.runWork w

def advanceN : Nat → Cm8 → Cm8
  | 0, c => c
  | n + 1, c =>
    match c.work with
    | [] => c
    | w :: _ => if c.due w then c else advanceN n c.runFront

/-- Does the work that comes before the next event of the table. -/
def advance (c : Cm8) : Cm8 := advanceN (weight c.work) c

def finishN : Nat → Cm8 → Cm8
  | 0, c => c
  | n + 1, c =>
    match c.work with
    | [] => c
    | _ :: _ => finishN n c.runFront.advance.chooseIdle

/-- Does all the work that the last tick still owes, as the rows of its events would do it one after the
other, so that an idle port chooses what the tick made ready before anything that comes later (R180, log
entries 1 and 4). -/
def finish (c : Cm8) : Cm8 := finishN (weight c.work) c

/-- Does the hand-overs of a pass that has been judged, and the passes that follow from them. -/
def closePassN : Nat → Cm8 → Cm8
  | 0, c => c
  | n + 1, c =>
    match c.work with
    | .handover _ :: _ => closePassN n c.runFront
    | .settle :: _ => closePassN n c.runFront
    | _ => c

def closePass (c : Cm8) : Cm8 := closePassN (weight c.work) c

/-- One piece of the work owed, taken out of its turn. -/
def takeWork (c : Cm8) (w : Work) : Cm8 := { c with work := c.work.erase w }.runWork w

/-- A row that is an event inside a tick: when the piece of work is owed and is that event by `isDue`,
it is done, and then what comes before the next event; otherwise nothing happens (log entry 9). -/
def takeEvent (c : Cm8) (w : Work) (isDue : Cm8 → Bool) : Cm8 :=
  let c' := c.closePass
  if c'.work.contains w && isDue c' then (c'.takeWork w).advance.chooseIdle else c

end Cm8

end Sys2Proof.Machine
end

