-- ==== Sys2Proof/Machine/Clock.lean ====
section
/-! DEFINITION. The Studio Timebase's rows: power-on, the four causes of a tick, and sync edges (R29 to
R38), and the rows that are events inside a tick. -/

namespace Sys2Proof.Machine

/-! ### The Bresenham instants (R31) -/

/-- 10^8 · M of the rate in force. -/
def Timebase.periodNumerator (t : Timebase) : Nat := Config.timebaseHz * Config.rateM t.rate

/-- The next Bresenham tick: one interval later, with the remainder carried (R31). -/
def Timebase.bresenham (t : Timebase) : Timebase :=
  let n := Config.rateN t.rate
  let sum := t.remainder + t.periodNumerator % n
  { t with index := t.index + 1, remainder := if n ≤ sum then sum - n else sum }

/-- The instant of tick n of the sequence (R31). -/
def Timebase.bresenhamInstant (t : Timebase) (n : Nat) : Nat :=
  t.reference + t.periodNumerator * n / Config.rateN t.rate

/-! ### Edges (R32 to R38) -/

/-- An interval is inside the window (section 3.3). -/
def Timebase.inWindow (t : Timebase) (i : Int) : Bool :=
  decide ((t.period : Int) - (t.period / 16 : Nat) ≤ i ∧ i ≤ t.period + (t.period / 16 : Nat))

/-- P̂ moved one eighth of the way to a measured interval (R33). -/
def Timebase.track (t : Timebase) (i : Int) : Nat := (t.period + roundDiv (i - t.period) 8).toNat

namespace Cm8

def onClock (c : Cm8) (f : Timebase → Timebase) : Cm8 := { c with clock := f c.clock }

/-- The edge becomes the time of last edge (R32). -/
def noteEdge (c : Cm8) (instant : Nat) : Cm8 := c.onClock fun t => { t with lastEdge := some instant }

/-- An edge in LOCKED (R33, R34). -/
def lockedEdge (c : Cm8) (instant : Nat) (inputs : TickInputs) : Cm8 :=
  match c.clock.phase with
  | none => c
  | some r =>
    let i : Int := (instant : Int) - r
    if c.clock.inWindow i then
      (c.onClock fun t => { t with phase := some instant, period := t.track i }).tick instant inputs []
    else c.bump .glitch

/-- The half-period test of the locking edge (R38). With no tick yet there is none too near. -/
def halfPeriodPassed (t : Timebase) (instant : Nat) : Bool :=
  match t.lastTick with
  | none => true
  | some l => decide (((t.period / 2 : Nat) : Int) ≤ (instant : Int) - l)

/-- The locking edge (R38). -/
def lockingEdge (c : Cm8) (instant : Nat) (inputs : TickInputs) : Cm8 :=
  let ticks := halfPeriodPassed c.clock instant
  let c := c.onClock fun t => { t with state := .locked, phase := some instant, run := 0 }
  if ticks then c.tick instant inputs [.announce .syncLocked] else c.post none none .syncLocked

/-- An edge in UNLOCKED or FREEWHEEL (R32, R37, R38). -/
def searchingEdge (c : Cm8) (instant : Nat) (inputs : TickInputs) : Cm8 :=
  match c.clock.lastEdge with
  | none => c
  | some e =>
    if c.clock.inWindow ((instant : Int) - e) then
      if 4 ≤ c.clock.run + 1 then c.lockingEdge instant inputs
      else c.onClock fun t => { t with run := t.run + 1 }
    else c.onClock fun t => { t with run := 0 }

/-- A sync edge (R32). -/
def syncEdge (c : Cm8) (instant : Nat) (inputs : TickInputs) : Cm8 :=
  let c := c.finish.reach instant
  ((match c.clock.state with
    | .locked => c.lockedEdge instant inputs
    | .unlocked => c.searchingEdge instant inputs
    | .freewheel => c.searchingEdge instant inputs).noteEdge instant).advance.chooseIdle

/-- A Bresenham instant in UNLOCKED (R31); in another state there is none. -/
def bresenhamTick (c : Cm8) (inputs : TickInputs) : Cm8 :=
  let c := c.finish
  match c.clock.state with
  | .unlocked =>
    let t := c.clock.bresenham
    ((c.onClock fun _ => t).tick (t.bresenhamInstant t.index) inputs []).advance.chooseIdle
  | _ => c.chooseIdle

/-- The loss expiry in LOCKED (R35). -/
def lossExpiry (c : Cm8) (inputs : TickInputs) : Cm8 :=
  let c := c.finish
  match c.clock.state, c.clock.phase with
  | .locked, some r =>
    let at_ := r + c.clock.period + c.clock.period / 8
    ((c.onClock fun t => { t with state := .freewheel, run := 0 }).tick at_ inputs
      [.announce .syncLost]).advance.chooseIdle
  | _, _ => c.chooseIdle

/-- A freewheel instant in FREEWHEEL (R36). -/
def freewheelTick (c : Cm8) (inputs : TickInputs) : Cm8 :=
  let c := c.finish
  match c.clock.state, c.clock.lastTick with
  | .freewheel, some l => (c.tick (l + c.clock.period) inputs []).advance.chooseIdle
  | _, _ => c.chooseIdle

/-! ### Events inside a tick -/

/-- The queue of a head is considered after its setpoint has been made (R51). -/
def afterMotion (c : Cm8) (i : Slot) : Cm8 :=
  if c.work.contains (.motion i) then c.takeWork (.motion i) else c

/-- The head entry of the queue acts at this tick under a start rule. -/
def actsBy (rule : StartRule) (i : Slot) (c : Cm8) : Bool :=
  (c.actingEntry i).any fun e => e.rule = rule

/-- A row by which the queue of a head acts (R51, R53, R57). -/
def takeQueue (c : Cm8) (rule : StartRule) (i : Slot) : Cm8 :=
  let c' := c.closePass.afterMotion i
  if c'.work.contains (.queue i) && actsBy rule i c' then
    (c'.takeWork (.queue i)).advance.chooseIdle
  else c

/-- Hand-overs up to and with that of a slot, in pass order (R125). -/
def handUpTo (i : Slot) : Nat → Cm8 → Cm8
  | 0, c => c
  | n + 1, c =>
    match c.work with
    | .handover j :: _ => if j = i then c.runFront else handUpTo i n c.runFront
    | _ => c

/-- The timer step of a slot, if it is still owed. -/
def afterTimer (c : Cm8) (i : Slot) : Cm8 :=
  if c.work.contains (.timer i) then c.takeWork (.timer i) else c

/-- The tick pass taken ahead of the motion and queue work that stands before it (R128). The timer steps
come before it in any case (R122). A row takes the pass this early only for a grant of it: an early pass
that grants nothing stands in the order that the tick's inputs ask for (log entry 1). -/
def passAhead (c : Cm8) : Cm8 :=
  let c := Slot.all.foldl afterTimer c.closePass
  if c.work.contains .pass then c.takeWork .pass else c

/-- The hand-over of a grant of the tick's pass, which is taken ahead of its turn when it is still owed
(R125, R128, log entry 1). A pass that grants the slot nothing is not taken here, and nothing happens. -/
def zoneGranted (c : Cm8) (i : Slot) : Cm8 :=
  let c' := if c.work.contains (.handover i) then c else c.passAhead
  if c'.work.contains (.handover i) then (handUpTo i (weight c'.work) c').advance.chooseIdle else c

end Cm8

/-! ### The rows -/

/-- POWER_ON_RESET: every table and every piece of working state at its power-on value (R29). -/
def execPowerOnReset (s : State) : Host.Outcome State Fault Refusal :=
  .next (s.onPart fun _ => .reset)

/-- BRESENHAM_TICK (R31). -/
def execBresenhamTick (inputs : TickInputs) (s : State) : Host.Outcome State Fault Refusal :=
  .next (s.onPart fun c => c.bresenhamTick inputs)

/-- SYNC_EDGE (R32). -/
def execSyncEdge (instant : Nat) (inputs : TickInputs) (s : State) :
    Host.Outcome State Fault Refusal :=
  .next (s.onPart fun c => c.syncEdge instant inputs)

/-- LOSS_EXPIRY (R35). -/
def execLossExpiry (inputs : TickInputs) (s : State) : Host.Outcome State Fault Refusal :=
  .next (s.onPart fun c => c.lossExpiry inputs)

/-- FREEWHEEL_TICK (R36). -/
def execFreewheelTick (inputs : TickInputs) (s : State) : Host.Outcome State Fault Refusal :=
  .next (s.onPart fun c => c.freewheelTick inputs)

/-- JOG_REFRESH_TIMEOUT: the refresh count of a jog reaches 12 (R87). -/
def execJogRefreshTimeout (i : Slot) (s : State) : Host.Outcome State Fault Refusal :=
  .next (s.onPart fun c => c.takeEvent (.motion i) fun c => c.refreshDue i)

/-- MOVE_COMPLETION: k of the active move reaches D (R68). -/
def execMoveCompletion (i : Slot) (s : State) : Host.Outcome State Fault Refusal :=
  .next (s.onPart fun c => c.takeEvent (.motion i) fun c => c.completionDue i)

/-- QUEUE_ENTRY_START: an eligible AFTER entry starts (R53). -/
def execQueueEntryStart (i : Slot) (s : State) : Host.Outcome State Fault Refusal :=
  .next (s.onPart fun c => c.takeQueue .after i)

/-- CUED_REPLACE_ACTS: a CUED-REPLACE head entry acts (R57). -/
def execCuedReplaceActs (i : Slot) (s : State) : Host.Outcome State Fault Refusal :=
  .next (s.onPart fun c => c.takeQueue .cuedReplace i)

/-- ZONE_WAIT_TIMEOUT: a wait timer reaches the zone wait timeout (R120). -/
def execZoneWaitTimeout (i : Slot) (s : State) : Host.Outcome State Fault Refusal :=
  .next (s.onPart fun c => c.takeEvent (.timer i) fun c => c.timeoutDue i)

/-- ZONE_GRANTED: a grant of the tick's pass is handed to the Move Sequencer (R125, R128). -/
def execZoneGranted (i : Slot) (s : State) : Host.Outcome State Fault Refusal :=
  .next (s.onPart fun c => c.zoneGranted i)

/-- LINK_LOSS: a loss tick counter reaches the link loss ticks (R160). -/
def execLinkLoss (i : Slot) (s : State) : Host.Outcome State Fault Refusal :=
  .next (s.onPart fun c => c.takeEvent (.link i) fun c => c.lossDue i)

/-- PAGE_TIMEOUT: a page timer reaches 16 ticks (R156). -/
def execPageTimeout (i : Slot) (s : State) : Host.Outcome State Fault Refusal :=
  .next (s.onPart fun c => c.takeEvent (.page i) fun c => c.due (.page i))

end Sys2Proof.Machine
end

