-- ==== Sys2Proof/Machine/Answering.lean ====
section
/-! DEFINITION. How a command of the Command Interpreter is taken and answered (R177 to R179). -/

namespace Sys2Proof.Machine

/-- What a command's checks and effect give: a reason of refusal, or the part after it and the read
data of the reply. A refused command changes no state (R179). -/
abbrev Verdict := Except Reason (Cm8 × List Byte)

/-- The effect of a command and its answer. -/
def Verdict.settle (c : Cm8) : Verdict → Cm8 × Answer
  | .error why => (c, .refused why)
  | .ok (c', data) => (c', .accepted data)

namespace Cm8

/-- Carries out a command and places its reply (R178, R179). -/
def answer (c : Cm8) (kind tag : Byte) (run : Cm8 → Cm8 × Answer) : Cm8 :=
  let r := run c
  { r.1 with port := { r.1.port with replies := r.1.port.replies ++ [⟨kind, tag, r.2⟩] } }

/-- The interpreter can take a frame: the reply queue has a free place (R178). -/
def canAnswer (c : Cm8) : Bool := decide (c.port.replies.length < Config.replyQueueMax)

/-- A command reaches the interpreter: it is carried out when none waits before it and a reply has a
place; else it joins the receive buffer, or is lost to a full one (R177, R178). -/
def offer (c : Cm8) (kind tag : Byte) (body : List Byte) (run : Cm8 → Cm8 × Answer) : Cm8 :=
  if c.port.buffer.isEmpty && c.canAnswer then c.answer kind tag run
  else if c.port.buffer.length < Config.receiveBufferMax then
    { c with port := { c.port with buffer := c.port.buffer ++ [⟨kind, tag, body⟩] } }
  else c.bump .rxOverrun

end Cm8

/-- A row of the Command Interpreter: what the last tick owes is done, the command is taken, and the
idle arbiter chooses. -/
def State.command (s : State) (k : CommandKind) (tag : Byte) (body : List Byte)
    (run : Cm8 → Cm8 × Answer) : State :=
  s.onPart fun c => (c.finish.offer k.code tag body run).chooseIdle

end Sys2Proof.Machine
end

