-- ==== Sys2Proof/Machine/Calls.lean ====
section
/-! DEFINITION. RECALL and RECALL INLINE: the checks of a call and the three modes (R24, R47 to R49, R55,
R56, R58, R59, R70, R71). -/

namespace Sys2Proof.Machine

/-- A call whose fields have passed (R47). -/
structure Call where
  source : Source
  cue : Option (BitVec 32)
  duration : Option Nat
  profile : Option Profile
  tag : Byte
  deriving DecidableEq, Repr

/-- The queue entry that a call makes (R46). -/
def Call.entry (x : Call) (rule : StartRule) : QueueEntry :=
  ⟨x.source, rule, x.cue, x.duration, x.profile, x.tag⟩

/-- The entry that PRIORITY puts back for a REPLACE without a cue (R59). -/
def Call.back (x : Call) : QueueEntry := ⟨x.source, .after, none, x.duration, x.profile, x.tag⟩

/-- The refusal of a planning made while a command is taken (R25, R55, R58). -/
def refusalOf : DropReason → Reason
  | .noShot => .noShot
  | .onAir => .onAir
  | _ => .limit

/-- The held move record of an active move (R71). -/
def Move.hold (m : Move) : Held := ⟨m.target, m.d - m.k, m.profile, m.source, m.tag, m.zones⟩

/-- Read data of a call that is queued, and of one that started or waits (R195). -/
def queuedData (n : Nat) : List Byte := 0#8 :: enc1 n

def startedData (waits : Bool) (d : Nat) : List Byte := (if waits then 2#8 else 1#8) :: enc2 d

namespace Cm8

/-- APPEND (R49). -/
def callAppend (c : Cm8) (i : Slot) (x : Call) : Verdict :=
  if Config.moveQueueMax ≤ (c.head i).queue.length then .error .queueFull
  else
    let c := (c.onHead i fun h => { h with queue := h.queue ++ [x.entry .after] }).refresh i
    .ok (c, queuedData (c.head i).queue.length)

/-- REPLACE with a cue (R56). -/
def callCued (c : Cm8) (i : Slot) (x : Call) : Verdict :=
  .ok (((c.flush i).setQueue i [x.entry .cuedReplace]).refresh i, queuedData 1)

/-- REPLACE without a cue over an active move, once planned (R55). -/
def replaceOver (c : Cm8) (i : Slot) (m : Move) : Verdict :=
  if c.obtainable i m.zones then .ok ((c.flush i).overrideWith i m, startedData false m.d)
  else .error .zoneBusy

/-- REPLACE without a cue on a head with no active move, once planned (R55). -/
def replaceFree (c : Cm8) (i : Slot) (x : Call) (p : Planned) : Cm8 × List Byte :=
  let c := (((c.flush i).dropDisplaced i).toFree i).requestTold i p x.back
  (c, startedData (c.waitingOf i).isSome p.move.d)

/-- REPLACE without a cue (R55). -/
def callReplace (c : Cm8) (i : Slot) (x : Call) : Verdict :=
  match c.planSource i (c.overStart i) .planned x.source x.duration x.profile x.tag with
  | .error why => .error (refusalOf why)
  | .ok p =>
    match (c.head i).activity.active with
    | some _ => c.replaceOver i p.move
    | none => .ok (c.replaceFree i x p)

/-- The records that an accepted PRIORITY displaces or keeps: the part after their events, and the held
move that the priority move carries (R59, R70). DESIGN CHOICE (log entry 30): a waiting move is put back
at the head of the queue, ahead of a CUED-REPLACE entry that waits there (R45 and R59 against R56). -/
def makeWay (c : Cm8) (i : Slot) : Cm8 × Option Held :=
  match (c.head i).activity with
  | .moving m held =>
    if m.cls = .planned then
      (c.post (some i) m.tag (.moveHeld m.source (m.d - m.k)), some m.hold)
    else (c.dropMove i m .superseded, held)
  | .waitZone w => (c.onHead i fun h => { h with queue := w.back :: h.queue }, none)
  | _ => (c, none)

/-- An accepted PRIORITY (R70). -/
def startPriority (c : Cm8) (i : Slot) (m : Move) : Cm8 :=
  let r := c.makeWay i
  (r.1.takeOver i m r.2).postStarted i m

/-- The waiting move of the head could not be put back (R58). -/
def putBackFull (c : Cm8) (i : Slot) : Bool :=
  (c.waitingOf i).isSome && decide (Config.moveQueueMax ≤ (c.head i).queue.length)

/-- PRIORITY (R58). -/
def callPriority (c : Cm8) (i : Slot) (x : Call) : Verdict :=
  if c.putBackFull i then .error .queueFull
  else
    match c.planSource i (c.overStart i) .priority x.source x.duration x.profile x.tag with
    | .error why => .error (refusalOf why)
    | .ok p =>
      if c.obtainable i p.move.zones then
        .ok (c.startPriority i p.move, startedData false p.move.d)
      else .error .zoneBusy

/-- The mode of a call with its cue, as R48's table has its columns. -/
def callBy (c : Cm8) (i : Slot) (mode : CallMode) (x : Call) : Verdict :=
  match mode, x.cue with
  | .append, _ => c.callAppend i x
  | .replace, none => c.callReplace i x
  | .replace, some _ => c.callCued i x
  | .priority, _ => c.callPriority i x

/-- The motion state turns the call away BUSY (R48 step 3). -/
def callBusy (a : Activity) (mode : CallMode) (cued : Bool) : Bool :=
  match a, mode with
  | .jogging _, .append => false
  | .jogging _, _ => true
  | .moving m _, .priority => m.cls = .stop
  | .moving m _, .replace => m.cls = .stop && !cued
  | _, _ => false

/-- The checks on the head's state, then the mode (R48). -/
def call (c : Cm8) (i : Slot) (mode : CallMode) (x : Call) : Verdict :=
  let h := c.head i
  if !h.isLinked || h.activity.isOffline then .error .noHead
  else if h.activity.isHalted then .error .halted
  else if callBusy h.activity mode x.cue.isSome then .error .busy
  else c.callBy i mode x

/-- The last field check of R47, then the checks on the head. -/
def callChecked (c : Cm8) (i : Slot) (mode : CallMode) (x : Call) : Verdict :=
  if decide (mode = .priority) && x.cue.isSome then .error .malformed else c.call i mode x

/-- RECALL (R47). -/
def recallShot (c : Cm8) (tag : Byte) (body : List Byte) : Verdict :=
  match body with
  | s :: m :: sh :: p :: rest =>
    match takeOptions p rest with
    | some (o, []) =>
      match slotOf s, modeOf m, shotOf sh, o.checked with
      | some i, some mode, some k, some q =>
        c.callChecked i mode ⟨.shot k, o.cue, o.duration, q, tag⟩
      | _, _, _, _ => .error .range
    | _ => .error .malformed
  | _ => .error .malformed

/-- The count and the target list after the optional fields of RECALL INLINE. -/
def inlinePairs : List Byte → Option (List (Byte × Int))
  | n :: rest => counted n (axisPairs rest)
  | [] => none

/-- RECALL INLINE (R24, R47). -/
def recallInline (c : Cm8) (tag : Byte) (body : List Byte) : Verdict :=
  match body with
  | s :: m :: p :: rest =>
    match takeOptions p rest with
    | none => .error .malformed
    | some (o, rest) =>
      match inlinePairs rest with
      | none => .error .malformed
      | some ps =>
        match slotOf s, modeOf m, o.checked with
        | some i, some mode, some q =>
          match targetList (c.head i).map.mask ps with
          | some ts => c.callChecked i mode ⟨.inline ts, o.cue, o.duration, q, tag⟩
          | none => .error .range
        | _, _, _ => .error .range
  | _ => .error .malformed

end Cm8

/-! ### The rows -/

/-- RECALL (R47 to R59). -/
def runRecall (tag : Byte) (body : List Byte) (c : Cm8) : Cm8 × Answer := (c.recallShot tag body).settle c
def execRecall (tag : Byte) (body : List Byte) (s : State) : Host.Outcome State Fault Refusal :=
  .next (s.command .recallShot tag body (runRecall tag body))

/-- RECALL INLINE (R24, R47 to R59). -/
def runRecallInline (tag : Byte) (body : List Byte) (c : Cm8) : Cm8 × Answer :=
  (c.recallInline tag body).settle c
def execRecallInline (tag : Byte) (body : List Byte) (s : State) : Host.Outcome State Fault Refusal :=
  .next (s.command .recallInline tag body (runRecallInline tag body))

end Sys2Proof.Machine
end

