-- ==== Sys2Proof/Machine/Floor.lean ====
section
/-! DEFINITION. The commands on the zone map and on the Zone Arbiter (R110 to R112, R126, R127, R130,
R131). -/

namespace Sys2Proof.Machine
namespace Cm8

/-! ### The zone map (R110 to R112) -/

/-- A head is MOVING, JOGGING or in WAIT_ZONE (R110 check 4). -/
def floorBusy (c : Cm8) : Bool :=
  Slot.all.any fun i =>
    match (c.head i).activity with
    | .moving _ _ => true
    | .jogging _ => true
    | .waitZone _ => true
    | _ => false

/-- The recomputation of one head after a zone map change, with the count of heads halted (R112). -/
def rezoneHead (a : Cm8 × Nat) (i : Slot) : Cm8 × Nat :=
  let c := a.1
  if (c.head i).isLinked && (c.head i).activity.isFree then
    let res := c.residentZones i
    let c := (c.freeOutside i res).giveFree i res
    if c.obtainable i res then (c, a.2) else (c.haltRequest i .conflict, a.2 + 1)
  else a

/-- The recomputation after a zone map change (R112). -/
def rezone (c : Cm8) : Cm8 × Nat :=
  let r := Slot.all.foldl rezoneHead (c, 0)
  (r.1.settle, r.2)

/-- Writes entries at an index and those that follow it. -/
def writeZones (map : Vector (Option ZoneEntry) 32) (start : Nat) (es : List (Option ZoneEntry)) :
    Vector (Option ZoneEntry) 32 :=
  .ofFn fun i =>
    if start ≤ i.val then (es[i.val - start]?).getD map[i] else map[i]

/-- The effect of an accepted change of the zone map. -/
def changeMap (c : Cm8) (map : Vector (Option ZoneEntry) 32) : Verdict :=
  if c.floorBusy then .error .busy
  else
    let r := { c with zonemap := map }.rezone
    .ok (r.1, enc1 r.2)

/-- Start index and count are in range (R110 check 2). -/
def zoneRange (start count : Byte) : Bool :=
  decide (start.toNat < 32) && within 1 16 count.toNat && decide (start.toNat + count.toNat ≤ 32)

def zonemapSet (c : Cm8) (body : List Byte) : Verdict :=
  match body with
  | start :: n :: rest =>
    match counted n (rawZones rest) with
    | none => .error .malformed
    | some raw =>
      if zoneRange start n then
        match zoneEntries raw with
        | some es => c.changeMap (writeZones c.zonemap start.toNat es)
        | none => .error .range
      else .error .range
  | _ => .error .malformed

def zonemapClear (c : Cm8) (body : List Byte) : Verdict :=
  match body with
  | [] => c.changeMap (.replicate 32 none)
  | _ => .error .malformed

/-- An entry in a reply (R195). -/
def zoneBytes : Option ZoneEntry → List Byte
  | none => [0xFF#8, 0#8, 0#8, 0#8, 0#8, 0#8, 0#8, 0#8]
  | some e => enc1 e.slot.val ++ enc1 e.zone.val ++ encPos e.range.lo ++ encPos e.range.hi

def zonemapGet (c : Cm8) (body : List Byte) : Verdict :=
  match body with
  | [start, n] =>
    if zoneRange start n then
      .ok (c, ((c.zonemap.toList.drop start.toNat).take n.toNat).flatMap zoneBytes)
    else .error .range
  | _ => .error .malformed

/-! ### The Zone Arbiter (R126, R127, R130, R131) -/

def releaseZones (c : Cm8) (body : List Byte) : Verdict :=
  match body with
  | [s] =>
    match slotOf s with
    | some i =>
      if (c.head i).activity.isHalted then
        .ok ((c.freeOutside i 0#16).grantPass, encW (c.holdings i))
      else .error .busy
    | none => .error .range
  | _ => .error .malformed

def zoneMask (c : Cm8) (body : List Byte) : Verdict :=
  match body with
  | [m] => .ok ({ c with arbiter := { c.arbiter with mask := m } }.grantPass, [])
  | _ => .error .malformed

/-- Sets the lowest-priority slot and the rotation mode, and runs a pass (R126). -/
def setLowest (c : Cm8) (i : Slot) (r : Rotation) : Cm8 :=
  { c with
    arbiter := { c.arbiter with lowest := i },
    policy := { c.policy with rotation := r } }.grantPass

def zoneLowest (c : Cm8) (body : List Byte) : Verdict :=
  match body with
  | [s, m] =>
    match slotOf s, switchOf m with
    | some i, some r =>
      let c := c.setLowest i (if r then .rotate else .fixed)
      .ok (c, enc1 c.arbiter.lowest.val)
    | _, _ => .error .range
  | _ => .error .malformed

/-- The fields that both replies of ZONE STATUS carry (R131). -/
def arbiterBytes (c : Cm8) : List Byte :=
  enc1 c.arbiter.lowest.val ++ [c.policy.rotation.code, c.arbiter.mask] ++ enc2 c.policy.waitTimeout

/-- The holder of each zone (R131). -/
def holderBytes (c : Cm8) : List Byte :=
  Zone.all.map fun z =>
    match c.holder z with
    | some i => BitVec.ofNat 8 i.val
    | none => 0xFF#8

/-- One head of the waiting set (R131). -/
def waitBytes (c : Cm8) (i : Slot) (w : Waiting) : List Byte :=
  [BitVec.ofNat 8 i.val, tagByte w.move.tag] ++ encW w.move.zones ++ enc2 w.timer ++
    [flagsByte [c.arbiter.mask.getLsbD i.val, (c.head i).tally]]

/-- The waiting set, in ascending slot order. -/
def waitingList (c : Cm8) : List (Slot × Waiting) :=
  Slot.all.filterMap fun i => (c.waitingOf i).map fun w => (i, w)

def zoneStatus (c : Cm8) (body : List Byte) : Verdict :=
  match body with
  | [sel] =>
    match switchOf sel with
    | some false => .ok (c, c.arbiterBytes ++ c.holderBytes)
    | some true =>
      .ok (c, c.arbiterBytes ++ enc1 c.waitingList.length ++
        c.waitingList.flatMap fun p => c.waitBytes p.1 p.2)
    | none => .error .range
  | _ => .error .malformed

end Cm8

/-! ### The rows -/

/-- ZONEMAP SET (R110, R112). -/
def runZonemapSet (body : List Byte) (c : Cm8) : Cm8 × Answer := (c.zonemapSet body).settle c
def execZonemapSet (tag : Byte) (body : List Byte) (s : State) : Host.Outcome State Fault Refusal :=
  .next (s.command .zonemapSet tag body (runZonemapSet body))

/-- ZONEMAP GET (R111). -/
def runZonemapGet (body : List Byte) (c : Cm8) : Cm8 × Answer := (c.zonemapGet body).settle c
def execZonemapGet (tag : Byte) (body : List Byte) (s : State) : Host.Outcome State Fault Refusal :=
  .next (s.command .zonemapGet tag body (runZonemapGet body))

/-- ZONEMAP CLEAR (R111, R112). -/
def runZonemapClear (body : List Byte) (c : Cm8) : Cm8 × Answer := (c.zonemapClear body).settle c
def execZonemapClear (tag : Byte) (body : List Byte) (s : State) : Host.Outcome State Fault Refusal :=
  .next (s.command .zonemapClear tag body (runZonemapClear body))

/-- RELEASE ZONES (R130). -/
def runReleaseZones (body : List Byte) (c : Cm8) : Cm8 × Answer := (c.releaseZones body).settle c
def execReleaseZones (tag : Byte) (body : List Byte) (s : State) : Host.Outcome State Fault Refusal :=
  .next (s.command .releaseZones tag body (runReleaseZones body))

/-- ZONE MASK (R127). -/
def runZoneMask (body : List Byte) (c : Cm8) : Cm8 × Answer := (c.zoneMask body).settle c
def execZoneMask (tag : Byte) (body : List Byte) (s : State) : Host.Outcome State Fault Refusal :=
  .next (s.command .zoneMask tag body (runZoneMask body))

/-- ZONE LOWEST (R126). -/
def runZoneLowest (body : List Byte) (c : Cm8) : Cm8 × Answer := (c.zoneLowest body).settle c
def execZoneLowest (tag : Byte) (body : List Byte) (s : State) : Host.Outcome State Fault Refusal :=
  .next (s.command .zoneLowest tag body (runZoneLowest body))

/-- ZONE STATUS (R131). -/
def runZoneStatus (body : List Byte) (c : Cm8) : Cm8 × Answer := (c.zoneStatus body).settle c
def execZoneStatus (tag : Byte) (body : List Byte) (s : State) : Host.Outcome State Fault Refusal :=
  .next (s.command .zoneStatus tag body (runZoneStatus body))

end Sys2Proof.Machine
end

