-- ==== Sys2Proof/Machine/HeadLines.lean ====
section
/-! DEFINITION. The rows of the head lines and the direct frame: LINE_FRAME_SENT, the two ways a frame is
discarded, REPORT, PAGE and DIRECT_FRAME (R139, R143 to R145, R177). -/

namespace Sys2Proof.Machine
namespace Cm8

/-- The last character of the frame going out on a line goes out (R139, R146). -/
def frameSent (c : Cm8) (st : StoreId) : Cm8 :=
  match (c.store st).outgoing with
  | [] => c
  | _ :: rest => (c.onStore st fun s => { s with outgoing := rest }).bump (.line st .sent)

/-- A direct frame: counted in RX_OK and filtered (R143, R177). -/
def directFrame (c : Cm8) (slot : Slot) (body : List Byte) : Cm8 :=
  (c.bump .rxOk).filterDirect slot body

end Cm8

/-- A row that comes from outside: what the last tick owes is done, then the row's effect, and the idle
arbiter chooses. -/
def State.row (s : State) (f : Cm8 → Cm8) : State := s.onPart fun c => (f c.finish).chooseIdle

/-- LINE_FRAME_SENT (R139). -/
def execLineFrameSent (st : StoreId) (s : State) : Host.Outcome State Fault Refusal :=
  .next (s.row fun c => c.frameSent st)

/-- LINE_CHARACTER_GAP_TIMEOUT: the frame in progress is discarded (R144). -/
def execLineCharacterGapTimeout (st : StoreId) (s : State) : Host.Outcome State Fault Refusal :=
  .next (s.row fun c => c.lineBad st)

/-- LINE_BAD_FRAME: every reason of R144 and R145 has the same effect. -/
def execLineBadFrame (st : StoreId) (_why : LineFault) (s : State) :
    Host.Outcome State Fault Refusal :=
  .next (s.row fun c => c.lineBad st)

/-- REPORT (R145, R152, R159, R167). -/
def execReport (st : StoreId) (address : Byte) (body : List Byte) (s : State) :
    Host.Outcome State Fault Refusal :=
  .next (s.row fun c => c.arriveReport st address body)

/-- PAGE (R145, R152 to R155). -/
def execPage (st : StoreId) (address : Byte) (body : List Byte) (s : State) :
    Host.Outcome State Fault Refusal :=
  .next (s.row fun c => c.arrivePage st address body)

/-- DIRECT_FRAME (R143, R177). -/
def execDirectFrame (slot : Slot) (body : List Byte) (s : State) : Host.Outcome State Fault Refusal :=
  .next (s.row fun c => c.directFrame slot body)

end Sys2Proof.Machine
end

