-- ==== Sys2Proof/Machine/Motion.lean ====
section
/-! DEFINITION. JOG, STOP, STOP ALL, HALT, CLEAR, HEAD STATUS and RESET SOFT (R78, R79, R83, R84, R86,
R91, R184, R187). -/

namespace Sys2Proof.Machine
namespace Cm8

/-! ### JOG (R86) -/

/-- Commanded velocities: 0 for an axis that the list does not name. -/
def commandedOf (l : List (Axis × Int)) : PerAxis Int :=
  .gen fun a => ((l.find? fun t => t.1 = a).map Prod.snd).getD 0

/-- The checks of R86 on the head's state, and the effect. -/
def jogHead (c : Cm8) (i : Slot) (l : List (Axis × Int)) : Verdict :=
  let h := c.head i
  if !h.isLinked then .error .noHead
  else
    match h.activity with
    | .offline => .error .noHead
    | .halted _ => .error .halted
    | .idle =>
      if h.queue.isEmpty then
        .ok (c.setActivity i (.jogging ⟨commandedOf l, .const 0, 0⟩), [])
      else .error .busy
    | .jogging j =>
      if h.queue.isEmpty then
        .ok (c.setActivity i (.jogging { j with commanded := commandedOf l, refresh := 0 }), [])
      else .error .busy
    | _ => .error .busy

def jog (c : Cm8) (body : List Byte) : Verdict :=
  match body with
  | s :: n :: rest =>
    match counted n (axisPairs rest) with
    | none => .error .malformed
    | some ps =>
      match slotOf s with
      | none => .error .range
      | some i =>
        match jogList (c.head i).map.mask ps with
        | some l => c.jogHead i l
        | none => .error .range
  | _ => .error .malformed

/-! ### STOP and STOP ALL (R78, R79) -/

/-- What STOP does once the queue is flushed (R78). -/
def stopBy (c : Cm8) (i : Slot) : Cm8 :=
  match (c.head i).activity with
  | .idle => c.toFree i
  | .waitCue => c.toFree i
  | .waitZone w => (c.dropMove i w.move .flushed).restFree i
  | .moving m held =>
    if m.cls = .stop then c
    else ((c.dropHeld? i held .superseded).dropMove i m .superseded).beginStop i m
  | .jogging j => c.setActivity i (.jogging { j with commanded := .const 0 })
  | _ => c

/-- An accepted STOP of one head (R78). -/
def stopHead (c : Cm8) (i : Slot) : Cm8 := (c.flush i).stopBy i

/-- STOP would be accepted for the head (R78, R79). -/
def stoppable (c : Cm8) (i : Slot) : Bool :=
  (c.head i).isLinked && !(c.head i).activity.isOffline && !(c.head i).activity.isHalted

def stop (c : Cm8) (body : List Byte) : Verdict :=
  match body with
  | [s] =>
    match slotOf s with
    | none => .error .range
    | some i =>
      if !(c.head i).isLinked || (c.head i).activity.isOffline then .error .noHead
      else if (c.head i).activity.isHalted then .error .halted
      else
        let c := c.stopHead i
        .ok (c, enc1 (c.head i).activity.code)
  | _ => .error .malformed

/-- One slot of STOP ALL. -/
def stopEach (a : Cm8 × Nat) (i : Slot) : Cm8 × Nat :=
  if a.1.stoppable i then (a.1.stopHead i, a.2 + 1) else a

def stopAll (c : Cm8) (body : List Byte) : Verdict :=
  match body with
  | [] =>
    let r := Slot.all.foldl stopEach (c, 0)
    .ok (r.1, enc1 r.2)
  | _ => .error .malformed

/-! ### HALT (R83) -/

/-- One slot of HALT ALL. -/
def haltEach (cause : HaltCause) (a : Cm8 × Nat) (i : Slot) : Cm8 × Nat :=
  if (a.1.head i).activity.isOffline || (a.1.head i).activity.isHalted then a
  else (a.1.haltRequest i cause, a.2 + 1)

def halt (c : Cm8) (body : List Byte) : Verdict :=
  match body with
  | [s] =>
    if s = 0xFF#8 then
      let r := Slot.all.foldl (haltEach .command) (c, 0)
      .ok (r.1, enc1 r.2)
    else
      match slotOf s with
      | none => .error .range
      | some i =>
        if (c.head i).activity.isOffline then .error .noHead
        else
          let r := haltEach .command (c, 0) i
          .ok (r.1, enc1 r.2)
  | _ => .error .malformed

/-! ### CLEAR (R84) -/

/-- The setpoints of the configured axes (R84, R195). -/
def setpointBytes (h : Head) : List Byte := h.axisList.flatMap fun a => encPos (h.setpoint.get a)

/-- An accepted CLEAR once the setpoint is adopted (R84, R117). -/
def clearAccepted (c : Cm8) (i : Slot) : Cm8 :=
  let c := (c.onHead i fun h => h.settleSetpoint.onTrack fun t => { t with run := 0 }).toFree i
  ((c.recompute i).giveFree i (c.residentZones i)).settle

/-- Steps 4 to 6 of R84 and the effect. -/
def clearHalted (c : Cm8) (i : Slot) (measured : PerAxis Int) : Cm8 × Answer :=
  let c := c.onHead i fun h => h.adopt measured
  if !(c.head i).insideLimits then (c, .refused .range)
  else if c.conflicted i then (c.setActivity i (.halted .conflict), .refused .zoneBusy)
  else (c.clearAccepted i, .accepted (1#8 :: setpointBytes (c.head i)))

/-- CLEAR of one slot (R84). -/
def clearSlot (c : Cm8) (i : Slot) : Cm8 × Answer :=
  let h := c.head i
  if !h.isLinked || !h.link.reported then (c, .refused .noHead)
  else
    match h.activity with
    | .halted .mismatch => (c, .refused .mismatch)
    | .halted _ =>
      match h.track.measured with
      | some t => c.clearHalted i t
      | none => (c, .refused .noHead)
    | _ => (c, .accepted [0#8])

def clear (c : Cm8) (body : List Byte) : Cm8 × Answer :=
  match body with
  | [s] =>
    match slotOf s with
    | some i => c.clearSlot i
    | none => (c, .refused .range)
  | _ => (c, .refused .malformed)

/-! ### HEAD STATUS (R64, R90, R163, R174, R187, R195) -/

/-- The enrolment part: head axis mask, pages received and loss tick counter (R163, log entry 13). -/
def linkBytes (l : Link) : List Byte :=
  match l.state with
  | .exchange => [(l.headMask.getD 0#6).setWidth 8, BitVec.ofNat 8 l.pages, 0#8]
  | .linked => [(l.headMask.getD 0#6).setWidth 8, 0#8, BitVec.ofNat 8 l.loss]
  | _ => [0#8, 0#8, 0#8]

/-- The head entry of the queue (R64). -/
def entryBytes : Option QueueEntry → List Byte
  | none => [0#8, 0#8, 0#8, 0#8, 0#8, 0#8, 0xFF#8, 0xFF#8]
  | some e =>
    [e.rule.code, boolByte e.cue.isSome] ++ enc4 (e.cue.getD 0#32) ++ [e.tag, e.source.name.byte]

/-- The waiting move (R64). -/
def waitingBytes (w : Option Waiting) : List Byte :=
  [boolByte w.isSome, tagByte (w.bind fun w => w.move.tag)]

/-- The motion state and the halt cause (R90). -/
def motionBytes (a : Activity) : List Byte :=
  [BitVec.ofNat 8 a.code, match a with | .halted cause => cause.code | _ => 0#8]

/-- The active move (R90). -/
def activeBytes : Option Move → List Byte
  | none => [0#8, 0xFF#8, 0xFF#8, 0#8, 0#8, 0#8, 0#8]
  | some m => [m.cls.code, tagByte m.tag, sourceByte m.source] ++ enc2 m.d ++ enc2 m.k

/-- The held move (R90). -/
def heldBytes : Option Held → List Byte
  | none => [0#8, 0xFF#8, 0xFF#8, 0#8, 0#8]
  | some x => [1#8, tagByte x.tag, sourceByte x.source] ++ enc2 x.remaining

/-- The refresh count of a jog in one byte; above 255 the byte is free (log entry 7). -/
def refreshByte (n : Nat) : Byte := if n < 256 then BitVec.ofNat 8 n else Config.unfitRefresh n

/-- The jog (R90). -/
def jogBytes (h : Head) : List Byte :=
  match h.activity with
  | .jogging j =>
    [1#8, refreshByte j.refresh] ++
      h.axisList.flatMap fun a => encPos (j.commanded.get a) ++ encPos (j.velocity.get a)
  | _ => [0#8, 0#8] ++ h.axisList.flatMap fun _ => encPos 0 ++ encPos 0

/-- The last measured position in studio units, 0 where none is held (R174). -/
def measuredBytes (h : Head) : List Byte :=
  h.axisList.flatMap fun a => encPos ((h.track.measured.map fun t => h.inward t a).getD 0)

/-- The read data of HEAD STATUS (R195). -/
def statusData (h : Head) : List Byte :=
  [h.link.state.code, h.statusFlags, h.map.mask.setWidth 8] ++ linkBytes h.link ++
    enc1 h.queue.length ++ entryBytes h.queue.head? ++ waitingBytes h.activity.waiting ++
    motionBytes h.activity ++ setpointBytes h ++ activeBytes h.activity.active ++
    heldBytes h.activity.held ++ jogBytes h ++ encW h.resumptions ++ measuredBytes h ++
    enc1 h.track.run ++ enc1 h.followCount ++ enc1 h.track.decimation

/-- The flags that HEAD STATUS clears (R17, R161). -/
def statusRead (h : Head) : Head :=
  { h with tallyChanged := false, link := { h.link with lostFlag := false } }

def headStatus (c : Cm8) (body : List Byte) : Verdict :=
  match body with
  | [s] =>
    match slotOf s with
    | some i => .ok (c.onHead i statusRead, statusData (c.head i))
    | none => .error .range
  | _ => .error .malformed

/-! ### RESET SOFT (R91, R184) -/

/-- Step 1 for one slot: a LINKED head that is not OFFLINE is halted; those newly halted are counted. -/
def resetHalt (a : Cm8 × Nat) (i : Slot) : Cm8 × Nat :=
  if (a.1.head i).isLinked then haltEach .reset a i else a

/-- Steps 3 and 4 for a slot's record, and its queue empty (R11, R45, R164, R184). -/
def resetHead (h : Head) : Head :=
  { h with
    axes := .gen fun a => { h.axes.get a with restriction := none },
    queue := [], resumptions := 0#16,
    track := { h.track with interval := none, upstream := none } }

/-- A line store emptied of PASS frames, its counters 0 (R142, R146). -/
def resetStore (s : LineStore) : LineStore := { s with pass := [], counters := .zero }

def resetPair (p : Pair) : Pair :=
  { p with storeA := resetStore p.storeA, storeB := resetStore p.storeB }

/-- Steps 2 to 5 of R184. -/
def resetParts (c : Cm8) : Cm8 :=
  { (c.onHeads fun _ h => resetHead h) with
    arbiter := { c.arbiter with mask := 0#8, lowest := 7 },
    pair0 := resetPair c.pair0,
    pair1 := resetPair c.pair1,
    events := { c.events with queue := [], dropped := 0 },
    port := { c.port with rxOk := 0#16, rxBad := 0#16, rxOverrun := 0#16 },
    clock := { c.clock with glitch := 0#16 } }

def resetSoft (c : Cm8) (body : List Byte) : Verdict :=
  match body with
  | [] =>
    let r := Slot.all.foldl resetHalt (c, 0)
    .ok (r.1.resetParts.post none none .resetDone, enc1 r.2)
  | _ => .error .malformed

end Cm8

/-! ### The rows -/

/-- JOG (R86). -/
def runJog (body : List Byte) (c : Cm8) : Cm8 × Answer := (c.jog body).settle c
def execJog (tag : Byte) (body : List Byte) (s : State) : Host.Outcome State Fault Refusal :=
  .next (s.command .jog tag body (runJog body))

/-- STOP (R78). -/
def runStop (body : List Byte) (c : Cm8) : Cm8 × Answer := (c.stop body).settle c
def execStop (tag : Byte) (body : List Byte) (s : State) : Host.Outcome State Fault Refusal :=
  .next (s.command .stop tag body (runStop body))

/-- STOP ALL (R79). -/
def runStopAll (body : List Byte) (c : Cm8) : Cm8 × Answer := (c.stopAll body).settle c
def execStopAll (tag : Byte) (body : List Byte) (s : State) : Host.Outcome State Fault Refusal :=
  .next (s.command .stopAll tag body (runStopAll body))

/-- HALT (R83). -/
def runHalt (body : List Byte) (c : Cm8) : Cm8 × Answer := (c.halt body).settle c
def execHalt (tag : Byte) (body : List Byte) (s : State) : Host.Outcome State Fault Refusal :=
  .next (s.command .halt tag body (runHalt body))

/-- CLEAR (R84). -/
def runClear (body : List Byte) (c : Cm8) : Cm8 × Answer := c.clear body
def execClear (tag : Byte) (body : List Byte) (s : State) : Host.Outcome State Fault Refusal :=
  .next (s.command .clear tag body (runClear body))

/-- HEAD STATUS (R187). -/
def runHeadStatus (body : List Byte) (c : Cm8) : Cm8 × Answer := (c.headStatus body).settle c
def execHeadStatus (tag : Byte) (body : List Byte) (s : State) : Host.Outcome State Fault Refusal :=
  .next (s.command .headStatus tag body (runHeadStatus body))

/-- RESET SOFT (R184). -/
def runResetSoft (body : List Byte) (c : Cm8) : Cm8 × Answer := (c.resetSoft body).settle c
def execResetSoft (tag : Byte) (body : List Byte) (s : State) : Host.Outcome State Fault Refusal :=
  .next (s.command .resetSoft tag body (runResetSoft body))

end Sys2Proof.Machine
end

