-- ==== Sys2Proof/Machine/Settings.lean ====
section
/-! DEFINITION. The commands on forwarding, lines, policy, time, events and the port (R39, R42, R43,
R147, R148, R150, R183, R185, R186, R206). -/

namespace Sys2Proof.Machine
namespace Cm8

/-! ### FORWARD SET and POLICY SET (R185, R186) -/

def forwardSet (c : Cm8) (body : List Byte) : Verdict :=
  match body with
  | [s, m, d] =>
    match slotOf s with
    | some i =>
      if m.getLsbD 0 then .error .range
      else
        .ok (c.onHead i fun h =>
          { h with forward := ⟨m, d.toNat⟩, track := { h.track with decimation := 0 } }, [])
    | none => .error .range
  | _ => .error .malformed

def policySet (c : Cm8) (body : List Byte) : Verdict :=
  match body with
  | [p, m1, m0, w1, w0] =>
    match switchOf p with
    | some b =>
      if within 1 Config.durationMax (be2 m1 m0) && within 1 1023 (be2 w1 w0) then
        .ok ({ c with
          policy := { c.policy with onAir := if b then .block else .soften,
                                    minimum := be2 m1 m0, waitTimeout := be2 w1 w0 } }, [])
      else .error .range
    | none => .error .range
  | _ => .error .malformed

/-! ### LINE SET and LINE GET (R147, R148, R150) -/

/-- The record of a LINE SET body after the pair, when its fields are in range (R147 check 2). -/
def readSetup (m d1 d0 p b v l : Byte) : Option LineSetup :=
  match pairModeOf m, parityOf p, switchOf v with
  | some mode, some parity, some inverted =>
    if decide (be2 d1 d0 ≤ 4095) && within 1 2 b.toNat && within 2 255 l.toNat then
      some ⟨mode, be2 d1 d0, parity, decide (b.toNat = 2), inverted, l.toNat⟩
    else none
  | _, _, _ => none

/-- The configured slots of a pair. -/
def slotsOfPair (c : Cm8) (p : Fin 2) : List Slot :=
  Slot.all.filter fun i => (c.head i).isConfigured && decide ((c.head i).map.pair = p)

/-- The record is written; it takes effect on the wire at the next tick (R148). -/
def writeSetup (c : Cm8) (p : Fin 2) (l : LineSetup) : Cm8 :=
  c.setPair p { c.pair p with setup := l, relined := true }

/-- A configured slot of the pair after an accepted LINE SET (R148, R151). -/
def unlinkForLine (c : Cm8) (i : Slot) : Cm8 :=
  let wasLinked := (c.head i).isLinked
  let c := c.onHead i fun h => { h.dropRanges with link := h.link.restarted }
  if wasLinked then c.post (some i) none (.headUnlinked .line) else c

/-- A PASS queue of the pair is emptied, each frame counted in PASS_DROP (R148). -/
def dropPass (c : Cm8) (st : StoreId) : Cm8 :=
  (c.onStore st fun s => { s with pass := [] }).bumps (.line st .passDrop) (c.store st).pass.length

/-- The effect of an accepted LINE SET (R148). -/
def relineSlots (c : Cm8) (p : Fin 2) (l : LineSetup) : Cm8 :=
  let c := (c.slotsOfPair p).foldl unlinkForLine (c.writeSetup p l)
  (c.dropPass ⟨p, .a⟩).dropPass ⟨p, .b⟩

/-- Checks 3 to 5 of R147, and the effect. -/
def setLine (c : Cm8) (p : Fin 2) (l : LineSetup) : Verdict :=
  let placed := c.writeSetup p l
  if (c.slotsOfPair p).any fun i => (c.head i).isLinked && !(c.head i).activity.isHalted then
    .error .busy
  else if (c.slotsOfPair p).any placed.addressTaken then .error .range
  else if !placed.linesFit then .error .capacity
  else .ok (c.relineSlots p l, enc2 (placed.capacity p))

def lineSet (c : Cm8) (body : List Byte) : Verdict :=
  match body with
  | [p, m, d1, d0, par, b, v, l] =>
    match pairOf p, readSetup m d1 d0 par b v l with
    | some p, some setup => c.setLine p setup
    | _, _ => .error .range
  | _ => .error .malformed

/-- A line setup as a LINE SET body has it, from mode to link loss ticks (R194, R195). -/
def setupBytes (l : LineSetup) : List Byte :=
  [l.mode.code] ++ enc2 l.divisor ++
    [l.parity.code, if l.twoStop then 2#8 else 1#8, boolByte l.inverted] ++ enc1 l.lossTicks

def counterBytes (s : LineCounters) : List Byte :=
  encW s.sent ++ encW s.received ++ encW s.bad ++ encW s.stale ++ encW s.overrun ++ encW s.passDrop

/-- A line store in the reply of LINE GET; of store B of a DUPLEX pair the counters alone (R150, R195,
log entry 12). -/
def storeBytes (c : Cm8) (st : StoreId) : List Byte :=
  let s := c.store st
  if decide ((c.setup st.pair).mode = .duplex) && decide (st.line = .b) then
    [0#8, 0#8, 0#8, 0#8, 0#8, 0#8, 0#8] ++ counterBytes s.counters
  else
    [1#8] ++ enc2 (c.sendBudget st) ++ enc2 (c.reserve st) ++ enc1 s.pass.length ++
      enc1 s.roundRobin.val ++ counterBytes s.counters

def lineGet (c : Cm8) (body : List Byte) : Verdict :=
  match body with
  | [p] =>
    match pairOf p with
    | some p =>
      .ok (c.clearOnRead (storeCounters ⟨p, .a⟩ ++ storeCounters ⟨p, .b⟩),
        setupBytes (c.setup p) ++ enc2 (c.capacity p) ++ c.storeBytes ⟨p, .a⟩ ++ c.storeBytes ⟨p, .b⟩)
    | none => .error .range
  | _ => .error .malformed

/-! ### The clock (R39, R42, R43) -/

/-- Every head is OFFLINE, IDLE or HALTED (R42 check 3). -/
def clockFree (c : Cm8) : Bool :=
  Slot.all.all fun i =>
    match (c.head i).activity with
    | .offline => true
    | .idle => true
    | .halted _ => true
    | _ => false

/-- The Timebase after an accepted CLOCK SET at the present instant (R42). -/
def reclock (t : Timebase) (rate : Fin 8) : Timebase :=
  { t with
    state := .unlocked, rate := rate,
    period := nominalPeriod rate,
    reference := t.now, index := 0, remainder := 0, run := 0, lastEdge := none, phase := none }

def clockSet (c : Cm8) (body : List Byte) : Verdict :=
  match body with
  | [r] =>
    match rateOf r with
    | none => .error .range
    | some rate =>
      if !c.clockFree then .error .busy
      else if !{ c with clock := { c.clock with rate := rate } }.linesFit then .error .capacity
      else .ok ({ c with clock := reclock c.clock rate }, [])
  | _ => .error .malformed

/-- The pending time change in a reply (R195). -/
def changeBytes : Option TimeChange → List Byte
  | none => [0#8, 0#8, 0#8, 0#8, 0#8]
  | some (.set v) => 1#8 :: enc4 v
  | some (.slew s) => 2#8 :: enc4 s

/-- P̂ in four bytes; what stands there for an estimate they cannot hold is free (log entry 29). -/
def periodWord (p : Nat) : BitVec 32 := if p < 2 ^ 32 then BitVec.ofNat 32 p else Config.unfitPeriod p

/-- The read data of CLOCK GET (R43, R195). -/
def clockData (t : Timebase) : List Byte :=
  [t.state.code] ++ enc1 t.rate.val ++ enc4 (periodWord t.period) ++ enc4 t.frame ++ enc1 t.run ++
    changeBytes t.change ++ encW t.glitch

def clockGet (c : Cm8) (body : List Byte) : Verdict :=
  match body with
  | [] => .ok (c.clearOnRead [.glitch], clockData c.clock)
  | _ => .error .malformed

def setChange (c : Cm8) (x : TimeChange) : Cm8 := { c with clock := { c.clock with change := some x } }

def timeSet (c : Cm8) (body : List Byte) : Verdict :=
  match body with
  | [b3, b2, b1, b0] => .ok (c.setChange (.set (be4 b3 b2 b1 b0)), [])
  | _ => .error .malformed

def timeSlew (c : Cm8) (body : List Byte) : Verdict :=
  match body with
  | [b3, b2, b1, b0] => .ok (c.setChange (.slew (be4 b3 b2 b1 b0)), [])
  | _ => .error .malformed

/-! ### EVENT SET (R206) -/

/-- A kind mask names only codes of the seventeen kinds (R206). -/
def kindsKnown (m : BitVec 64) : Bool := m &&& ~~~everyKind = 0#64

def eventSet (c : Cm8) (body : List Byte) : Verdict :=
  match body with
  | [q, k7, k6, k5, k4, k3, k2, k1, k0, m, r] =>
    let kinds : BitVec 64 := be4 k7 k6 k5 k4 ++ be4 k3 k2 k1 k0
    match switchOf q, switchOf m, switchOf r with
    | some q, some m, some r =>
      if kindsKnown kinds then
        .ok ({ c with
          events := { c.events with
            mode := if q then .overwrite else .keep, kinds := kinds,
            counterMode := if m then .saturate else .wrap, clearOnRead := r } }, [])
      else .error .range
    | _, _, _ => .error .range
  | _ => .error .malformed

/-! ### PORT SET (R183) -/

/-- The read data of PORT SET: the new settings, and the counters before they are cleared (R195). -/
def portData (p : Port) (n : PortSettings) : List Byte :=
  enc2 n.divisor ++ [n.parity.code] ++ encW p.rxOk ++ encW p.rxBad ++ encW p.rxOverrun

/-- PORT SET: the settings go with the reply and take effect when it has gone out. -/
def portSet (c : Cm8) (body : List Byte) : Cm8 × Answer :=
  match body with
  | [d1, d0, p] =>
    match parityOf p with
    | some parity =>
      if be2 d1 d0 ≤ 4095 then
        (c.clearOnRead [.rxOk, .rxBad, .rxOverrun],
          .acceptedSettings ⟨be2 d1 d0, parity⟩ (portData c.port ⟨be2 d1 d0, parity⟩))
      else (c, .refused .range)
    | none => (c, .refused .range)
  | _ => (c, .refused .malformed)

end Cm8

/-! ### The rows -/

/-- FORWARD SET (R186). -/
def runForwardSet (body : List Byte) (c : Cm8) : Cm8 × Answer := (c.forwardSet body).settle c
def execForwardSet (tag : Byte) (body : List Byte) (s : State) : Host.Outcome State Fault Refusal :=
  .next (s.command .forwardSet tag body (runForwardSet body))

/-- LINE SET (R147, R148). -/
def runLineSet (body : List Byte) (c : Cm8) : Cm8 × Answer := (c.lineSet body).settle c
def execLineSet (tag : Byte) (body : List Byte) (s : State) : Host.Outcome State Fault Refusal :=
  .next (s.command .lineSet tag body (runLineSet body))

/-- LINE GET (R150). -/
def runLineGet (body : List Byte) (c : Cm8) : Cm8 × Answer := (c.lineGet body).settle c
def execLineGet (tag : Byte) (body : List Byte) (s : State) : Host.Outcome State Fault Refusal :=
  .next (s.command .lineGet tag body (runLineGet body))

/-- POLICY SET (R185). -/
def runPolicySet (body : List Byte) (c : Cm8) : Cm8 × Answer := (c.policySet body).settle c
def execPolicySet (tag : Byte) (body : List Byte) (s : State) : Host.Outcome State Fault Refusal :=
  .next (s.command .policySet tag body (runPolicySet body))

/-- CLOCK GET (R43). -/
def runClockGet (body : List Byte) (c : Cm8) : Cm8 × Answer := (c.clockGet body).settle c
def execClockGet (tag : Byte) (body : List Byte) (s : State) : Host.Outcome State Fault Refusal :=
  .next (s.command .clockGet tag body (runClockGet body))

/-- TIME SET (R39). -/
def runTimeSet (body : List Byte) (c : Cm8) : Cm8 × Answer := (c.timeSet body).settle c
def execTimeSet (tag : Byte) (body : List Byte) (s : State) : Host.Outcome State Fault Refusal :=
  .next (s.command .timeSet tag body (runTimeSet body))

/-- TIME SLEW (R39). -/
def runTimeSlew (body : List Byte) (c : Cm8) : Cm8 × Answer := (c.timeSlew body).settle c
def execTimeSlew (tag : Byte) (body : List Byte) (s : State) : Host.Outcome State Fault Refusal :=
  .next (s.command .timeSlew tag body (runTimeSlew body))

/-- EVENT SET (R206). -/
def runEventSet (body : List Byte) (c : Cm8) : Cm8 × Answer := (c.eventSet body).settle c
def execEventSet (tag : Byte) (body : List Byte) (s : State) : Host.Outcome State Fault Refusal :=
  .next (s.command .eventSet tag body (runEventSet body))

/-- CLOCK SET, taken at an instant of the timebase clock (R42). -/
def runClockSet (body : List Byte) (c : Cm8) : Cm8 × Answer := (c.clockSet body).settle c
def execClockSet (instant : Nat) (tag : Byte) (body : List Byte) (s : State) :
    Host.Outcome State Fault Refusal :=
  .next ((s.onPart fun c => c.reach instant).command .clockSet tag body (runClockSet body))

/-- PORT SET (R183). -/
def runPortSet (body : List Byte) (c : Cm8) : Cm8 × Answer := c.portSet body
def execPortSet (tag : Byte) (body : List Byte) (s : State) : Host.Outcome State Fault Refusal :=
  .next (s.command .portSet tag body (runPortSet body))

end Sys2Proof.Machine
end

