-- ==== Sys2Proof/Machine/Tables.lean ====
section
/-! DEFINITION. The commands on the head and axis tables and on the shot table (R2 to R14, R20 to R23,
R149, R151, R162, R164). -/

namespace Sys2Proof.Machine

/-! ### HEADMAP SET and HEADMAP GET (R3 to R5) -/

/-- What an accepted HEADMAP SET keeps and clears of a Report Tracker record (R164). -/
def Tracker.remapped (t : Tracker) : Tracker := { Tracker.reset with history := t.history }

/-- What an accepted HEADMAP SET makes of a slot's record, its queue apart (R4, R65, R151, R164). -/
def Head.remapped (h : Head) (m : HeadMap) : Head :=
  { h.dropRanges with
    map := m,
    link := if m.mask = 0#6 then h.link.switchedOff else h.link.restarted,
    activity := .offline, resumptions := 0#16, setpoint := .const 0, previous := .const 0,
    track := h.track.remapped }

namespace Cm8

/-- The effect of an accepted HEADMAP SET (R4, R162). DESIGN CHOICE (log entry 38): the grant pass runs where
the slot held a zone, as R122 lists it; R4 and R132 name no such condition. -/
def remap (c : Cm8) (i : Slot) (m : HeadMap) : Cm8 :=
  let wasLinked := (c.head i).isLinked
  let c := c.onHead i fun h => h.remapped m
  let c := if wasLinked then c.post (some i) none (.headUnlinked .map) else c
  ((c.flush i).freeOutside i 0#16).settle

/-- The checks of R3 on a record in range, and the effect. -/
def remapChecked (c : Cm8) (i : Slot) (m : HeadMap) : Verdict :=
  let placed := c.onHead i fun h => { h with map := m }
  if (c.head i).isLinked && !(c.head i).activity.isHalted then .error .busy
  else if m.mask ≠ 0#6 ∧
      ((m.line = .b ∧ (c.setup m.pair).mode = .duplex) ∨ placed.addressTaken i = true) then
    .error .range
  else if !placed.linesFit then .error .capacity
  else .ok (c.remap i m, [])

def headmapSet (c : Cm8) (body : List Byte) : Verdict :=
  match body with
  | [s, p, l, a, m] =>
    match slotOf s, pairOf p, lineOfCode l, maskOf m with
    | some s, some p, some l, some m =>
      if within 1 15 a.toNat then c.remapChecked s ⟨p, l, a, m⟩ else .error .range
    | _, _, _, _ => .error .range
  | _ => .error .malformed

/-- R5. -/
def headmapGet (c : Cm8) (body : List Byte) : Verdict :=
  match body with
  | [s] =>
    match slotOf s with
    | some i =>
      let h := c.head i
      .ok (c, [BitVec.ofNat 8 h.map.pair.val, lineByte h.map.line, h.map.address,
        h.map.mask.setWidth 8, h.link.state.code])
    | none => .error .range
  | _ => .error .malformed

/-! ### AXIS SET, AXIS RESTRICT, AXIS GET (R10, R11, R14) -/

/-- The motion states in which AXIS SET and AXIS RESTRICT are accepted (R10 check 2). -/
def axisWritable : Activity → Bool
  | .offline => true
  | .idle => true
  | .halted _ => true
  | _ => false

/-- Check 3 of R10: the entry, as if applied, keeps an IDLE setpoint inside and leaves no linked head
that is not HALTED with an empty interval. -/
def axisAllowed (h : Head) (a : Axis) (e : AxisEntry) : Bool :=
  !h.configured a ||
    (!(decide (h.activity = .idle) && !e.working.contains (h.setpoint.get a)) &&
      !(h.isLinked && !h.activity.isHalted && e.working.isEmpty))

/-- Checks 2 and 3 of R10, then the write of an axis entry. -/
def writeAxis (c : Cm8) (i : Slot) (a : Axis) (e : AxisEntry) (followCount : Nat) : Verdict :=
  let h := c.head i
  if !axisWritable h.activity then .error .busy
  else if !axisAllowed h a e then .error .range
  else .ok (c.onHead i fun h => { h with axes := h.axes.set a e, followCount := followCount }, [])

def axisSet (c : Cm8) (body : List Byte) : Verdict :=
  match body with
  | [s, a, l2, l1, l0, h2, h1, h0, v1, v0, a1, a0, j1, j0, f1, f0, n] =>
    match slotOf s, axisOf a with
    | some i, some ax =>
      let comm : Span := ⟨be3 l2 l1 l0, be3 h2 h1 h0⟩
      if comm.isEmpty || be2 v1 v0 = 0 || be2 a1 a0 = 0 || be2 j1 j0 = 0 || be2 f1 f0 = 0 ||
          !within 1 8 n.toNat then .error .range
      else
        let e := (c.head i).axes.get ax
        c.writeAxis i ax
          { e with
            comm := comm, vmax := be2 v1 v0, amax := be2 a1 a0, jogLimit := be2 j1 j0,
            followLimit := be2 f1 f0, restriction := e.restriction.map (AxisEntry.clampInto comm) }
          n.toNat
    | _, _ => .error .range
  | _ => .error .malformed

/-- AXIS RESTRICT with the interval it gives, or none to remove the restriction (R11). -/
def restrict (c : Cm8) (s a : Byte) (r : Option Span) : Verdict :=
  match slotOf s, axisOf a with
  | some i, some ax =>
    if r.any Span.isEmpty then .error .range
    else
      let e := (c.head i).axes.get ax
      c.writeAxis i ax { e with restriction := r.map (AxisEntry.clampInto e.comm) } (c.head i).followCount
  | _, _ => .error .range

def axisRestrict (c : Cm8) (body : List Byte) : Verdict :=
  match body with
  | [s, a, p] => if p.getLsbD 0 then .error .malformed else c.restrict s a none
  | [s, a, p, l2, l1, l0, h2, h1, h0] =>
    if p.getLsbD 0 then c.restrict s a (some ⟨be3 l2 l1 l0, be3 h2 h1 h0⟩) else .error .malformed
  | _ => .error .malformed

/-- The two ends of an interval in a reply; 0 and 0 when it is absent (R195). -/
def spanBytes : Option Span → List Byte
  | some i => encPos i.lo ++ encPos i.hi
  | none => encPos 0 ++ encPos 0

/-- The read data of AXIS GET (R14, R195). -/
def axisData (e : AxisEntry) (followCount : Nat) : List Byte :=
  spanBytes (some e.comm) ++ enc2 e.vmax ++ enc2 e.amax ++ enc2 e.jogLimit ++ enc2 e.followLimit ++
    enc1 followCount ++ [e.flags] ++ spanBytes e.restriction ++ spanBytes e.headRange ++
    encPos e.trim ++ spanBytes (some e.working)

def axisGet (c : Cm8) (body : List Byte) : Verdict :=
  match body with
  | [s, a] =>
    match slotOf s, axisOf a with
    | some i, some ax => .ok (c, axisData ((c.head i).axes.get ax) (c.head i).followCount)
    | _, _ => .error .range
  | _ => .error .malformed

/-! ### TRIM SET (R8) -/

/-- Writes the trims of a list. -/
def writeTrims (axes : PerAxis AxisEntry) (l : List (Axis × Int)) : PerAxis AxisEntry :=
  l.foldl (fun t p => t.set p.1 { t.get p.1 with trim := p.2 }) axes

def trimSet (c : Cm8) (body : List Byte) : Verdict :=
  match body with
  | s :: n :: rest =>
    match counted n (axisPairs rest) with
    | none => .error .malformed
    | some ps =>
      match slotOf s, trimList ps with
      | some i, some l =>
        if (c.head i).activity.isHalted || !(c.head i).isLinked then
          .ok (c.onHead i fun h => { h with axes := writeTrims h.axes l }, [])
        else .error .busy
      | _, _ => .error .range
  | _ => .error .malformed

/-! ### The shot table (R20 to R23) -/

def shotSet (c : Cm8) (body : List Byte) : Verdict :=
  match body with
  | s :: sh :: d1 :: d0 :: p :: n :: rest =>
    match counted n (axisPairs rest) with
    | none => .error .malformed
    | some ps =>
      match slotOf s, shotOf sh, profileOf p with
      | some i, some k, some q =>
        if within 1 Config.durationMax (be2 d1 d0) then
          match targetList (c.head i).map.mask ps with
          | some ts =>
            .ok (c.onHead i fun h => { h with shots := h.shots.set k (some ⟨be2 d1 d0, q, ts⟩) }, [])
          | none => .error .range
        else .error .range
      | _, _, _ => .error .range
  | _ => .error .malformed

/-- The read data of SHOT GET (R23, R195). -/
def shotData (mask : AxisMask) : Option Shot → List Byte
  | none => [0#8]
  | some r =>
    [1#8] ++ enc2 r.duration ++ [r.profile.code] ++ enc1 r.targets.length ++
      r.targets.flatMap fun t =>
        enc1 (t.1.num + if mask.getLsbD t.1.num then 128 else 0) ++ encPos t.2

def shotGet (c : Cm8) (body : List Byte) : Verdict :=
  match body with
  | [s, sh] =>
    match slotOf s, shotOf sh with
    | some i, some k => .ok (c, shotData (c.head i).map.mask (c.head i).shots[k])
    | _, _ => .error .range
  | _ => .error .malformed

/-- The number of valid records of a slot. -/
def validShots (h : Head) : Nat := (h.shots.toList.filter Option.isSome).length

def shotErase (c : Cm8) (body : List Byte) : Verdict :=
  match body with
  | [s, sh] =>
    match slotOf s with
    | none => .error .range
    | some i =>
      if sh = 0xFF#8 then
        .ok (c.onHead i fun h => { h with shots := .replicate 64 none }, enc1 (validShots (c.head i)))
      else
        match shotOf sh with
        | none => .error .range
        | some k =>
          .ok (c.onHead i fun h => { h with shots := h.shots.set k none },
            [boolByte (c.head i).shots[k].isSome])
  | _ => .error .malformed

end Cm8

/-! ### The rows -/

/-- HEADMAP SET (R3, R4). -/
def runHeadmapSet (body : List Byte) (c : Cm8) : Cm8 × Answer := (c.headmapSet body).settle c
def execHeadmapSet (tag : Byte) (body : List Byte) (s : State) : Host.Outcome State Fault Refusal :=
  .next (s.command .headmapSet tag body (runHeadmapSet body))

/-- HEADMAP GET (R5). -/
def runHeadmapGet (body : List Byte) (c : Cm8) : Cm8 × Answer := (c.headmapGet body).settle c
def execHeadmapGet (tag : Byte) (body : List Byte) (s : State) : Host.Outcome State Fault Refusal :=
  .next (s.command .headmapGet tag body (runHeadmapGet body))

/-- AXIS SET (R10). -/
def runAxisSet (body : List Byte) (c : Cm8) : Cm8 × Answer := (c.axisSet body).settle c
def execAxisSet (tag : Byte) (body : List Byte) (s : State) : Host.Outcome State Fault Refusal :=
  .next (s.command .axisSet tag body (runAxisSet body))

/-- AXIS RESTRICT (R11). -/
def runAxisRestrict (body : List Byte) (c : Cm8) : Cm8 × Answer := (c.axisRestrict body).settle c
def execAxisRestrict (tag : Byte) (body : List Byte) (s : State) : Host.Outcome State Fault Refusal :=
  .next (s.command .axisRestrict tag body (runAxisRestrict body))

/-- AXIS GET (R14). -/
def runAxisGet (body : List Byte) (c : Cm8) : Cm8 × Answer := (c.axisGet body).settle c
def execAxisGet (tag : Byte) (body : List Byte) (s : State) : Host.Outcome State Fault Refusal :=
  .next (s.command .axisGet tag body (runAxisGet body))

/-- TRIM SET (R8). -/
def runTrimSet (body : List Byte) (c : Cm8) : Cm8 × Answer := (c.trimSet body).settle c
def execTrimSet (tag : Byte) (body : List Byte) (s : State) : Host.Outcome State Fault Refusal :=
  .next (s.command .trimSet tag body (runTrimSet body))

/-- SHOT SET (R20, R21). -/
def runShotSet (body : List Byte) (c : Cm8) : Cm8 × Answer := (c.shotSet body).settle c
def execShotSet (tag : Byte) (body : List Byte) (s : State) : Host.Outcome State Fault Refusal :=
  .next (s.command .shotSet tag body (runShotSet body))

/-- SHOT GET (R23). -/
def runShotGet (body : List Byte) (c : Cm8) : Cm8 × Answer := (c.shotGet body).settle c
def execShotGet (tag : Byte) (body : List Byte) (s : State) : Host.Outcome State Fault Refusal :=
  .next (s.command .shotGet tag body (runShotGet body))

/-- SHOT ERASE (R22). -/
def runShotErase (body : List Byte) (c : Cm8) : Cm8 × Answer := (c.shotErase body).settle c
def execShotErase (tag : Byte) (body : List Byte) (s : State) : Host.Outcome State Fault Refusal :=
  .next (s.command .shotErase tag body (runShotErase body))

end Sys2Proof.Machine
end

