-- ==== Sys2Proof/Machine/Interpreter.lean ====
section
/-! DEFINITION. The Command Interpreter's dispatch of buffered frames, and the rows of the program port
(R176 to R183). -/

namespace Sys2Proof.Machine

/-- Carries out a command by its kind (R194 to R199). -/
def runKind (k : CommandKind) (tag : Byte) (body : List Byte) (c : Cm8) : Cm8 × Answer :=
  match k with
  | .headmapSet => runHeadmapSet body c
  | .headmapGet => runHeadmapGet body c
  | .axisSet => runAxisSet body c
  | .axisRestrict => runAxisRestrict body c
  | .axisGet => runAxisGet body c
  | .trimSet => runTrimSet body c
  | .shotSet => runShotSet body c
  | .shotGet => runShotGet body c
  | .shotErase => runShotErase body c
  | .zonemapSet => runZonemapSet body c
  | .zonemapGet => runZonemapGet body c
  | .zonemapClear => runZonemapClear body c
  | .forwardSet => runForwardSet body c
  | .lineSet => runLineSet body c
  | .lineGet => runLineGet body c
  | .policySet => runPolicySet body c
  | .clockSet => runClockSet body c
  | .clockGet => runClockGet body c
  | .timeSet => runTimeSet body c
  | .timeSlew => runTimeSlew body c
  | .eventSet => runEventSet body c
  | .portSet => runPortSet body c
  | .recallShot => runRecall tag body c
  | .recallInline => runRecallInline tag body c
  | .jog => runJog body c
  | .stop => runStop body c
  | .stopAll => runStopAll body c
  | .halt => runHalt body c
  | .clear => runClear body c
  | .releaseZones => runReleaseZones body c
  | .zoneMask => runZoneMask body c
  | .zoneLowest => runZoneLowest body c
  | .zoneStatus => runZoneStatus body c
  | .headStatus => runHeadStatus body c
  | .resetSoft => runResetSoft body c

/-- Carries out a frame: a kind that names no command is refused UNKNOWN (R179). -/
def carryOut (kind tag : Byte) (body : List Byte) (c : Cm8) : Cm8 × Answer :=
  match CommandKind.ofCode kind with
  | some k => runKind k tag body c
  | none => (c, .refused .unknown)

namespace Cm8

/-- Frames are taken from the receive buffer while the reply queue has a place (R178). -/
def pumpN : Nat → Cm8 → Cm8
  | 0, c => c
  | n + 1, c =>
    match c.port.buffer with
    | [] => c
    | f :: fs =>
      if c.canAnswer then
        pumpN n ({ c with port := { c.port with buffer := fs } }.answer f.kind f.tag
          (carryOut f.kind f.tag f.body))
      else c

def pump (c : Cm8) : Cm8 := pumpN c.port.buffer.length c

/-- A command frame joins the buffer with RX_OK, or is lost with RX_OVERRUN; one that the interpreter
can take at once is carried out (R177, R178). -/
def commandFrame (c : Cm8) (kind tag : Byte) (body : List Byte) : Cm8 :=
  if c.port.buffer.length < Config.receiveBufferMax then
    (c.bump .rxOk).offer kind tag body (carryOut kind tag body)
  else c.bump .rxOverrun

/-- What the end of an upstream frame brings about: the settings of a PORT SET take effect as its reply
ends, and a frame being received is discarded when they differ (R183). A frame is being received when the
row says so or when the receiver has one in progress (log entry 16). -/
def sentEffect (c : Cm8) (u : Upstream) (receiving : Bool) : Cm8 :=
  match u with
  | .reply ⟨_, _, .acceptedSettings n _⟩ =>
    let cut := decide (n ≠ c.port.settings) && (receiving || c.port.incoming.isSome)
    let c := { c with port := { c.port with settings := n } }
    if cut then { c with port := { c.port with incoming := none } }.bump .rxBad else c
  | _ => c

/-- The last character of the upstream frame goes out: its effect, the next choice, and the commands
that a free reply place lets in (R178, R180, R183). DESIGN CHOICE (log entry 36): the RX_BAD count of a frame
that a change of settings cuts, with its COUNTER record, comes before the choice. -/
def upstreamSent (c : Cm8) (receiving : Bool) : Cm8 :=
  match c.port.sending with
  | none => c
  | some u => (c.sentEffect u receiving).choose.pump

end Cm8

/-- PORT_CHARACTER_GAP_TIMEOUT: the frame in progress is discarded and counted in RX_BAD (R176). -/
def execPortCharacterGapTimeout (s : State) : Host.Outcome State Fault Refusal :=
  .next (s.row fun c => c.bump .rxBad)

/-- PORT_BAD_FRAME: every reason of R176 has the same effect. -/
def execPortBadFrame (_why : PortFault) (s : State) : Host.Outcome State Fault Refusal :=
  .next (s.row fun c => c.bump .rxBad)

/-- COMMAND_FRAME (R177, R178). -/
def execCommandFrame (instant : Nat) (kind tag : Byte) (body : List Byte) (s : State) :
    Host.Outcome State Fault Refusal :=
  .next (s.row fun c => (c.reach instant).commandFrame kind tag body)

/-- UPSTREAM_FRAME_SENT (R180, R183). -/
def execUpstreamFrameSent (instant : Nat) (receiving : Bool) (s : State) :
    Host.Outcome State Fault Refusal :=
  .next (s.row fun c => (c.reach instant).upstreamSent receiving)

/-- UNKNOWN_KIND: a command frame whose kind names no command, taken by the interpreter (R179). -/
def execUnknownKind (kind tag : Byte) (body : List Byte) (s : State) :
    Host.Outcome State Fault Refusal :=
  .next (s.row fun c => c.offer kind tag body (carryOut kind tag body))

end Sys2Proof.Machine
end

