-- ==== Sys2Proof/Machine/Dispatch.lean ====
section
/-! DEFINITION. The meaning of each command: one arm for each row of spec/opcode_table.json. -/

namespace Sys2Proof.Machine

def exec (i : Instr) (s : State) : Host.Outcome State Fault Refusal :=
  match i with
  | .powerOnReset => Sys2Proof.Machine.execPowerOnReset s
  | .bresenhamTick x => Sys2Proof.Machine.execBresenhamTick x s
  | .syncEdge t x => Sys2Proof.Machine.execSyncEdge t x s
  | .lossExpiry x => Sys2Proof.Machine.execLossExpiry x s
  | .freewheelTick x => Sys2Proof.Machine.execFreewheelTick x s
  | .jogRefreshTimeout j => Sys2Proof.Machine.execJogRefreshTimeout j s
  | .moveCompletion j => Sys2Proof.Machine.execMoveCompletion j s
  | .queueEntryStart j => Sys2Proof.Machine.execQueueEntryStart j s
  | .cuedReplaceActs j => Sys2Proof.Machine.execCuedReplaceActs j s
  | .zoneWaitTimeout j => Sys2Proof.Machine.execZoneWaitTimeout j s
  | .zoneGranted j => Sys2Proof.Machine.execZoneGranted j s
  | .linkLoss j => Sys2Proof.Machine.execLinkLoss j s
  | .pageTimeout j => Sys2Proof.Machine.execPageTimeout j s
  | .lineFrameSent st => Sys2Proof.Machine.execLineFrameSent st s
  | .lineCharacterGapTimeout st => Sys2Proof.Machine.execLineCharacterGapTimeout st s
  | .lineBadFrame st w => Sys2Proof.Machine.execLineBadFrame st w s
  | .report st a b => Sys2Proof.Machine.execReport st a b s
  | .page st a b => Sys2Proof.Machine.execPage st a b s
  | .portCharacterGapTimeout => Sys2Proof.Machine.execPortCharacterGapTimeout s
  | .portBadFrame w => Sys2Proof.Machine.execPortBadFrame w s
  | .commandFrame t k g b => Sys2Proof.Machine.execCommandFrame t k g b s
  | .directFrame j b => Sys2Proof.Machine.execDirectFrame j b s
  | .upstreamFrameSent t r => Sys2Proof.Machine.execUpstreamFrameSent t r s
  | .unknownKind k g b => Sys2Proof.Machine.execUnknownKind k g b s
  | .headmapSet g b => Sys2Proof.Machine.execHeadmapSet g b s
  | .headmapGet g b => Sys2Proof.Machine.execHeadmapGet g b s
  | .axisSet g b => Sys2Proof.Machine.execAxisSet g b s
  | .axisRestrict g b => Sys2Proof.Machine.execAxisRestrict g b s
  | .axisGet g b => Sys2Proof.Machine.execAxisGet g b s
  | .trimSet g b => Sys2Proof.Machine.execTrimSet g b s
  | .shotSet g b => Sys2Proof.Machine.execShotSet g b s
  | .shotGet g b => Sys2Proof.Machine.execShotGet g b s
  | .shotErase g b => Sys2Proof.Machine.execShotErase g b s
  | .zonemapSet g b => Sys2Proof.Machine.execZonemapSet g b s
  | .zonemapGet g b => Sys2Proof.Machine.execZonemapGet g b s
  | .zonemapClear g b => Sys2Proof.Machine.execZonemapClear g b s
  | .forwardSet g b => Sys2Proof.Machine.execForwardSet g b s
  | .lineSet g b => Sys2Proof.Machine.execLineSet g b s
  | .lineGet g b => Sys2Proof.Machine.execLineGet g b s
  | .policySet g b => Sys2Proof.Machine.execPolicySet g b s
  | .clockSet t g b => Sys2Proof.Machine.execClockSet t g b s
  | .clockGet g b => Sys2Proof.Machine.execClockGet g b s
  | .timeSet g b => Sys2Proof.Machine.execTimeSet g b s
  | .timeSlew g b => Sys2Proof.Machine.execTimeSlew g b s
  | .eventSet g b => Sys2Proof.Machine.execEventSet g b s
  | .portSet g b => Sys2Proof.Machine.execPortSet g b s
  | .recallShot g b => Sys2Proof.Machine.execRecall g b s
  | .recallInline g b => Sys2Proof.Machine.execRecallInline g b s
  | .jog g b => Sys2Proof.Machine.execJog g b s
  | .stop g b => Sys2Proof.Machine.execStop g b s
  | .stopAll g b => Sys2Proof.Machine.execStopAll g b s
  | .halt g b => Sys2Proof.Machine.execHalt g b s
  | .clear g b => Sys2Proof.Machine.execClear g b s
  | .releaseZones g b => Sys2Proof.Machine.execReleaseZones g b s
  | .zoneMask g b => Sys2Proof.Machine.execZoneMask g b s
  | .zoneLowest g b => Sys2Proof.Machine.execZoneLowest g b s
  | .zoneStatus g b => Sys2Proof.Machine.execZoneStatus g b s
  | .headStatus g b => Sys2Proof.Machine.execHeadStatus g b s
  | .resetSoft g b => Sys2Proof.Machine.execResetSoft g b s

end Sys2Proof.Machine
end

