-- ==== Sys2Proof/Machine/Reception.lean ====
section
/-! DEFINITION. Characters from outside: the receivers of the program port and of the head lines assemble
them into frames, and what they complete joins the queue of commands as its row (R144, R176; log entry
32). -/

namespace Sys2Proof.Machine

/-! ### The program port (R176) -/

/-- A new frame in progress at the port. -/
def Cm8.hearPort (c : Cm8) (taken : Option (List Byte)) : Cm8 :=
  { c with port := { c.port with incoming := taken } }

/-- A character arrives at the program port; `none` is one with a character error. `instant` is the time on
the timebase clock (R42). -/
def State.portCharacter (instant : Nat) (s : State) (char : Option Byte) : State :=
  let r := portFormat.hear s.part.port.incoming char
  { part := s.part.hearPort r.1, pending := s.pending ++ (portHeard instant r.2).toList }

/-- The gap after the last character exceeds four character times: a frame in progress is given up. -/
def State.portGap (s : State) : State :=
  match s.part.port.incoming with
  | none => s
  | some _ => { part := s.part.hearPort none, pending := s.pending ++ [.portCharacterGapTimeout] }

/-! ### A head line (R144) -/

/-- A new frame in progress at the receiver of a line. -/
def Cm8.hearLine (c : Cm8) (st : StoreId) (taken : Option (List Byte)) : Cm8 :=
  c.onStore st fun s => { s with incoming := taken }

/-- A character arrives on a line; `none` is one with a character error. What the last tick owes is done
first. A line that cannot receive ignores the character (R133, R144). -/
def State.lineCharacter (st : StoreId) (s : State) (char : Option Byte) : State :=
  let c := s.part.finish
  if c.receives st then
    let r := lineFormat.hear (c.store st).incoming char
    { part := c.hearLine st r.1, pending := s.pending ++ (lineHeard st r.2).toList }
  else s

/-- The gap after the last character exceeds four character times: a frame in progress is given up. -/
def State.lineGap (st : StoreId) (s : State) : State :=
  let c := s.part.finish
  match (c.store st).incoming with
  | none => s
  | some _ =>
    { part := c.hearLine st none, pending := s.pending ++ [.lineCharacterGapTimeout st] }

end Sys2Proof.Machine
end

