-- ==== Sys2Proof/Safety.lean ====
section
/-! DEFINITION. What counts as a safe state of the part, and the words in which statements about its
commands are made. -/

namespace Sys2Proof.Machine

/-! ### Invariants -/

/-- Every store holds no more than its rule lets it hold (R45, R142, R165, R168, R177, R178, R202). -/
structure Cm8.Bounded (c : Cm8) : Prop where
  events : c.events.queue.length ≤ 32
  dropped : c.events.dropped ≤ 255
  replies : c.port.replies.length ≤ 4
  buffer : c.port.buffer.length ≤ 4
  pass : ∀ st, (c.store st).pass.length ≤ 8
  queue : ∀ i, (c.head i).queue.length ≤ 8
  history : ∀ i, (c.head i).track.history.length ≤ 16
  run : ∀ i, (c.head i).track.run ≤ 8
  saved : ∀ i x, (c.head i).track.interval = some x → x.savedRun ≤ 8

/-- The head holds every zone of the set. -/
def Cm8.HoldsAll (c : Cm8) (i : Slot) (zs : ZoneSet) : Prop :=
  ∀ z : Zone, zs.getLsbD z.val = true → c.holder z = some i

def Work.isHandover : Work → Bool
  | .handover _ => true
  | _ => false

/-- The hand-overs of a pass stand before all other work that is owed. -/
def handoversFirst : List Work → Bool
  | [] => true
  | w :: ws => if w.isHandover then handoversFirst ws else ws.all fun v => !v.isHandover

/-- The floor is safe: a running move that is not a stop move, and a held move, have every zone that
they need (R115), a held move stands under a PRIORITY move alone (R66), and a grant that is still to
be handed over has its zones (R124, R125). -/
structure Cm8.FloorSafe (c : Cm8) : Prop where
  active : ∀ i m held, (c.head i).activity = .moving m held → m.cls ≠ .stop → c.HoldsAll i m.zones
  held : ∀ i m x, (c.head i).activity = .moving m (some x) → m.cls = .priority ∧ c.HoldsAll i x.zones
  granted : ∀ i w, .handover i ∈ c.work → (c.head i).activity = .waitZone w → c.HoldsAll i w.move.zones
  front : handoversFirst c.work = true

/-- The remainder of the Bresenham sequence is that of its index (R31). -/
def Cm8.BresenhamExact (c : Cm8) : Prop :=
  c.clock.remainder = c.clock.periodNumerator * c.clock.index % Config.rateN c.clock.rate

/-! ### Commands of the interpreter -/

/-- A command is taken as it comes: the last tick owes no work, no frame waits before the command, and
the reply queue has a place (R178). -/
structure Cm8.Ready (c : Cm8) : Prop where
  work : c.work = []
  buffer : c.port.buffer = []
  replies : c.port.replies.length < 4

/-- The part with a reply placed last in the reply queue; an idle port sends the oldest reply at once
(R178 to R180, log entry 4). -/
def Cm8.withReply (c : Cm8) (r : Reply) : Cm8 :=
  match c.port.sending with
  | some _ => { c with port := { c.port with replies := c.port.replies ++ [r] } }
  | none =>
    { c with
      port := { c.port with
        replies := (c.port.replies ++ [r]).drop 1,
        sending := (c.port.replies ++ [r]).head?.map .reply } }

/-- The state after a command whose effect leaves the part as `c` and whose answer is `a`. -/
def State.answered (s : State) (c : Cm8) (kind tag : Byte) (a : Answer) : State :=
  { s with part := c.withReply ⟨kind, tag, a⟩ }

/-- The state after an accepted command with read data. -/
def State.accepts (s : State) (c : Cm8) (kind tag : Byte) (data : List Byte) : State :=
  s.answered c kind tag (.accepted data)

/-- The state after a refused command. -/
def State.refuses (s : State) (c : Cm8) (kind tag : Byte) (why : Reason) : State :=
  s.answered c kind tag (.refused why)

/-- A head in one of the states in which a call is taken on (R48). -/
def Head.callable (h : Head) : Bool :=
  h.isLinked && !h.activity.isOffline && !h.activity.isHalted

/-! ### Bodies of commands, as R194 lays them out -/

def slotByte (i : Slot) : Byte := BitVec.ofNat 8 i.val

def axisByte (a : Axis) : Byte := BitVec.ofNat 8 a.num

/-- A list of pairs of an axis and a three-byte value. -/
def pairBytes (l : List (Axis × Int)) : List Byte := l.flatMap fun t => axisByte t.1 :: encPos t.2

/-- A list of pairs of an axis byte and a three-byte value, as a body gives it. -/
def rawPairBytes (l : List (Byte × Int)) : List Byte := l.flatMap fun t => t.1 :: encPos t.2

/-- At most six pairs, their axis numbers strictly ascending, each of a configured axis (R20, R24, R86). -/
structure ListFits (mask : AxisMask) (l : List (Byte × Int)) : Prop where
  count : l.length ≤ 6
  rising : (l.map fun t => t.1.toNat).Pairwise (· < ·)
  configured : ∀ t ∈ l, ∃ a : Axis, t.1 = axisByte a ∧ mask.getLsbD a.num = true

/-- The optional fields of a call as a body gives them (R194). -/
structure RawOptions where
  cue : Option (BitVec 32)
  duration : Option (Byte × Byte)
  profile : Option Byte

/-- A presence byte names these fields; its other bits are not read (R194). -/
def RawOptions.Named (o : RawOptions) (presence : Byte) : Prop :=
  presence.getLsbD 0 = o.cue.isSome ∧ presence.getLsbD 1 = o.duration.isSome ∧
    presence.getLsbD 2 = o.profile.isSome

def RawOptions.bytes (o : RawOptions) : List Byte :=
  ((o.cue.map enc4).getD []) ++ ((o.duration.map fun d => [d.1, d.2]).getD []) ++
    ((o.profile.map fun q => [q]).getD [])

/-- The overrides are in range (R47 step 2). -/
structure RawOptions.Fits (o : RawOptions) : Prop where
  duration : ∀ d, o.duration = some d → 1 ≤ be2 d.1 d.2 ∧ be2 d.1 d.2 ≤ 4095
  profile : ∀ q, o.profile = some q → q.toNat ≤ 1

/-- An entry of ZONEMAP SET as a body gives it: slot, zone, low and high, or the mark of an empty one. -/
def rawEntryBytes : Option (Byte × Byte × Int × Int) → List Byte
  | none => [0xFF#8]
  | some (s, z, lo, hi) => [s, z] ++ encPos lo ++ encPos hi

/-- A zone map entry of ZONEMAP SET. -/
def entryByteList : Option ZoneEntry → List Byte
  | none => [0xFF#8]
  | some e => [slotByte e.slot, BitVec.ofNat 8 e.zone.val] ++ encPos e.range.lo ++ encPos e.range.hi

def CallMode.byte : CallMode → Byte
  | .append => 0#8 | .replace => 1#8 | .priority => 2#8

def Call.presence (x : Call) : Byte := flagsByte [x.cue.isSome, x.duration.isSome, x.profile.isSome]

/-- The optional fields of a call. -/
def Call.options (x : Call) : List Byte :=
  ((x.cue.map enc4).getD []) ++ ((x.duration.map enc2).getD []) ++
    ((x.profile.map fun q => [q.code]).getD [])

/-- The row that makes a call: RECALL for a shot, RECALL INLINE for an inline list. -/
def Call.row (x : Call) (i : Slot) (mode : CallMode) : Instr :=
  match x.source with
  | .shot k =>
    .recallShot x.tag ([slotByte i, mode.byte, BitVec.ofNat 8 k.val, x.presence] ++ x.options)
  | .inline ts =>
    .recallInline x.tag
      ([slotByte i, mode.byte, x.presence] ++ x.options ++ enc1 ts.length ++ pairBytes ts)

/-- The kind byte of that row. -/
def Call.kind (x : Call) : Byte :=
  match x.source with
  | .shot _ => 0x50#8
  | .inline _ => 0x51#8

/-- A list of one to six pairs with configured axes in strictly ascending order and values that three
bytes hold (R20, R24). -/
structure TargetsFit (mask : AxisMask) (l : List (Axis × Int)) : Prop where
  count : 1 ≤ l.length ∧ l.length ≤ 6
  rising : (l.map fun t => t.1.num).Pairwise (· < ·)
  configured : ∀ t ∈ l, mask.getLsbD t.1.num = true
  values : ∀ t ∈ l, fitsPosition t.2 = true

/-- The fields of a call pass the checks of R47. -/
structure Call.Fits (x : Call) (mask : AxisMask) (mode : CallMode) : Prop where
  duration : ∀ d, x.duration = some d → 1 ≤ d ∧ d ≤ 4095
  cue : mode = .priority → x.cue = none
  targets : ∀ ts, x.source = .inline ts → TargetsFit mask ts

/-! ### Records -/

/-- The Event Unit after records posted one after the other while the frame count is `f`: a record of an
enabled kind meets the queue, and any other changes nothing (R200 to R202). -/
def EventUnit.told (u : EventUnit) (f : BitVec 32)
    (l : List (Option Slot × Option Byte × Event)) : EventUnit :=
  l.foldl (fun u x => if u.enabled x.2.2 then u.enqueue ⟨x.2.2, f, x.1, x.2.1, 0⟩ else u) u

/-- The records of a flush, head entry first (R60). -/
def flushRecords (i : Slot) (q : List QueueEntry) : List (Option Slot × Option Byte × Event) :=
  q.map fun e => (some i, some e.tag, .moveDropped (some e.source.name) .flushed)

/-- The record of a move that is dropped; a stop move has none (R61, R80). -/
def moveRecords (i : Slot) (m : Move) (why : DropReason) : List (Option Slot × Option Byte × Event) :=
  if m.cls = .stop then [] else [(some i, m.tag, .moveDropped m.source why)]

/-- The record of a held move that is dropped, where there is one (R72). -/
def heldRecords (i : Slot) (x : Option Held) (why : DropReason) :
    List (Option Slot × Option Byte × Event) :=
  (x.map fun u => (some i, u.tag, .moveDropped u.source why)).toList

/-- The records of the moves that a new move displaces: the active move and then the held move, or the waiting
move (R55, R57, R69). -/
def displacedRecords (i : Slot) : Activity → List (Option Slot × Option Byte × Event)
  | .moving m held => moveRecords i m .superseded ++ heldRecords i held .superseded
  | .waitZone w => moveRecords i w.move .superseded
  | _ => []

/-- The part `e` is the part `c` with these records posted, one head's record at `h`, and the zones of `taken`
that were free given to that head. Nothing else is changed. -/
structure Cm8.Turned (c e : Cm8) (i : Slot) (h : Head) (taken : ZoneSet)
    (records : List (Option Slot × Option Byte × Event)) : Prop where
  events : e.events = c.events.told c.clock.frame records
  head : e.head i = h
  others : ∀ j, j ≠ i → e.head j = c.head j
  holders : ∀ z : Zone, e.holder z =
    if taken.getLsbD z.val = true ∧ c.holder z = none then some i else c.holder z
  arbiter : e.arbiter.mask = c.arbiter.mask ∧ e.arbiter.lowest = c.arbiter.lowest ∧
    e.arbiter.released = c.arbiter.released
  pairs : ∀ p : Fin 2, e.pair p = c.pair p
  rest : e.clock = c.clock ∧ e.port = c.port ∧ e.policy = c.policy ∧ e.zonemap = c.zonemap ∧
    e.work = c.work

/-- A head at the start of a move that takes it over: the records of what goes are posted, the free zones of
the move are the head's and it is the active move, the zones no longer needed are freed with the passes of
that release, and MOVE_STARTED comes last (R55, R57, R69, R70, R117). -/
def Cm8.TakenOver (c d : Cm8) (i : Slot) (m : Move) (held : Option Held) (queue : List QueueEntry)
    (records : List (Option Slot × Option Byte × Event)) : Prop :=
  ∃ e : Cm8,
    c.Turned e i { c.head i with activity := .moving m held, queue := queue } m.zones records ∧
    d = ((e.recompute i).settle).post (some i) m.tag (.moveStarted m.source m.d m.flags)

/-! ### Ticks -/

/-- The part `d` is the part `c` at a tick: nothing of the tick's work is done yet, and what was owed
before it has been done. `d` owes the whole work of the tick, the pieces that the tick asks for brought
ahead (R30, R128, log entry 1), and last the records `announced`. -/
structure Cm8.Delivers (c d : Cm8) (inputs : TickInputs) (announced : List Event) : Prop where
  work : d.work = arrange inputs.order
    (Slot.all.map .timer ++ Slot.all.map .motion ++ Slot.all.map .queue ++
      (Slot.all.filter fun i =>
        inputs.tally.getLsbD i.val && !(c.finish.head i).tally).map .soften ++
      [.pass] ++ Slot.all.map .page ++ Slot.all.map .link ++
      (allStores.filter fun st => decide (st.line = .a) ||
        decide ((c.finish.pair st.pair).setup.mode = .split)).map (fun st =>
          let met := match st.pair, st.line with
            | 0, .a => inputs.line0A
            | 0, .b => inputs.line0B
            | 1, .a => inputs.line1A
            | 1, .b => inputs.line1B
          .schedule st met.sent met.receiving (c.finish.pair st.pair).relined) ++
      announced.map .announce)
  heads : ∀ i : Slot, d.head i =
    let h := c.finish.head i
    { h with
      tally := inputs.tally.getLsbD i.val
      tallyChanged := h.tallyChanged || h.tally != inputs.tally.getLsbD i.val
      track := { h.track with interval := none }
      activity := match h.activity with
        | .idle => freeActivity d.clock.frame h.queue
        | .waitCue => freeActivity d.clock.frame h.queue
        | a => a }
  events : d.events = c.finish.events.told d.clock.frame
    ((Slot.all.filter fun i =>
      (c.finish.head i).tally != inputs.tally.getLsbD i.val).map fun i =>
        (some i, none, .tally (inputs.tally.getLsbD i.val)))
  pairs : ∀ p : Fin 2, d.pair p =
    let r := c.finish.pair p
    if r.relined then
      { r with
        inForce := r.setup, relined := false,
        storeA := { r.storeA with incoming := none }, storeB := { r.storeB with incoming := none } }
    else { r with inForce := r.setup }
  rest : d.arbiter = c.finish.arbiter ∧ d.zonemap = c.finish.zonemap ∧ d.policy = c.finish.policy ∧
    d.port = c.finish.port

/-- What every tick leaves: F by R30 and R39, the time of last tick, the sampled tallies with their changed
flags (R16), and the cleared interval flags (R170), once the work that it brings is done as far as the next
event of the table and an idle port has begun to send. -/
structure Cm8.Ticked (c t : Cm8) (instant : Nat) (inputs : TickInputs) (announced : List Event) :
    Prop where
  frame : t.clock.frame =
    match c.clock.change with
    | none => c.clock.frame + 1#32
    | some (.set v) => v
    | some (.slew a) => c.clock.frame + 1#32 + a
  change : t.clock.change = none
  lastTick : t.clock.lastTick = some instant
  tally : ∀ i : Slot, (t.head i).tally = inputs.tally.getLsbD i.val
  tallyChanged : ∀ i : Slot, (t.head i).tallyChanged =
    ((c.head i).tallyChanged || (c.head i).tally != inputs.tally.getLsbD i.val)
  interval : ∀ i : Slot, (t.head i).track.interval = none
  delivered : ∃ d : Cm8, c.Delivers d inputs announced ∧ d.clock = t.clock ∧
    t = d.advance.chooseIdle

end Sys2Proof.Machine
end

