-- ==== Sys2Proof/Certificates/Slice0/Obligations.lean ====
section
/-! DEFINITION. The statements for the provers. -/

open Sys2Proof Sys2Proof.Machine

/-! ### The machine -/

/-- One step carries out the command at the front of the queue on the queue's rest. The model's choice
(log entries 4 and 11): with no command waiting and no work owed, a port that sends something is left as
it is, and an idle port begins to send what is ready. -/
def Obligations.StepTakesCommandsInOrder : Prop :=
  (∀ (i : Instr) (rest : List Instr) (s : State), s.pending = i :: rest →
    step s = exec i { s with pending := rest }) ∧
  (∀ s : State, s.pending = [] → s.part.work = [] →
    step s = .next { s with part := s.part.chooseIdle } ∧
    (∀ u, s.part.port.sending = some u → step s = .next s))

/-- Power-on reset gives the Timebase the values of R29 and every other store of the part the value that its
chapter states, whatever the part held, and leaves the commands that wait. That no frame is in progress at
the receiver of the port or of a line (incoming = none) is the model's choice: no chapter states it (log
entry 5). -/
def Obligations.PowerOnSetsEveryStore : Prop :=
  (∀ s : State, ∃ t : State, exec .powerOnReset s = .next t ∧ t.pending = s.pending ∧
    t.part.clock.state = .unlocked ∧ t.part.clock.rate = 6 ∧
    t.part.clock.period = 100000000 * Config.rateM 6 / Config.rateN 6 ∧
    t.part.clock.period = 1668333 ∧
    t.part.clock.reference = 0 ∧ t.part.clock.index = 0 ∧ t.part.clock.remainder = 0 ∧
    t.part.clock.lastTick = none ∧ t.part.clock.phase = none ∧ t.part.clock.lastEdge = none ∧
    t.part.clock.run = 0 ∧ t.part.clock.frame = 0#32 ∧ t.part.clock.change = none ∧
    t.part.clock.glitch = 0#16) ∧
  (∀ s : State, ∃ t : State, exec .powerOnReset s = .next t ∧
    (∀ i : Slot,
      let h := t.part.head i
      h.map = ⟨0, .a, 1#8, 0#6⟩ ∧
      (∀ a, h.axes.get a = ⟨⟨-8388608, 8388607⟩, 256, 4, 128, 4096, none, none, 0⟩) ∧
      h.followCount = 3 ∧ (∀ n : Fin 64, h.shots[n] = none) ∧ h.forward = ⟨0#8, 0⟩ ∧
      h.tally = false ∧ h.tallyChanged = false ∧ h.queue = [] ∧ h.activity = .offline ∧
      h.resumptions = 0#16 ∧ (∀ a, h.setpoint.get a = 0 ∧ h.previous.get a = 0) ∧ h.seq = 0#8 ∧
      h.link.state = .off ∧ h.link.pending = .none ∧ h.link.pages = 0 ∧ h.link.toggle = none ∧
      h.link.headMask = none ∧ (∀ a, h.link.gathered.get a = none) ∧ h.link.pageTimer = none ∧
      h.link.loss = 0 ∧ h.link.reported = false ∧ h.link.lostFlag = false ∧
      h.track.history = [] ∧ h.track.measured = none ∧ h.track.servoFault = false ∧
      h.track.localControl = false ∧ h.track.run = 0 ∧
      h.track.interval = none ∧ h.track.decimation = 0 ∧ h.track.upstream = none) ∧
    (∀ z : Zone, t.part.holder z = none) ∧ t.part.arbiter.mask = 0#8 ∧ t.part.arbiter.lowest = 7 ∧
    t.part.policy = ⟨.soften, 25, 250, .fixed⟩ ∧
    (∀ e : Fin 32, t.part.zonemap[e] = none) ∧
    (∀ p : Fin 2, (t.part.pair p).setup = ⟨.duplex, 63, .even, false, false, 10⟩) ∧
    (∀ st, (t.part.store st).pass = [] ∧ (t.part.store st).counters = ⟨0, 0, 0, 0, 0, 0⟩ ∧
      (t.part.store st).roundRobin = 7 ∧ (t.part.store st).incoming = none) ∧
    t.part.port.incoming = none ∧
    t.part.port.settings = ⟨127, .none⟩ ∧ t.part.port.buffer = [] ∧ t.part.port.replies = [] ∧
    t.part.port.sending = none ∧ t.part.port.lastServed = 7 ∧
    t.part.events.queue = [] ∧ t.part.events.dropped = 0 ∧ t.part.events.mode = .keep ∧
    t.part.events.counterMode = .saturate ∧ t.part.events.clearOnRead = true ∧
    (∀ e : Event, t.part.events.enabled e = true) ∧
    (∀ id, t.part.counter id = 0#16))

/-! ### Invariants of every step -/

/-- The state after reset meets the three invariants of every step: stores within their bounds, zones held
for every move that needs them, and an exact Bresenham remainder. -/
def Obligations.ResetMeetsInvariants : Prop :=
  State.reset.part.Bounded ∧ State.reset.part.FloorSafe ∧ State.reset.part.BresenhamExact

/-- Every step keeps every store within its bound, and the follow exceed run, saved values too, at most 8
(R45, R142, R165, R168, R177, R178, R202). -/
def Obligations.StepKeepsStoresBounded : Prop :=
  ∀ s t : State, s.part.Bounded → step s = .next t → t.part.Bounded

/-- Every step keeps the floor safe: running moves that are not stop moves, and held moves, hold every
zone that they need (R115). Stop moves rest on the geometry of R104 and are not in this statement. -/
def Obligations.StepKeepsFloorSafe : Prop :=
  ∀ s t : State, s.part.FloorSafe → step s = .next t → t.part.FloorSafe

/-- Every step keeps the remainder of the Bresenham sequence equal to 10^8 · M · n mod N (R31). -/
def Obligations.StepKeepsBresenhamExact : Prop :=
  ∀ s t : State, s.part.BresenhamExact → step s = .next t → t.part.BresenhamExact

/-- On a safe floor no two heads move over one zone: their active moves, stop moves apart, share none,
and neither does a held move share one with another head's move. -/
def Obligations.MovingHeadsShareNoZone : Prop :=
  ∀ (c : Cm8) (i j : Slot) (m n : Move) (x y : Option Held), c.FloorSafe → i ≠ j →
    (c.head i).activity = .moving m x → (c.head j).activity = .moving n y →
    m.cls ≠ .stop → n.cls ≠ .stop →
    m.zones &&& n.zones = 0#16 ∧ (∀ u, x = some u → u.zones &&& n.zones = 0#16) ∧
      (∀ u v, x = some u → y = some v → u.zones &&& v.zones = 0#16)

/-! ### Frames (R176, R188, R189, R193) -/

/-- A frame of the program port is read back as it was written, and arrives as the row that its address
asks for. The receiver between frames passes over everything but the marker and counts nothing; from a
marker on it takes as many characters as the length asks for, markers among them, and their row joins the
queue with the last of them; a length below 3 or above 250, a character error or a gap discards the frame
in progress, which RX_BAD's rows then count. How characters come to the block beside its rows is the
model's choice (log entry 32). -/
def Obligations.PortFrameReadsBack : Prop :=
  (∀ (f : PortFrame) (instant : Nat), f.address.toNat ≤ 8 → f.body.length ≤ 247 →
    PortFrame.decode f.encode = .ok f ∧
    (f.address = 0#8 → portArrival instant f.encode = .commandFrame instant f.kind f.tag f.body) ∧
    (∀ i : Slot, f.address = BitVec.ofNat 8 (i.val + 1) →
      portArrival instant f.encode = .directFrame i f.body)) ∧
  (∀ (s : State) (instant : Nat), s.part.port.incoming = none →
    (∀ b : Byte, b ≠ 0xC5#8 → s.portCharacter instant (some b) = s) ∧
    s.portCharacter instant none = s ∧ s.portGap = s ∧
    (∀ (len : Byte) (rest : List Byte), 3 ≤ len.toNat → len.toNat ≤ 250 →
      rest.length = len.toNat + 2 →
      let chars := 0xC5#8 :: len :: rest
      (chars.map some).foldl (State.portCharacter instant) s =
        { s with pending := s.pending ++ [portArrival instant chars] } ∧
      (∀ n : Nat, 1 ≤ n → n < chars.length →
        let t := ((chars.take n).map some).foldl (State.portCharacter instant) s
        t.pending = s.pending ∧ t.part.port.incoming = some ((chars.take n).drop 1) ∧
        t.portCharacter instant none =
          { s with pending := s.pending ++ [.portBadFrame .character] } ∧
        t.portGap = { s with pending := s.pending ++ [.portCharacterGapTimeout] })) ∧
    (∀ len : Byte, len.toNat < 3 ∨ 250 < len.toNat →
      ([0xC5#8, len].map some).foldl (State.portCharacter instant) s =
        { s with pending := s.pending ++ [.portBadFrame .length] })) ∧
  (∀ (len : Byte) (rest : List Byte) (instant : Nat), 3 ≤ len.toNat → len.toNat ≤ 250 →
    rest.length = len.toNat + 2 →
    let arrival := portArrival instant (0xC5#8 :: len :: rest)
    (rest.drop len.toNat ≠ encW (crc16 (len :: rest.take len.toNat)) →
      arrival = .portBadFrame .crc) ∧
    (rest.drop len.toNat = encW (crc16 (len :: rest.take len.toNat)) →
      ∀ a more, rest = a :: more → 8 < a.toNat → arrival = .portBadFrame .address))

/-- A REPORT and a PAGE frame of a head line arrive as the rows of their kinds, with the address and the body
that were sent; a position travels as three bytes of two's complement, high byte first, and is read back
exactly. A report laid out by R193 (the echoed number, the status with bits 0 and 1, the positions of the
slot's axes in ascending order) is read back as it was laid out. The receiver of a line that can receive takes
a frame character by character, and the frame's row joins the queue with its last character; a line that
cannot receive ignores characters. Between frames all but the marker is passed over; a length, a character
error, a gap, a CRC that does not match or a kind other than REPORT and PAGE discards the frame, which BAD's
rows then count (R144, R145). How characters come to the block beside its rows is the model's choice (log
entry 32). -/
def Obligations.HeadLineFieldsReadBack : Prop :=
  (∀ (st : StoreId) (address : Byte) (body : List Byte), body.length ≤ 58 →
    lineArrival st (LineFrame.encode ⟨address, .report, body⟩) = .report st address body ∧
    lineArrival st (LineFrame.encode ⟨address, .page, body⟩) = .page st address body) ∧
  (∀ p : Int, -8388608 ≤ p → p ≤ 8388607 → ∃ b2 b1 b0 : Byte, encPos p = [b2, b1, b0] ∧
    be3 b2 b1 b0 = p ∧
    ((b2.toNat * 65536 + b1.toNat * 256 + b0.toNat : Nat) : Int) = (if p < 0 then p + 16777216 else p)) ∧
  (∀ (mask : AxisMask) (r : Report),
    (∀ a, mask.getLsbD a.num = true → fitsPosition (r.measured.get a) = true) →
    ∃ q : Report, readReport mask ([r.echo, flagsByte [r.servoFault, r.localControl]] ++
        mask.axes.flatMap fun a => encPos (r.measured.get a)) = some q ∧
      q.echo = r.echo ∧ q.servoFault = r.servoFault ∧ q.localControl = r.localControl ∧
      ∀ a, mask.getLsbD a.num = true → q.measured.get a = r.measured.get a) ∧
  (∀ (s : State) (st : StoreId), s.part.work = [] →
    (s.part.receives st = true → (s.part.store st).incoming = none →
      (∀ f : LineFrame, f.body.length ≤ 58 →
        (f.encode.map some).foldl (State.lineCharacter st) s =
          { s with pending := s.pending ++ [lineArrival st f.encode] }) ∧
      (∀ len : Byte, len.toNat < 2 ∨ 60 < len.toNat →
        ([0xA3#8, len].map some).foldl (State.lineCharacter st) s =
          { s with pending := s.pending ++ [.lineBadFrame st .length] })) ∧
    (∀ cs : List Byte, s.part.receives st = true → (s.part.store st).incoming = some cs →
      s.lineCharacter st none =
        { s with
          part := s.part.setStore st { s.part.store st with incoming := none },
          pending := s.pending ++ [.lineBadFrame st .character] }) ∧
    (∀ char, s.part.receives st = false → s.lineCharacter st char = s) ∧
    ((s.part.store st).incoming = none →
      s.lineGap st = s ∧ s.lineCharacter st none = s ∧
      ∀ b : Byte, b ≠ 0xA3#8 → s.lineCharacter st (some b) = s) ∧
    (∀ cs : List Byte, (s.part.store st).incoming = some cs →
      s.lineGap st =
        { s with
          part := s.part.setStore st { s.part.store st with incoming := none },
          pending := s.pending ++ [.lineCharacterGapTimeout st] })) ∧
  (∀ (st : StoreId) (len : Byte) (rest : List Byte), 2 ≤ len.toNat → len.toNat ≤ 60 →
    rest.length = len.toNat + 2 →
    let arrival := lineArrival st (0xA3#8 :: len :: rest)
    (rest.drop len.toNat ≠ encW (crc16 (len :: rest.take len.toNat)) →
      arrival = .lineBadFrame st .crc) ∧
    (rest.drop len.toNat = encW (crc16 (len :: rest.take len.toNat)) →
      ∀ a k more, rest = a :: k :: more → k ≠ 0x81#8 → k ≠ 0x82#8 →
        arrival = .lineBadFrame st .kind))

/-! ### Studio time (R30 to R42) -/

/-- BRESENHAM_TICK completes in UNLOCKED: the tick of index n + 1 falls at floor(10^8 · M · (n + 1) / N)
after the reference instant, counts F, samples the tallies, and brings the work of R30 step 3: timers,
setpoints, queues, softening, a pass, page timers, loss counters and the schedule of each line. The order of
that work is the model's choice (log entry 1), and so are the ascending order of the TALLY records (log
entry 10; R16 gives none) and when an idle port begins to send (log entry 4): an asked-for piece comes
ahead, after what must come before it (R51, R76, R122), and all else keeps its place. A queue is considered
by its head's state at that moment, a wait that the tick has ended before it included (log entry 37). Work
is done piece by piece, up to the next piece that is an event of the table, whose own row does it, or to the
end by a later row, as those rows would do it, an idle port choosing after each (R180). A tick moves a
MOVING head to the next point of its path (R68), runs a jog (R87), lets an idle queue be, softens, counts
wait timers (R120), page timers (R156) and loss counters (R160), and forms schedules (R139); a pass is
judged, its grants are handed over, and passes follow until one frees nothing (R122). -/
def Obligations.BresenhamTickCounts : Prop :=
  (∀ (s : State) (x : TickInputs), s.part.clock.state = .unlocked →
    ∃ t : State, exec (.bresenhamTick x) s = .next t ∧ t.pending = s.pending ∧
      s.part.Ticked t.part
        (s.part.clock.reference + 100000000 * Config.rateM s.part.clock.rate *
          (s.part.clock.index + 1) / Config.rateN s.part.clock.rate) x [] ∧
      t.part.clock.index = s.part.clock.index + 1 ∧
      t.part.clock.state = .unlocked ∧ t.part.clock.rate = s.part.clock.rate ∧
      t.part.clock.reference = s.part.clock.reference ∧ t.part.clock.period = s.part.clock.period ∧
      t.part.clock.phase = s.part.clock.phase ∧ t.part.clock.lastEdge = s.part.clock.lastEdge ∧
      t.part.clock.run = s.part.clock.run) ∧
  (∀ ws : List Work, arrange [] ws = ws ∧
    ∀ (turn : Turn) (order : List Turn),
      let w : Work := match turn with
        | .timer i => .timer i
        | .motion i => .motion i
        | .queue i => .queue i
        | .soften i => .soften i
        | .pass => .pass
        | .page i => .page i
        | .link i => .link i
      let first (v : Work) : Bool := decide (v = w) || match v, w with
        | .motion i, .queue j => decide (i = j)
        | .motion i, .soften j => decide (i = j)
        | .queue i, .soften j => decide (i = j)
        | .timer _, .pass => true
        | _, _ => false
      (w ∈ ws → arrange (turn :: order) ws =
        ws.filter first ++ arrange order (ws.filter fun v => !first v)) ∧
      (w ∉ ws → arrange (turn :: order) ws = arrange order ws) ∧
      (arrange (turn :: order) ws).Perm ws) ∧
  (∀ c : Cm8, (c.work = [] → c.advance = c ∧ c.finish = c) ∧ c.finish.work = [] ∧
    ∀ w ws, c.work = w :: ws →
      let d := { c with work := ws }.runWork w
      c.finish = d.advance.chooseIdle.finish ∧ (c.due w = true → c.advance = c) ∧
      (c.due w = false → c.advance = d.advance)) ∧
  (∀ (s : State) (w : Work) (ws : List Work) (i : Slot), s.part.work = w :: ws →
    s.part.due w = true → .motion i ∉ ws →
    let c := s.part
    let done : Host.Outcome State Fault Refusal :=
      .next { s with part := ({ c with work := ws }.runWork w).advance.chooseIdle }
    (w = .motion i → (exec (.moveCompletion i) s = done ∨ exec (.jogRefreshTimeout i) s = done)) ∧
    (w = .queue i → (exec (.queueEntryStart i) s = done ∨ exec (.cuedReplaceActs i) s = done)) ∧
    (w = .timer i → exec (.zoneWaitTimeout i) s = done) ∧
    (w = .handover i → exec (.zoneGranted i) s = done) ∧
    (w = .page i → exec (.pageTimeout i) s = done) ∧
    (w = .link i → exec (.linkLoss i) s = done)) ∧
  (∀ (c : Cm8) (i : Slot),
    let h := c.head i
    (c.due (.motion i) = true ↔ (∃ m held, h.activity = .moving m held ∧ m.d ≤ m.k + 1) ∨
      ∃ j, h.activity = .jogging j ∧ j.refresh = 11) ∧
    (∀ m held, h.activity = .moving m held → m.k + 1 < m.d →
      c.runWork (.motion i) = c.setHead i { h with
        activity := .moving { m with k := m.k + 1 } held
        previous := .gen fun a => if h.configured a then h.setpoint.get a else h.previous.get a
        setpoint := .gen fun a =>
          if h.configured a then h.pathPoint m (m.k + 1) a else h.setpoint.get a }) ∧
    (∀ j, h.activity = .jogging j →
      c.runWork (.motion i) = { c with work := c.work.erase (.queue i) }.jogTick i j) ∧
    (h.activity.active = none → (∀ j, h.activity ≠ .jogging j) → c.runWork (.motion i) = c) ∧
    (c.due (.queue i) = true ↔ ∃ e rest, h.queue = e :: rest ∧
      (∀ cue, e.cue = some cue → cueCome c.clock.frame cue = true) ∧
      (h.activity = .idle ∨ h.activity = .waitCue ∨ (e.rule = .cuedReplace ∧
        ((∃ w, h.activity = .waitZone w) ∨ ∃ m held, h.activity = .moving m held ∧ m.cls ≠ .stop)))) ∧
    (c.due (.queue i) = false → c.runWork (.queue i) = c) ∧
    c.runWork (.soften i) = c.softenStep i ∧
    (c.due (.timer i) = true ↔
      ∃ w, h.activity = .waitZone w ∧ w.fresh = false ∧ c.policy.waitTimeout ≤ w.timer + 1) ∧
    (∀ w, h.activity = .waitZone w →
      (w.fresh = true →
        c.runWork (.timer i) = c.setActivity i (.waitZone { w with fresh := false })) ∧
      (w.fresh = false → w.timer + 1 < c.policy.waitTimeout →
        c.runWork (.timer i) = c.setActivity i (.waitZone { w with timer := w.timer + 1 }))) ∧
    (h.activity.waiting = none → c.runWork (.timer i) = c) ∧
    (c.due (.page i) = true ↔ ∃ n, h.link.pageTimer = some n ∧ 16 ≤ n + 1) ∧
    (∀ n, h.link.pageTimer = some n → n + 1 < 16 → c.runWork (.page i) =
      c.setHead i { h with link := { h.link with pageTimer := some (n + 1) } }) ∧
    (h.link.pageTimer = none → c.runWork (.page i) = c) ∧
    (c.due (.link i) = true ↔ h.link.state = .linked ∧
      (c.pair h.map.pair).setup.lossTicks ≤ h.link.loss + 1) ∧
    (h.link.state = .linked → h.link.loss + 1 < (c.pair h.map.pair).setup.lossTicks →
      c.runWork (.link i) = c.setHead i { h with link := { h.link with loss := h.link.loss + 1 } }) ∧
    (h.link.state ≠ .linked → c.runWork (.link i) = c) ∧
    c.due (.handover i) = true ∧ c.runWork (.handover i) = c.handGrant i) ∧
  (∀ (c : Cm8) (st : StoreId) (sent : Nat) (receiving relined : Bool) (e : Event),
    (∀ w ∈ [Work.pass, .settle, .schedule st sent receiving relined, .announce e],
      c.due w = false) ∧
    (∀ i, c.due (.soften i) = false) ∧
    c.runWork .pass = { c.judgePass.1 with
      work := c.judgePass.2.map .handover ++ .settle :: c.work } ∧
    c.runWork .settle = c.settle ∧
    c.runWork (.schedule st sent receiving relined) = c.formSchedule st sent receiving relined ∧
    c.runWork (.announce e) = c.post none none e)

/-- SYNC_EDGE in LOCKED. With an interval inside the window the edge makes a tick, becomes the phase
reference, and moves P̂ by round((I − P̂) / 8), and the loss expiry is timed from it. With an interval
outside the window it is a glitch: GLITCH is incremented by the counter mode (R34, R203), no tick is made,
and P̂ and the phase reference stand. The order of the tick's work, the ascending order of its TALLY
records, and when an idle port begins to send are the model's choice (log entries 1, 10 and 4). -/
def Obligations.LockedEdgeTicksOrGlitches : Prop :=
  (∀ (s : State) (instant r : Nat) (x : TickInputs), s.part.clock.state = .locked →
    s.part.clock.phase = some r →
    let p := s.part.clock.period
    let i : Int := (instant : Int) - r
    (p : Int) - (p / 16 : Nat) ≤ i → i ≤ p + (p / 16 : Nat) →
    ∃ t : State, exec (.syncEdge instant x) s = .next t ∧ t.pending = s.pending ∧
      s.part.Ticked t.part instant x [] ∧
      t.part.clock.state = .locked ∧ t.part.clock.phase = some instant ∧
      (t.part.clock.period : Int) = p + roundDiv (i - p) 8 ∧
      t.part.clock.lastEdge = some instant ∧ t.part.clock.rate = s.part.clock.rate ∧
      (∀ y, ∃ u : State, exec (.lossExpiry y) t = .next u ∧
        u.part.clock.lastTick = some (instant + t.part.clock.period + t.part.clock.period / 8))) ∧
  (∀ (s : State) (instant r : Nat) (x : TickInputs), s.part.clock.state = .locked →
    s.part.clock.phase = some r →
    let p := s.part.clock.period
    let i : Int := (instant : Int) - r
    (i < p - (p / 16 : Nat) ∨ p + (p / 16 : Nat) < i) →
    ∃ t : State, exec (.syncEdge instant x) s = .next t ∧ t.pending = s.pending ∧
      t.part.clock.state = .locked ∧ t.part.clock.phase = some r ∧ t.part.clock.period = p ∧
      t.part.clock.lastTick = s.part.clock.lastTick ∧ t.part.clock.frame = s.part.clock.frame ∧
      t.part.clock.change = s.part.clock.change ∧ t.part.clock.lastEdge = some instant ∧
      t.part.clock.glitch =
        (if s.part.clock.glitch = 0xFFFF#16 then
          (match s.part.events.counterMode with | .wrap => 0#16 | .saturate => 0xFFFF#16)
        else s.part.clock.glitch + 1#16))

/-- SYNC_EDGE in UNLOCKED and FREEWHEEL: the first edge only becomes the time of last edge; an interval
outside the window clears the run, one inside it adds one; an edge that brings the run to 4 locks, posts
SYNC_LOCKED, and makes a tick exactly when the last tick is at least floor(P̂/2) back; the record then ends
the work of that tick, a place that is the model's choice (log entry 1). That a locking edge with no tick
before it makes one is the model's choice too (log entry 9), and so are the ascending order of the TALLY
records of that tick (log entry 10) and when an idle port begins to send (log entry 4). -/
def Obligations.SearchingEdgeBuildsLock : Prop :=
  ∀ (s : State) (instant : Nat) (x : TickInputs), s.part.clock.state ≠ .locked →
    let k := s.part.clock
    ∃ t : State, exec (.syncEdge instant x) s = .next t ∧ t.pending = s.pending ∧
      t.part.clock.lastEdge = some instant ∧ t.part.clock.period = k.period ∧
      t.part.clock.rate = k.rate ∧ t.part.clock.glitch = k.glitch ∧
      match k.lastEdge with
      | none =>
        t.part.clock.state = k.state ∧ t.part.clock.run = k.run ∧ t.part.clock.phase = k.phase ∧
          t.part.clock.frame = k.frame ∧ t.part.clock.lastTick = k.lastTick
      | some e =>
        let i : Int := (instant : Int) - e
        if (k.period : Int) - (k.period / 16 : Nat) ≤ i ∧ i ≤ k.period + (k.period / 16 : Nat) then
          if k.run + 1 < 4 then
            t.part.clock.state = k.state ∧ t.part.clock.run = k.run + 1 ∧
              t.part.clock.phase = k.phase ∧ t.part.clock.frame = k.frame ∧
              t.part.clock.lastTick = k.lastTick
          else
            t.part.clock.state = .locked ∧ t.part.clock.run = 0 ∧
            t.part.clock.phase = some instant ∧
            match k.lastTick with
            | none => s.part.Ticked t.part instant x [.syncLocked]
            | some l =>
              if ((k.period / 2 : Nat) : Int) ≤ (instant : Int) - l then
                s.part.Ticked t.part instant x [.syncLocked]
              else t.part.clock.frame = k.frame ∧ t.part.clock.lastTick = some l ∧
                t.part.clock.change = k.change ∧
                t.part = ({ s.part.finish with clock := t.part.clock }.post none none
                  .syncLocked).chooseIdle
        else
          t.part.clock.state = k.state ∧ t.part.clock.run = 0 ∧ t.part.clock.phase = k.phase ∧
            t.part.clock.frame = k.frame ∧ t.part.clock.lastTick = k.lastTick

/-- LOSS_EXPIRY completes in LOCKED: the clock goes to FREEWHEEL with a tick P̂ + floor(P̂/8) after the
phase reference, and SYNC_LOST is posted as the last of the tick's work, a place that is the model's choice
(log entry 1). FREEWHEEL_TICK completes in FREEWHEEL: a tick P̂ after the tick before, with P̂ unchanged.
The order of the rest of the tick's work, the ascending order of its TALLY records, and when an idle port
begins to send are the model's choice (log entries 1, 10 and 4). -/
def Obligations.FreewheelKeepsTime : Prop :=
  (∀ (s : State) (r : Nat) (x : TickInputs), s.part.clock.state = .locked →
    s.part.clock.phase = some r →
    ∃ t : State, exec (.lossExpiry x) s = .next t ∧ t.pending = s.pending ∧
      s.part.Ticked t.part (r + s.part.clock.period + s.part.clock.period / 8) x [.syncLost] ∧
      t.part.clock.state = .freewheel ∧ t.part.clock.run = 0 ∧
      t.part.clock.period = s.part.clock.period ∧ t.part.clock.lastEdge = s.part.clock.lastEdge) ∧
  (∀ (s : State) (l : Nat) (x : TickInputs), s.part.clock.state = .freewheel →
    s.part.clock.lastTick = some l →
    ∃ t : State, exec (.freewheelTick x) s = .next t ∧ t.pending = s.pending ∧
      s.part.Ticked t.part (l + s.part.clock.period) x [] ∧
      t.part.clock.state = .freewheel ∧ t.part.clock.period = s.part.clock.period ∧
      t.part.clock.run = s.part.clock.run ∧ t.part.clock.lastEdge = s.part.clock.lastEdge)

/-- TIME SET and TIME SLEW: a body of the wrong length is refused MALFORMED; any other is accepted in every
state, and the change replaces whatever was pending and acts at the next tick. Where the reply stands is
the model's choice (log entries 4 and 15). -/
def Obligations.TimeChangeWaitsForTick : Prop :=
  ∀ (s : State) (tag : Byte), s.part.Ready →
    (∀ body : List Byte, body.length ≠ 4 →
      exec (.timeSet tag body) s = .next (s.refuses s.part 0x3A#8 tag .malformed) ∧
      exec (.timeSlew tag body) s = .next (s.refuses s.part 0x3B#8 tag .malformed)) ∧
    (∀ b3 b2 b1 b0 : Byte,
      exec (.timeSet tag [b3, b2, b1, b0]) s = .next (s.accepts
        { s.part with clock := { s.part.clock with change := some (.set (b3 ++ b2 ++ b1 ++ b0)) } }
        0x3A#8 tag []) ∧
      exec (.timeSlew tag [b3, b2, b1, b0]) s = .next (s.accepts
        { s.part with clock := { s.part.clock with change := some (.slew (b3 ++ b2 ++ b1 ++ b0)) } }
        0x3B#8 tag [])) ∧
    (∀ (c : Cm8) (instant : Nat),
      (c.countFrame instant).clock.change = none ∧
      (∀ v, c.clock.change = some (.set v) → (c.countFrame instant).clock.frame = v) ∧
      (∀ a, c.clock.change = some (.slew a) →
        (c.countFrame instant).clock.frame.toNat =
          (((c.clock.frame.toNat : Int) + 1 + a.toInt) % 4294967296).toNat) ∧
      (c.clock.change = none → (c.countFrame instant).clock.frame = c.clock.frame + 1#32))

/-- A cue c has come when (F − c) mod 2^32 is less than 2^31, and is late when it has come and F differs
from it. -/
def Obligations.CueComesInHalfCircle : Prop :=
  ∀ f cue : BitVec 32,
    (cueCome f cue = true ↔ ((f.toNat : Int) - cue.toNat) % 4294967296 < 2147483648) ∧
    (Cm8.lateBy f (some cue) = true ↔ f ≠ cue) ∧ Cm8.lateBy f none = false ∧
    (f = cue → cueCome f cue = true)

/-- CLOCK SET completes when every head is OFFLINE, IDLE or HALTED and every line fits the new rate: the
Timebase restarts in UNLOCKED at the instant of the command, and keeps F, the pending change, the time of
last tick and GLITCH. Else it is refused, first RANGE for a code above 7, then BUSY, then CAPACITY. That an
instant before the latest one that the clock has reached counts as that one is the model's choice (log entry
16). CLOCK GET replies with the Timebase and, with clear-on-read on, sets GLITCH to 0 afterwards; four bytes
that cannot hold P̂ are free (log entry 29). Where the reply stands is the model's choice (log entries 4 and
15). -/
def Obligations.ClockCommands : Prop :=
  (∀ (s : State) (instant : Nat) (tag : Byte) (rate : Fin 8), s.part.Ready →
    (∀ i : Slot, (s.part.head i).activity = .offline ∨ (s.part.head i).activity = .idle ∨
      ∃ w, (s.part.head i).activity = .halted w) →
    { s.part with clock := { s.part.clock with rate := rate } }.linesFit = true →
    exec (.clockSet instant tag [BitVec.ofNat 8 rate.val]) s = .next (s.accepts
      { s.part with
        clock := { s.part.clock with
          state := .unlocked, rate := rate,
          period := 100000000 * Config.rateM rate / Config.rateN rate,
          reference := max s.part.clock.now instant, now := max s.part.clock.now instant,
          index := 0, remainder := 0, run := 0, lastEdge := none, phase := none } }
      0x38#8 tag [])) ∧
  (∀ (s : State) (tag : Byte) (period : BitVec 32), s.part.Ready →
    (s.part.clock.period < 4294967296 → period.toNat = s.part.clock.period) →
    (4294967296 ≤ s.part.clock.period → period = Config.unfitPeriod s.part.clock.period) →
    let k := s.part.clock
    exec (.clockGet tag []) s = .next (s.accepts
      (if s.part.events.clearOnRead then { s.part with clock := { k with glitch := 0#16 } } else s.part)
      0x39#8 tag
      ((match k.state with | .unlocked => [0#8] | .locked => [1#8] | .freewheel => [2#8]) ++
        [BitVec.ofNat 8 k.rate.val] ++ enc4 period ++ enc4 k.frame ++
        [BitVec.ofNat 8 k.run] ++
        (match k.change with
          | none => [0#8, 0#8, 0#8, 0#8, 0#8]
          | some (.set v) => 1#8 :: enc4 v
          | some (.slew a) => 2#8 :: enc4 a) ++ encW k.glitch)) ∧
    (∀ body : List Byte, body ≠ [] →
      exec (.clockGet tag body) s = .next (s.refuses s.part 0x39#8 tag .malformed))) ∧
  (∀ (s : State) (instant : Nat) (tag : Byte), s.part.Ready →
    let c := { s.part with clock := { s.part.clock with now := max s.part.clock.now instant } }
    let free := ∀ i : Slot, (c.head i).activity = .offline ∨ (c.head i).activity = .idle ∨
      ∃ w, (c.head i).activity = .halted w
    (∀ b : Byte, 8 ≤ b.toNat →
      exec (.clockSet instant tag [b]) s = .next (s.refuses c 0x38#8 tag .range)) ∧
    (∀ rate : Fin 8,
      let row := Instr.clockSet instant tag [BitVec.ofNat 8 rate.val]
      (¬ free → exec row s = .next (s.refuses c 0x38#8 tag .busy)) ∧
      (free → { c with clock := { c.clock with rate := rate } }.linesFit = false →
        exec row s = .next (s.refuses c 0x38#8 tag .capacity))))

/-! ### Commands in general (R178, R179) -/

/-- Every command of the interpreter that finds the part ready is carried out and receives exactly one reply
with its kind and its tag; a refusal leaves everything else of the part as it was, but for the effects
that R84 gives to a refused CLEAR. Where the reply stands is the model's choice (log entries 4 and 15). -/
def Obligations.EveryCommandAnsweredOnce : Prop :=
  ∀ (s : State) (k : CommandKind) (tag : Byte) (body : List Byte), s.part.Ready →
    ∃ (c : Cm8) (a : Answer),
      exec (commandRow s.part.clock.now k tag body) s = .next (s.answered c k.code tag a) ∧
      (c, a) = runKind k tag body s.part ∧
      (k ≠ .clear → ∀ why, a = .refused why → c = s.part)

/-- A body whose length is not that of a command with fixed fields is refused MALFORMED, whatever the part
holds; so is one whose length disagrees with the presence bits of AXIS RESTRICT, RECALL and RECALL INLINE,
with the count of TRIM SET, SHOT SET, JOG and RECALL INLINE, or with the count and the empty marks of
ZONEMAP SET. UNKNOWN_KIND completes: a command frame whose kind names no command is answered with a reply of
that kind, refused UNKNOWN, and the part is otherwise as it was. Where the reply stands is the model's
choice (log entries 4 and 15). -/
def Obligations.BadCommandsRefused : Prop :=
  (∀ (c : Cm8) (tag : Byte) (body : List Byte) (k : CommandKind) (n : Nat),
    (k, n) ∈ [(CommandKind.headmapSet, 5), (.headmapGet, 1), (.axisSet, 17), (.axisGet, 2),
      (.shotGet, 2), (.shotErase, 2), (.zonemapGet, 2), (.zonemapClear, 0), (.forwardSet, 3),
      (.lineSet, 8), (.lineGet, 1), (.policySet, 5), (.clockSet, 1), (.clockGet, 0), (.timeSet, 4),
      (.timeSlew, 4), (.eventSet, 11), (.portSet, 3), (.stop, 1), (.stopAll, 0), (.halt, 1),
      (.clear, 1), (.releaseZones, 1), (.zoneMask, 1), (.zoneLowest, 2), (.zoneStatus, 1),
      (.headStatus, 1), (.resetSoft, 0)] →
    body.length ≠ n → runKind k tag body c = (c, .refused .malformed)) ∧
  (∀ (s : State) (kind tag : Byte) (body : List Byte), s.part.Ready →
    (∀ k : CommandKind, k.code ≠ kind) →
    exec (.unknownKind kind tag body) s = .next (s.refuses s.part kind tag .unknown)) ∧
  (∀ (c : Cm8) (tag : Byte),
    let bad (k : CommandKind) (body : List Byte) : Prop := runKind k tag body c = (c, .refused .malformed)
    let options (p : Byte) : Nat := (if p.getLsbD 0 then 4 else 0) + (if p.getLsbD 1 then 2 else 0) +
      if p.getLsbD 2 then 1 else 0
    (∀ body : List Byte, body.length < 3 → bad .axisRestrict body) ∧
    (∀ (s a p : Byte) (rest : List Byte), rest.length ≠ (if p.getLsbD 0 then 6 else 0) →
      bad .axisRestrict (s :: a :: p :: rest)) ∧
    (∀ (k : CommandKind) (m : Nat), (k, m) ∈ [(CommandKind.trimSet, 1), (.jog, 1), (.shotSet, 5)] →
      (∀ body : List Byte, body.length ≤ m → bad k body) ∧
      (∀ (fields rest : List Byte) (n : Byte), fields.length = m → rest.length ≠ 4 * n.toNat →
        bad k (fields ++ n :: rest))) ∧
    (∀ body : List Byte, body.length ≤ 1 → bad .zonemapSet body) ∧
    (∀ (start n : Byte) (rest : List Byte),
      (∀ es : List (List Byte), es.length = n.toNat →
        (∀ e ∈ es, e = [0xFF#8] ∨ (e.length = 8 ∧ e.head? ≠ some 0xFF#8)) → rest ≠ es.flatten) →
      bad .zonemapSet (start :: n :: rest)) ∧
    (∀ body : List Byte, body.length < 4 → bad .recallShot body) ∧
    (∀ (s m k p : Byte) (rest : List Byte), rest.length ≠ options p →
      bad .recallShot (s :: m :: k :: p :: rest)) ∧
    (∀ body : List Byte, body.length < 3 → bad .recallInline body) ∧
    (∀ (s m p : Byte) (rest : List Byte), rest.length ≤ options p →
      bad .recallInline (s :: m :: p :: rest)) ∧
    (∀ (s m p n : Byte) (fields rest : List Byte), fields.length = options p →
      rest.length ≠ 4 * n.toNat → bad .recallInline (s :: m :: p :: (fields ++ n :: rest))))

/-! ### Heads and axes (R2 to R14) -/

/-- HEADMAP GET replies with the record and the link state, and AXIS GET with every layer of an axis; they
change nothing, and a slot or an axis out of range is refused RANGE. The working interval that AXIS GET
shows is what the layers that are present all allow: a position lies in it exactly when it lies in the
commissioned interval, in the restriction, and in the head range less the trim (R13). Where the reply
stands is the model's choice (log entries 4 and 15). -/
def Obligations.HeadTablesRead : Prop :=
  (∀ (s : State) (tag b : Byte), s.part.Ready →
    (∀ i : Slot, b = slotByte i →
      let h := s.part.head i
      exec (.headmapGet tag [b]) s = .next (s.accepts s.part 0x11#8 tag
        [BitVec.ofNat 8 h.map.pair.val, if h.map.line = .a then 0#8 else 1#8, h.map.address,
          h.map.mask.setWidth 8,
          match h.link.state with | .off => 0#8 | .probe => 1#8 | .exchange => 2#8 | .linked => 3#8])) ∧
    (8 ≤ b.toNat → exec (.headmapGet tag [b]) s = .next (s.refuses s.part 0x11#8 tag .range))) ∧
  (∀ (s : State) (tag : Byte), s.part.Ready →
    (∀ (i : Slot) (a : Axis),
      let h := s.part.head i
      let e := h.axes.get a
      let ends (r : Option Span) : List Byte :=
        match r with
        | some r => encPos r.lo ++ encPos r.hi
        | none => encPos 0 ++ encPos 0
      exec (.axisGet tag [slotByte i, axisByte a]) s = .next (s.accepts s.part 0x14#8 tag
        (encPos e.comm.lo ++ encPos e.comm.hi ++ enc2 e.vmax ++ enc2 e.amax ++ enc2 e.jogLimit ++
          enc2 e.followLimit ++ [BitVec.ofNat 8 h.followCount] ++
          [flagsByte [e.restriction.isSome, e.headRange.isSome,
            decide (e.working.hi < e.working.lo)]] ++
          ends e.restriction ++ ends e.headRange ++ encPos e.trim ++
          encPos e.working.lo ++ encPos e.working.hi))) ∧
    (∀ b d : Byte, 8 ≤ b.toNat ∨ 6 ≤ d.toNat →
      exec (.axisGet tag [b, d]) s = .next (s.refuses s.part 0x14#8 tag .range))) ∧
  (∀ (e : AxisEntry) (p : Int),
    (e.working.contains p = true ↔
      e.comm.lo ≤ p ∧ p ≤ e.comm.hi ∧
      (∀ r, e.restriction = some r → r.lo ≤ p ∧ p ≤ r.hi) ∧
      (∀ r, e.headRange = some r → r.lo ≤ p + e.trim ∧ p + e.trim ≤ r.hi)) ∧
    e.comm.lo ≤ e.working.lo ∧ e.working.hi ≤ e.comm.hi)

/-- HEADMAP SET completes when its fields are in range, the slot is not a LINKED head outside HALTED, its
line and address are free, and every line fits; else it is refused with the first reason of R3 that applies,
RANGE, BUSY, RANGE or CAPACITY. The second part says what it makes of its slot (R4, R151, R164), and that it
changes no other slot's record, tables or setpoint. HEAD_UNLINKED with reason MAP is posted for a slot that
was LINKED (R162), then the records of the flush, and a pass runs when a zone was freed, by R122; R4 and
R132 name no such condition, and that choice is the model's (log entry 38). That HEAD_UNLINKED comes before
the flush, and where the reply stands, is the model's choice (log entries 4, 10 and 15). -/
def Obligations.HeadmapSetRestartsSlot : Prop :=
  (∀ (s : State) (tag : Byte) (i : Slot) (m : HeadMap), s.part.Ready →
    1 ≤ m.address.toNat → m.address.toNat ≤ 15 →
    ((s.part.head i).link.state = .linked → ∃ w, (s.part.head i).activity = .halted w) →
    let placed := s.part.onHead i fun h => { h with map := m }
    (m.mask ≠ 0#6 →
      (m.line = .b → (s.part.pair m.pair).setup.mode = .split) ∧
      (∀ j : Slot, j ≠ i → (placed.head j).map.mask ≠ 0#6 → placed.lineOf j = placed.lineOf i →
        (placed.head j).map.address ≠ m.address)) →
    placed.linesFit = true →
    exec (.headmapSet tag [slotByte i, BitVec.ofNat 8 m.pair.val,
        if m.line = .a then 0#8 else 1#8, m.address, m.mask.setWidth 8]) s =
      .next (s.accepts (s.part.remap i m) 0x10#8 tag [])) ∧
  (∀ (c : Cm8) (i : Slot) (m : HeadMap),
    let h := c.head i
    let t := (c.remap i m).head i
    t.map = m ∧ t.activity = .offline ∧ t.queue = [] ∧ t.resumptions = 0#16 ∧
    (∀ a, t.setpoint.get a = 0 ∧ t.previous.get a = 0) ∧
    (∀ a, t.axes.get a = { h.axes.get a with headRange := none }) ∧
    t.link.state = (if m.mask = 0#6 then .off else .probe) ∧
    t.link.pending = (if m.mask = 0#6 then .none else .probe) ∧
    t.link.pages = 0 ∧ t.link.toggle = none ∧ t.link.headMask = none ∧ t.link.pageTimer = none ∧
    t.link.loss = 0 ∧ t.link.reported = false ∧ t.link.lostFlag = h.link.lostFlag ∧
    t.track.history = h.track.history ∧ t.track.measured = none ∧ t.track.run = 0 ∧
    t.track.servoFault = false ∧ t.track.localControl = false ∧
    t.track.interval = none ∧ t.track.decimation = 0 ∧ t.track.upstream = none ∧
    (∃ d : Cm8, c.remap i m = d.settle ∧ d.head i = t ∧
      d.events = c.events.told c.clock.frame
        ((if h.link.state = .linked then [(some i, none, Event.headUnlinked .map)] else []) ++
          flushRecords i h.queue) ∧
      (∀ z : Zone, d.holder z = if c.holder z = some i then none else c.holder z) ∧
      (d.arbiter.released = true ↔
        c.arbiter.released = true ∨ ∃ z : Zone, c.holder z = some i)) ∧
    t.seq = h.seq ∧ t.tally = h.tally ∧ t.tallyChanged = h.tallyChanged ∧ t.shots = h.shots ∧
    t.forward = h.forward ∧ t.followCount = h.followCount ∧
    (∀ z : Zone, (c.remap i m).holder z ≠ some i) ∧
    (∀ j : Slot, j ≠ i →
      let o := c.head j
      let u := (c.remap i m).head j
      u.map = o.map ∧ u.axes = o.axes ∧ u.shots = o.shots ∧ u.forward = o.forward ∧
        u.setpoint = o.setpoint ∧ u.previous = o.previous ∧ u.link = o.link ∧ u.track = o.track ∧
        u.queue = o.queue ∧ u.seq = o.seq) ∧
    (c.remap i m).clock = c.clock ∧ (c.remap i m).port = c.port ∧
    (c.remap i m).zonemap = c.zonemap ∧ (c.remap i m).policy = c.policy ∧
    (c.remap i m).pair0 = c.pair0 ∧ (c.remap i m).pair1 = c.pair1) ∧
  (∀ (s : State) (tag b p l a m : Byte), s.part.Ready →
    (8 ≤ b.toNat ∨ 2 ≤ p.toNat ∨ 2 ≤ l.toNat ∨ a = 0#8 ∨ 16 ≤ a.toNat ∨ 64 ≤ m.toNat) →
    exec (.headmapSet tag [b, p, l, a, m]) s = .next (s.refuses s.part 0x10#8 tag .range)) ∧
  (∀ (s : State) (tag : Byte) (i : Slot) (m : HeadMap), s.part.Ready →
    1 ≤ m.address.toNat → m.address.toNat ≤ 15 →
    let placed := s.part.onHead i fun h => { h with map := m }
    let refused (why : Reason) : Prop :=
      exec (.headmapSet tag [slotByte i, BitVec.ofNat 8 m.pair.val,
        if m.line = .a then 0#8 else 1#8, m.address, m.mask.setWidth 8]) s =
          .next (s.refuses s.part 0x10#8 tag why)
    let busy := (s.part.head i).link.state = .linked ∧ ∀ w, (s.part.head i).activity ≠ .halted w
    let taken := m.mask ≠ 0#6 ∧ ((m.line = .b ∧ (s.part.pair m.pair).setup.mode = .duplex) ∨
      ∃ j : Slot, j ≠ i ∧ (placed.head j).map.mask ≠ 0#6 ∧ placed.lineOf j = placed.lineOf i ∧
        (placed.head j).map.address = m.address)
    (busy → refused .busy) ∧ (¬ busy → taken → refused .range) ∧
    (¬ busy → ¬ taken → placed.linesFit = false → refused .capacity))

/-- AXIS SET and AXIS RESTRICT complete in OFFLINE, IDLE and HALTED with values in range that keep an IDLE
setpoint inside and a driven head's interval from being empty. AXIS SET writes every value at once, with the
restriction clamped again and the slot's follow count replaced; AXIS RESTRICT stores the interval with each
bound clamped into the commissioned interval, or stores none. Else they are refused in this order: RANGE for
a value outside its range, BUSY in any other state, and RANGE for an interval that leaves an IDLE setpoint
outside or a LINKED head that is not HALTED without one (R10, R11). Where the reply stands is the model's
choice (log entries 4 and 15). -/
def Obligations.AxisCommandsWriteLayers : Prop :=
  (∀ (s : State) (tag : Byte) (i : Slot) (a : Axis)
    (l2 l1 l0 h2 h1 h0 v1 v0 a1 a0 j1 j0 f1 f0 n : Byte), s.part.Ready →
    let h := s.part.head i
    let e := h.axes.get a
    let comm : Span := ⟨be3 l2 l1 l0, be3 h2 h1 h0⟩
    let e' : AxisEntry :=
      { e with
        comm := comm, vmax := be2 v1 v0, amax := be2 a1 a0, jogLimit := be2 j1 j0,
        followLimit := be2 f1 f0,
        restriction := e.restriction.map fun r => ⟨comm.clamp r.lo, comm.clamp r.hi⟩ }
    comm.lo ≤ comm.hi → be2 v1 v0 ≠ 0 → be2 a1 a0 ≠ 0 → be2 j1 j0 ≠ 0 → be2 f1 f0 ≠ 0 →
    1 ≤ n.toNat → n.toNat ≤ 8 →
    (h.activity = .offline ∨ h.activity = .idle ∨ ∃ w, h.activity = .halted w) →
    (h.configured a = true →
      (h.activity = .idle →
        e'.working.lo ≤ h.setpoint.get a ∧ h.setpoint.get a ≤ e'.working.hi) ∧
      (h.link.state = .linked → h.activity.isHalted = false → e'.working.lo ≤ e'.working.hi)) →
    exec (.axisSet tag [slotByte i, axisByte a, l2, l1, l0, h2, h1, h0, v1, v0, a1, a0, j1, j0, f1,
        f0, n]) s =
      .next (s.accepts
        (s.part.onHead i fun h => { h with axes := h.axes.set a e', followCount := n.toNat })
        0x12#8 tag [])) ∧
  (∀ (s : State) (tag p : Byte) (i : Slot) (a : Axis), s.part.Ready →
    let h := s.part.head i
    let e := h.axes.get a
    (h.activity = .offline ∨ h.activity = .idle ∨ ∃ w, h.activity = .halted w) →
    let allowed (e' : AxisEntry) : Prop := h.configured a = true →
      (h.activity = .idle →
        e'.working.lo ≤ h.setpoint.get a ∧ h.setpoint.get a ≤ e'.working.hi) ∧
      (h.link.state = .linked → h.activity.isHalted = false → e'.working.lo ≤ e'.working.hi)
    (∀ l2 l1 l0 h2 h1 h0 : Byte, p.getLsbD 0 = true → be3 l2 l1 l0 ≤ be3 h2 h1 h0 →
      let e' : AxisEntry :=
        { e with restriction := some ⟨e.comm.clamp (be3 l2 l1 l0), e.comm.clamp (be3 h2 h1 h0)⟩ }
      allowed e' →
      exec (.axisRestrict tag [slotByte i, axisByte a, p, l2, l1, l0, h2, h1, h0]) s =
        .next (s.accepts (s.part.onHead i fun h => { h with axes := h.axes.set a e' })
          0x13#8 tag [])) ∧
    (p.getLsbD 0 = false → allowed { e with restriction := none } →
      exec (.axisRestrict tag [slotByte i, axisByte a, p]) s =
        .next (s.accepts
          (s.part.onHead i fun h => { h with axes := h.axes.set a { e with restriction := none } })
          0x13#8 tag []))) ∧
  (∀ (s : State) (tag b d l2 l1 l0 h2 h1 h0 v1 v0 a1 a0 j1 j0 f1 f0 n : Byte), s.part.Ready →
    let comm : Span := ⟨be3 l2 l1 l0, be3 h2 h1 h0⟩
    let refused (why : Reason) : Prop :=
      exec (.axisSet tag [b, d, l2, l1, l0, h2, h1, h0, v1, v0, a1, a0, j1, j0, f1, f0, n]) s =
        .next (s.refuses s.part 0x12#8 tag why)
    let wrong := 8 ≤ b.toNat ∨ 6 ≤ d.toNat ∨ comm.hi < comm.lo ∨ be2 v1 v0 = 0 ∨ be2 a1 a0 = 0 ∨
      be2 j1 j0 = 0 ∨ be2 f1 f0 = 0 ∨ n = 0#8 ∨ 8 < n.toNat
    (wrong → refused .range) ∧
    (¬ wrong → ∀ (i : Slot) (a : Axis), b = slotByte i → d = axisByte a →
      let h := s.part.head i
      let e := h.axes.get a
      let e' : AxisEntry :=
        { e with
          comm := comm, vmax := be2 v1 v0, amax := be2 a1 a0, jogLimit := be2 j1 j0,
          followLimit := be2 f1 f0,
          restriction := e.restriction.map fun r => ⟨comm.clamp r.lo, comm.clamp r.hi⟩ }
      let writable := h.activity = .offline ∨ h.activity = .idle ∨ ∃ w, h.activity = .halted w
      let lost := h.configured a = true ∧
        ((h.activity = .idle ∧
            ¬ (e'.working.lo ≤ h.setpoint.get a ∧ h.setpoint.get a ≤ e'.working.hi)) ∨
          (h.link.state = .linked ∧ h.activity.isHalted = false ∧ e'.working.hi < e'.working.lo))
      (¬ writable → refused .busy) ∧ (writable → lost → refused .range))) ∧
  (∀ (s : State) (tag b d p : Byte) (r : Option Span), s.part.Ready → p.getLsbD 0 = r.isSome →
    (∀ x, r = some x → fitsPosition x.lo = true ∧ fitsPosition x.hi = true) →
    let refused (why : Reason) : Prop :=
      exec (.axisRestrict tag ([b, d, p] ++
          match r with | none => [] | some x => encPos x.lo ++ encPos x.hi)) s =
        .next (s.refuses s.part 0x13#8 tag why)
    let wrong := 8 ≤ b.toNat ∨ 6 ≤ d.toNat ∨ ∃ x, r = some x ∧ x.hi < x.lo
    (wrong → refused .range) ∧
    (¬ wrong → ∀ (i : Slot) (a : Axis), b = slotByte i → d = axisByte a →
      let h := s.part.head i
      let e := h.axes.get a
      let e' : AxisEntry :=
        { e with restriction := r.map fun x => ⟨e.comm.clamp x.lo, e.comm.clamp x.hi⟩ }
      let writable := h.activity = .offline ∨ h.activity = .idle ∨ ∃ w, h.activity = .halted w
      let lost := h.configured a = true ∧
        ((h.activity = .idle ∧
            ¬ (e'.working.lo ≤ h.setpoint.get a ∧ h.setpoint.get a ≤ e'.working.hi)) ∨
          (h.link.state = .linked ∧ h.activity.isHalted = false ∧ e'.working.hi < e'.working.lo))
      (¬ writable → refused .busy) ∧ (writable → lost → refused .range)))

/-- TRIM SET completes on a HALTED or unlinked head with one to six distinct axes and trims in range: it
writes each trim of the list and nothing else. A slot or a list out of range is refused RANGE, and then a
LINKED head that is not HALTED is refused BUSY (R8). Where the reply stands is the model's choice (log
entries 4 and 15). -/
def Obligations.TrimSetWritesTrims : Prop :=
  (∀ (s : State) (tag : Byte) (i : Slot) (l : List (Axis × Int)), s.part.Ready →
    1 ≤ l.length → l.length ≤ 6 → (l.map Prod.fst).Nodup →
    (∀ t ∈ l, -1048576 ≤ t.2 ∧ t.2 ≤ 1048575) →
    ((s.part.head i).activity.isHalted = true ∨ (s.part.head i).link.state ≠ .linked) →
    exec (.trimSet tag ([slotByte i, BitVec.ofNat 8 l.length] ++ pairBytes l)) s =
      .next (s.accepts
        (s.part.onHead i fun h =>
          { h with
            axes := .gen fun a =>
              match l.find? fun t => t.1 = a with
              | some t => { h.axes.get a with trim := t.2 }
              | none => h.axes.get a })
        0x15#8 tag [])) ∧
  (∀ (s : State) (tag b n : Byte) (ps : List (Byte × Int)), s.part.Ready → ps.length = n.toNat →
    (∀ t ∈ ps, fitsPosition t.2 = true) →
    let refused (why : Reason) : Prop :=
      exec (.trimSet tag ([b, n] ++ rawPairBytes ps)) s = .next (s.refuses s.part 0x15#8 tag why)
    let fits := 1 ≤ ps.length ∧ ps.length ≤ 6 ∧ (∀ t ∈ ps, t.1.toNat < 6) ∧
      (ps.map Prod.fst).Nodup ∧ ∀ t ∈ ps, -1048576 ≤ t.2 ∧ t.2 ≤ 1048575
    (8 ≤ b.toNat ∨ ¬ fits → refused .range) ∧
    (∀ i : Slot, b = slotByte i → fits → (s.part.head i).link.state = .linked →
      (s.part.head i).activity.isHalted = false → refused .busy))

/-! ### Shots (R19 to R28) -/

/-- SHOT SET completes in every motion and link state: the named record becomes valid with the duration,
profile and targets given, and nothing else changes. A field out of range, an empty list, or one that the
list checks turn away is refused RANGE (R20). Where the reply stands is the model's choice (log entries 4
and 15). -/
def Obligations.ShotSetReplacesRecord : Prop :=
  (∀ (s : State) (tag : Byte) (i : Slot) (k : Fin 64) (d1 d0 : Byte) (q : Profile)
    (l : List (Axis × Int)), s.part.Ready →
    1 ≤ be2 d1 d0 → be2 d1 d0 ≤ 4095 → TargetsFit (s.part.head i).map.mask l →
    exec (.shotSet tag ([slotByte i, BitVec.ofNat 8 k.val, d1, d0, q.code,
        BitVec.ofNat 8 l.length] ++ pairBytes l)) s =
      .next (s.accepts
        (s.part.onHead i fun h => { h with shots := h.shots.set k (some ⟨be2 d1 d0, q, l⟩) })
        0x20#8 tag [])) ∧
  (∀ (s : State) (tag b k d1 d0 q n : Byte) (ps : List (Byte × Int)), s.part.Ready →
    ps.length = n.toNat → (∀ t ∈ ps, fitsPosition t.2 = true) →
    (8 ≤ b.toNat ∨ 64 ≤ k.toNat ∨ be2 d1 d0 = 0 ∨ 4095 < be2 d1 d0 ∨ 2 ≤ q.toNat ∨ ps = [] ∨
      ∃ i : Slot, b = slotByte i ∧ ¬ ListFits (s.part.head i).map.mask ps) →
    exec (.shotSet tag ([b, k, d1, d0, q, n] ++ rawPairBytes ps)) s =
      .next (s.refuses s.part 0x20#8 tag .range))

/-- SHOT GET replies with the record and changes nothing. SHOT ERASE makes one record, or with ALL each of the
slot's 64 records, invalid, and replies with the number that were valid. A slot above 7, or a shot number
that neither command takes, is refused RANGE. Where the reply stands is the model's choice (log entries 4
and 15). -/
def Obligations.ShotReadsAndErasures : Prop :=
  (∀ (s : State) (tag : Byte), s.part.Ready →
    (∀ (i : Slot) (k : Fin 64),
      let h := s.part.head i
      exec (.shotGet tag [slotByte i, BitVec.ofNat 8 k.val]) s = .next (s.accepts s.part 0x21#8 tag
        (match h.shots[k] with
        | none => [0#8]
        | some r =>
          [1#8] ++ enc2 r.duration ++ [r.profile.code, BitVec.ofNat 8 r.targets.length] ++
            r.targets.flatMap fun t =>
              BitVec.ofNat 8 (t.1.num + if h.configured t.1 then 128 else 0) :: encPos t.2))) ∧
    (∀ b k : Byte, 8 ≤ b.toNat ∨ 64 ≤ k.toNat →
      exec (.shotGet tag [b, k]) s = .next (s.refuses s.part 0x21#8 tag .range))) ∧
  (∀ (s : State) (tag : Byte), s.part.Ready →
    (∀ (i : Slot) (k : Fin 64),
      exec (.shotErase tag [slotByte i, BitVec.ofNat 8 k.val]) s = .next (s.accepts
        (s.part.onHead i fun h => { h with shots := h.shots.set k none }) 0x22#8 tag
        [if (s.part.head i).shots[k].isSome then 1#8 else 0#8])) ∧
    (∀ i : Slot, exec (.shotErase tag [slotByte i, 0xFF#8]) s = .next (s.accepts
        (s.part.onHead i fun h => { h with shots := .replicate 64 none }) 0x22#8 tag
        [BitVec.ofNat 8 ((s.part.head i).shots.toList.filter Option.isSome).length])) ∧
    (∀ b k : Byte, 8 ≤ b.toNat ∨ (64 ≤ k.toNat ∧ k.toNat ≤ 254) →
      exec (.shotErase tag [b, k]) s = .next (s.refuses s.part 0x22#8 tag .range)))

/-! ### Floor zones (R109 to R131) -/

/-- ZONEMAP SET and ZONEMAP CLEAR complete while no head is MOVING, JOGGING or in WAIT_ZONE: the entries are
written, the holdings of the heads are recomputed in slot order, each as RecomputationKeepsNeededZones says,
then a pass runs if a zone was freed, and the reply counts the heads halted (R112). Fields out of range are
refused RANGE, and then both commands are refused BUSY while a head is MOVING, JOGGING or in WAIT_ZONE
(R110, R111). Where the reply stands is the model's choice (log entries 4 and 15). -/
def Obligations.ZonemapCommandsWriteMap : Prop :=
  (∀ c : Cm8,
    let heads := [0, 1, 2, 3, 4, 5, 6, 7].foldl Cm8.rezoneHead (c, 0)
    c.rezone.2 = heads.2 ∧
    (heads.1.arbiter.released = true → c.rezone.1 = heads.1.grantPass) ∧
    (heads.1.arbiter.released = false → c.rezone.1 = heads.1)) ∧
  (∀ (s : State) (tag : Byte), s.part.Ready →
    (∀ i : Slot, (s.part.head i).activity.active = none ∧ (s.part.head i).activity.waiting = none ∧
      ∀ j, (s.part.head i).activity ≠ .jogging j) →
    (∀ (start : Fin 32) (es : List (Option ZoneEntry)), 1 ≤ es.length → es.length ≤ 16 →
      start.val + es.length ≤ 32 →
      (∀ e, some e ∈ es → e.range.lo ≤ e.range.hi ∧ fitsPosition e.range.lo = true ∧
        fitsPosition e.range.hi = true) →
      ∃ map : Vector (Option ZoneEntry) 32,
        (∀ n : Fin 32, map[n] =
          if start.val ≤ n.val ∧ n.val < start.val + es.length then (es[n.val - start.val]?).join
          else s.part.zonemap[n]) ∧
        exec (.zonemapSet tag ([BitVec.ofNat 8 start.val, BitVec.ofNat 8 es.length] ++
            es.flatMap entryByteList)) s =
          .next (s.accepts { s.part with zonemap := map }.rezone.1 0x28#8 tag
            [BitVec.ofNat 8 { s.part with zonemap := map }.rezone.2])) ∧
    exec (.zonemapClear tag []) s =
      .next (s.accepts { s.part with zonemap := .replicate 32 none }.rezone.1 0x2A#8 tag
        [BitVec.ofNat 8 { s.part with zonemap := .replicate 32 none }.rezone.2])) ∧
  (∀ (s : State) (tag start n : Byte) (es : List (Option (Byte × Byte × Int × Int))), s.part.Ready →
    es.length = n.toNat →
    (∀ x, some x ∈ es →
      x.1 ≠ 0xFF#8 ∧ fitsPosition x.2.2.1 = true ∧ fitsPosition x.2.2.2 = true) →
    let refused (why : Reason) : Prop :=
      exec (.zonemapSet tag ([start, n] ++ es.flatMap rawEntryBytes)) s =
        .next (s.refuses s.part 0x28#8 tag why)
    let fits := start.toNat < 32 ∧ 1 ≤ n.toNat ∧ n.toNat ≤ 16 ∧ start.toNat + n.toNat ≤ 32 ∧
      ∀ x, some x ∈ es → x.1.toNat < 8 ∧ x.2.1.toNat < 16 ∧ x.2.2.1 ≤ x.2.2.2
    let busy := ∃ i : Slot, (∃ m held, (s.part.head i).activity = .moving m held) ∨
      (∃ j, (s.part.head i).activity = .jogging j) ∨ ∃ w, (s.part.head i).activity = .waitZone w
    (¬ fits → refused .range) ∧ (fits → busy → refused .busy) ∧
    (busy → exec (.zonemapClear tag []) s = .next (s.refuses s.part 0x2A#8 tag .busy)))

/-- ZONEMAP GET and both selectors of ZONE STATUS complete in every state and change nothing; a start index,
a count or a selector out of range is refused RANGE. Where the reply stands is the model's choice (log
entries 4 and 15). -/
def Obligations.ZoneReadsChangeNothing : Prop :=
  ∀ (s : State) (tag : Byte), s.part.Ready →
    let c := s.part
    let top := [BitVec.ofNat 8 c.arbiter.lowest.val,
      if c.policy.rotation = .fixed then 0#8 else 1#8, c.arbiter.mask] ++ enc2 c.policy.waitTimeout
    (∀ (start : Fin 32) (n : Nat), 1 ≤ n → n ≤ 16 → start.val + n ≤ 32 →
      exec (.zonemapGet tag [BitVec.ofNat 8 start.val, BitVec.ofNat 8 n]) s =
        .next (s.accepts c 0x29#8 tag
          (((c.zonemap.toList.drop start.val).take n).flatMap fun e =>
            match e with
            | none => [0xFF#8, 0#8, 0#8, 0#8, 0#8, 0#8, 0#8, 0#8]
            | some e => entryByteList (some e)))) ∧
    exec (.zoneStatus tag [0#8]) s = .next (s.accepts c 0x63#8 tag
      (top ++ Zone.all.map fun z =>
        match c.holder z with | some i => slotByte i | none => 0xFF#8)) ∧
    (let waits := Slot.all.filterMap fun i =>
      ((c.head i).activity.waiting.map fun w =>
        [slotByte i, w.move.tag.getD 0xFF#8] ++ encW w.move.zones ++ enc2 w.timer ++
          [flagsByte [c.arbiter.mask.getLsbD i.val, (c.head i).tally]])
    exec (.zoneStatus tag [1#8]) s = .next (s.accepts c 0x63#8 tag
      (top ++ [BitVec.ofNat 8 waits.length] ++ waits.flatten))) ∧
    (∀ sel : Byte, 2 ≤ sel.toNat →
      exec (.zoneStatus tag [sel]) s = .next (s.refuses c 0x63#8 tag .range)) ∧
    (∀ start n : Byte,
      (32 ≤ start.toNat ∨ n = 0#8 ∨ 16 < n.toNat ∨ 32 < start.toNat + n.toNat) →
      exec (.zonemapGet tag [start, n]) s = .next (s.refuses c 0x29#8 tag .range))

/-- RELEASE ZONES completes on a HALTED head: every zone it holds is freed, a grant pass runs, and the reply
carries the set; on any other head it is refused BUSY, and for a slot above 7 RANGE. ZONE MASK and ZONE
LOWEST complete in every state: the mask, or the lowest-priority slot with the rotation mode, is written and
a grant pass runs; ZONE LOWEST replies with the slot after the passes, which is the model's choice where
more than one runs (log entry 20), and so is where the reply stands (log entries 4 and 15). A pass judges
the waiting heads as PassJudgesInOrder says and hands each grant over in pass order; a release in the
hand-over runs a new pass once it is complete, until one frees nothing (R122, R125). -/
def Obligations.ArbiterCommandsRunPass : Prop :=
  (∀ c : Cm8, c.grantPass = (c.judgePass.2.foldl Cm8.handGrant c.judgePass.1).settle ∧
    (c.arbiter.released = true → c.settle = c.grantPass) ∧
    (c.arbiter.released = false → c.settle = c) ∧
    c.settle.arbiter.released = false ∧ c.grantPass.arbiter.released = false ∧
    c.judgePass.1.arbiter.released = false) ∧
  (∀ (s : State) (tag : Byte) (i : Slot), s.part.Ready →
    ((∃ w, (s.part.head i).activity = .halted w) →
      exec (.releaseZones tag [slotByte i]) s = .next (s.accepts
        ((s.part.freeOutside i 0#16).grantPass) 0x60#8 tag (encW (s.part.holdings i))) ∧
      (∀ z : Zone, (s.part.freeOutside i 0#16).holder z =
        if s.part.holder z = some i then none else s.part.holder z) ∧
      (∀ z : Zone, (s.part.holdings i).getLsbD z.val = true ↔ s.part.holder z = some i)) ∧
    ((s.part.head i).activity.isHalted = false →
      exec (.releaseZones tag [slotByte i]) s = .next (s.refuses s.part 0x60#8 tag .busy))) ∧
  (∀ (s : State) (tag m : Byte) (i : Slot) (r : Rotation), s.part.Ready →
    let c := s.part
    let low := { c with
      arbiter := { c.arbiter with lowest := i }, policy := { c.policy with rotation := r } }.grantPass
    exec (.zoneMask tag [m]) s = .next (s.accepts
      { c with arbiter := { c.arbiter with mask := m } }.grantPass 0x61#8 tag []) ∧
    exec (.zoneLowest tag [slotByte i, if r = .fixed then 0#8 else 1#8]) s = .next (s.accepts
      low 0x62#8 tag [BitVec.ofNat 8 low.arbiter.lowest.val]) ∧
    (∀ b d : Byte, 8 ≤ b.toNat ∨ 2 ≤ d.toNat →
      exec (.zoneLowest tag [b, d]) s = .next (s.refuses c 0x62#8 tag .range))) ∧
  (∀ (s : State) (tag b : Byte), s.part.Ready → 8 ≤ b.toNat →
    exec (.releaseZones tag [b]) s = .next (s.refuses s.part 0x60#8 tag .range))

/-- The candidates of a pass are the waiting heads that are not masked, on-air heads before the others, and
each group in cyclic order from the slot after the lowest-priority slot (R123). A candidate is granted
exactly when every zone it needs is its own, or free and not reserved earlier in the pass; granted, it
holds them all, and otherwise it reserves its free zones and no holder changes (R124). A pass judges its
candidates one after the other, each against the zones and reservations that those before it left; in
ROTATE mode the last slot granted becomes the lowest-priority slot, and otherwise it stays (R125). -/
def Obligations.PassJudgesInOrder : Prop :=
  (∀ c : Cm8,
    let turn (i : Slot) : Nat := (i - c.arbiter.lowest - 1).val
    (∀ i : Slot, i ∈ c.candidates ↔
      (c.head i).activity.waiting.isSome = true ∧ c.arbiter.mask.getLsbD i.val = false) ∧
    c.candidates.Pairwise fun i j =>
      ((c.head i).tally = true ∧ (c.head j).tally = false) ∨
        ((c.head i).tally = (c.head j).tally ∧ turn i < turn j)) ∧
  (∀ (c : Cm8) (reserved : ZoneSet) (grants : List Slot) (i : Slot) (w : Waiting),
    (c.head i).activity = .waitZone w →
    let r := Cm8.judge (c, reserved, grants) i
    let has (z : Zone) : Prop :=
      c.holder z = some i ∨ (c.holder z = none ∧ reserved.getLsbD z.val = false)
    ((∀ z : Zone, w.move.zones.getLsbD z.val = true → has z) →
      r.2 = (reserved, grants ++ [i]) ∧
      ∀ z : Zone, r.1.holder z = if w.move.zones.getLsbD z.val then some i else c.holder z) ∧
    ((∃ z : Zone, w.move.zones.getLsbD z.val = true ∧ ¬ has z) →
      r.1 = c ∧ r.2.2 = grants ∧
      ∀ z : Zone, r.2.1.getLsbD z.val =
        (reserved.getLsbD z.val || (w.move.zones.getLsbD z.val && decide (c.holder z = none))))) ∧
  (∀ c : Cm8,
    let r := c.candidates.foldl Cm8.judge
      ({ c with arbiter := { c.arbiter with released := false } }, 0#16, [])
    c.judgePass.2 = r.2.2 ∧ (∀ z : Zone, c.judgePass.1.holder z = r.1.holder z) ∧
    (∀ i : Slot, c.judgePass.1.head i = c.head i) ∧
    (c.policy.rotation = .fixed → c.judgePass.1.arbiter.lowest = c.arbiter.lowest) ∧
    (r.2.2 = [] → c.judgePass.1.arbiter.lowest = c.arbiter.lowest) ∧
    (∀ grants i, c.policy.rotation = .rotate → r.2.2 = grants ++ [i] →
      c.judgePass.1.arbiter.lowest = i))

/-- A holdings recomputation of a head that is not HALTED leaves it, of the zones it holds, those that are
resident or belong to its active or held move, touches no other head's zones, and owes a pass when it
freed a zone (R115, R122). After a change of the zone map a LINKED head in IDLE or WAIT_CUE gives up every
zone that is not resident, takes every free resident zone, and is halted with cause CONFLICT and counted
when another head holds a resident zone; any other head is passed over (R112). -/
def Obligations.RecomputationKeepsNeededZones : Prop :=
  (∀ (c : Cm8) (i : Slot), (c.head i).activity.isHalted = false →
    let keep := c.residentZones i ||| c.moveZones i
    (∀ z : Zone, (c.recompute i).holder z =
      if c.holder z = some i ∧ keep.getLsbD z.val = false then none else c.holder z) ∧
    ((c.recompute i).arbiter.released = true ↔ c.arbiter.released = true ∨
      ∃ z : Zone, c.holder z = some i ∧ keep.getLsbD z.val = false) ∧
    (∀ j : Slot, (c.recompute i).head j = c.head j)) ∧
  (∀ (c : Cm8) (n : Nat) (i : Slot), (c.head i).link.state = .linked →
    ((c.head i).activity = .idle ∨ (c.head i).activity = .waitCue) →
    let r := Cm8.rezoneHead (c, n) i
    (∀ z : Zone, r.1.holder z =
      if (c.residentZones i).getLsbD z.val then
        (if c.holder z = none then some i else c.holder z)
      else (if c.holder z = some i then none else c.holder z)) ∧
    ((∃ z : Zone, (c.residentZones i).getLsbD z.val = true ∧ ∃ j, j ≠ i ∧ c.holder z = some j) →
      (r.1.head i).activity = .halted .conflict ∧ r.2 = n + 1) ∧
    ((∀ z : Zone, (c.residentZones i).getLsbD z.val = true →
        c.holder z = none ∨ c.holder z = some i) →
      (r.1.head i).activity = (c.head i).activity ∧ r.2 = n) ∧
    (∀ j : Slot, j ≠ i → r.1.head j = c.head j) ∧
    (r.1.arbiter.released = true ↔ c.arbiter.released = true ∨
      ∃ z : Zone, c.holder z = some i ∧ (c.residentZones i).getLsbD z.val = false)) ∧
  (∀ (c : Cm8) (n : Nat) (i : Slot),
    ((c.head i).link.state ≠ .linked ∨
      ((c.head i).activity ≠ .idle ∧ (c.head i).activity ≠ .waitCue)) →
    Cm8.rezoneHead (c, n) i = (c, n))

/-! ### Settings (R183, R185, R186, R206) -/

/-- FORWARD SET completes in every state: it writes the slot's entry and clears its decimation counter. POLICY
SET completes in every state: it writes three fields of the policy record and leaves the rotation mode. A
field out of range is refused RANGE. Where the reply stands is the model's choice (log entries 4 and 15). -/
def Obligations.ForwardAndPolicyWritten : Prop :=
  (∀ (s : State) (tag m d : Byte), s.part.Ready →
    (∀ i : Slot, m.getLsbD 0 = false →
      exec (.forwardSet tag [slotByte i, m, d]) s = .next (s.accepts
        (s.part.onHead i fun h =>
          { h with forward := ⟨m, d.toNat⟩, track := { h.track with decimation := 0 } })
        0x30#8 tag [])) ∧
    (∀ b : Byte, 8 ≤ b.toNat ∨ m.getLsbD 0 = true →
      exec (.forwardSet tag [b, m, d]) s = .next (s.refuses s.part 0x30#8 tag .range))) ∧
  (∀ (s : State) (tag p m1 m0 w1 w0 : Byte), s.part.Ready →
    ((p.toNat ≤ 1 ∧ 1 ≤ be2 m1 m0 ∧ be2 m1 m0 ≤ 4095 ∧ 1 ≤ be2 w1 w0 ∧ be2 w1 w0 ≤ 1023) →
      exec (.policySet tag [p, m1, m0, w1, w0]) s = .next (s.accepts
        { s.part with
          policy := ⟨if p = 0#8 then .soften else .block, be2 m1 m0, be2 w1 w0,
            s.part.policy.rotation⟩ }
        0x33#8 tag [])) ∧
    (¬ (p.toNat ≤ 1 ∧ 1 ≤ be2 m1 m0 ∧ be2 m1 m0 ≤ 4095 ∧ 1 ≤ be2 w1 w0 ∧ be2 w1 w0 ≤ 1023) →
      exec (.policySet tag [p, m1, m0, w1, w0]) s = .next (s.refuses s.part 0x33#8 tag .range)))

/-- EVENT SET completes in every state when its kind mask names kinds alone: the four settings are written at
once, and the queue and the dropped count stay. PORT SET completes in every state: its reply carries the
new settings, which go with it, and the three counters, which clear-on-read then sets to 0. A field out of
range is refused RANGE. Where the reply stands is the model's choice (log entries 4 and 15). -/
def Obligations.EventAndPortSettings : Prop :=
  (∀ (s : State) (tag q k7 k6 k5 k4 k3 k2 k1 k0 m r : Byte), s.part.Ready →
    let kinds : BitVec 64 := k7 ++ k6 ++ k5 ++ k4 ++ k3 ++ k2 ++ k1 ++ k0
    let known := ∀ b : Fin 64, kinds.getLsbD b.val = true →
      b.val ∈ [1, 2, 3, 4, 5, 6, 7, 8, 0x10, 0x11, 0x12, 0x13, 0x14, 0x20, 0x21, 0x30, 0x31]
    (q.toNat ≤ 1 ∧ m.toNat ≤ 1 ∧ r.toNat ≤ 1 ∧ known →
      exec (.eventSet tag [q, k7, k6, k5, k4, k3, k2, k1, k0, m, r]) s = .next (s.accepts
        { s.part with
          events := { s.part.events with
            mode := if q = 0#8 then .keep else .overwrite, kinds := kinds,
            counterMode := if m = 0#8 then .wrap else .saturate, clearOnRead := decide (r = 1#8) } }
        0x40#8 tag [])) ∧
    (¬ (q.toNat ≤ 1 ∧ m.toNat ≤ 1 ∧ r.toNat ≤ 1 ∧ known) →
      exec (.eventSet tag [q, k7, k6, k5, k4, k3, k2, k1, k0, m, r]) s =
        .next (s.refuses s.part 0x40#8 tag .range))) ∧
  (∀ (s : State) (tag d1 d0 : Byte) (parity : Parity), s.part.Ready →
    let p := s.part.port
    (be2 d1 d0 ≤ 4095 →
      exec (.portSet tag [d1, d0, parity.code]) s = .next (s.answered
        (if s.part.events.clearOnRead then
          { s.part with port := { p with rxOk := 0#16, rxBad := 0#16, rxOverrun := 0#16 } }
        else s.part)
        0x41#8 tag
        (.acceptedSettings ⟨be2 d1 d0, parity⟩
          (enc2 (be2 d1 d0) ++ [parity.code] ++ encW p.rxOk ++ encW p.rxBad ++ encW p.rxOverrun)))) ∧
    (∀ b : Byte, 4095 < be2 d1 d0 ∨ 3 ≤ b.toNat →
      exec (.portSet tag [d1, d0, b]) s = .next (s.refuses s.part 0x41#8 tag .range)))

/-! ### Head lines (R133 to R150) -/

/-- LINE SET completes when its fields are in range, no configured slot of the pair is LINKED outside
HALTED, no two slots come to share a line and an address, and every line fits; the reply carries C. Else it
is refused with the first reason of R147 that applies, RANGE, BUSY, RANGE or CAPACITY. The second part says
what it does: the record waits for the next tick, each configured slot of the pair restarts its enrolment,
loses its head ranges and keeps the rest, every other slot is untouched, HEAD_UNLINKED with reason LINE is
posted for each slot that was LINKED, and the pair's PASS queues are emptied, each frame counted in the
PASS_DROP of its store (R148, R162). The ascending order of the slots, and where the reply stands, is the
model's choice (log entries 4, 10 and 15). -/
def Obligations.LineSetWritesSetup : Prop :=
  (∀ (s : State) (tag d1 d0 l : Byte) (p : Fin 2) (mode : PairMode) (parity : Parity)
    (twoStop inverted : Bool), s.part.Ready →
    be2 d1 d0 ≤ 4095 → 2 ≤ l.toNat →
    let r : LineSetup := ⟨mode, be2 d1 d0, parity, twoStop, inverted, l.toNat⟩
    let c := s.part
    let placed := c.writeSetup p r
    (∀ i : Slot, (c.head i).isConfigured = true → (c.head i).map.pair = p →
      ((c.head i).link.state = .linked → ∃ w, (c.head i).activity = .halted w) ∧
      ∀ j : Slot, j ≠ i → (c.head j).isConfigured = true → placed.lineOf j = placed.lineOf i →
        (c.head j).map.address ≠ (c.head i).map.address) →
    placed.linesFit = true →
    exec (.lineSet tag [BitVec.ofNat 8 p.val, mode.code, d1, d0, parity.code,
        if twoStop then 2#8 else 1#8, if inverted then 1#8 else 0#8, l]) s =
      .next (s.accepts (c.relineSlots p r) 0x31#8 tag
        (enc2 (14745600 * Config.rateM c.clock.rate /
          ((be2 d1 d0 + 1) * (10 + (if parity = .none then 0 else 1) + (if twoStop then 1 else 0)) *
            Config.rateN c.clock.rate))))) ∧
  (∀ (c : Cm8) (p : Fin 2) (r : LineSetup),
    let t := c.relineSlots p r
    (t.pair p).setup = r ∧ (t.pair p).relined = true ∧ (t.pair p).inForce = (c.pair p).inForce ∧
    (∀ q : Fin 2, q ≠ p → t.pair q = c.pair q) ∧
    (∀ l : Line, (t.store ⟨p, l⟩).pass = [] ∧
      (t.store ⟨p, l⟩).roundRobin = (c.store ⟨p, l⟩).roundRobin ∧
      (t.store ⟨p, l⟩).outgoing = (c.store ⟨p, l⟩).outgoing ∧
      (t.store ⟨p, l⟩).counters.sent = (c.store ⟨p, l⟩).counters.sent) ∧
    (∃ u : Cm8, t = (u.bumps (.line ⟨p, .a⟩ .passDrop) (c.store ⟨p, .a⟩).pass.length).bumps
        (.line ⟨p, .b⟩ .passDrop) (c.store ⟨p, .b⟩).pass.length ∧
      u.events = c.events.told c.clock.frame
        ((Slot.all.filter fun i => decide ((c.head i).map.mask ≠ 0#6 ∧ (c.head i).map.pair = p ∧
          (c.head i).link.state = .linked)).map fun i => (some i, none, .headUnlinked .line)) ∧
      ∀ l : Line, (u.store ⟨p, l⟩).counters = (c.store ⟨p, l⟩).counters) ∧
    (∀ (d : Cm8) (id : CounterId) (n : Nat),
      d.bumps id 0 = d ∧ d.bumps id (n + 1) = (d.bump id).bumps id n) ∧
    (∀ i : Slot,
      if (c.head i).isConfigured = true ∧ (c.head i).map.pair = p then
        (t.head i).link = { Link.reset with
          state := .probe, pending := .probe, lostFlag := (c.head i).link.lostFlag } ∧
        (∀ a, (t.head i).axes.get a = { (c.head i).axes.get a with headRange := none }) ∧
        (t.head i).activity = (c.head i).activity ∧ (t.head i).track = (c.head i).track ∧
        (t.head i).setpoint = (c.head i).setpoint ∧ (t.head i).seq = (c.head i).seq ∧
        (t.head i).queue = (c.head i).queue ∧ (t.head i).map = (c.head i).map ∧
        (t.head i).shots = (c.head i).shots ∧ (t.head i).forward = (c.head i).forward ∧
        (t.head i).previous = (c.head i).previous ∧ (t.head i).tally = (c.head i).tally ∧
        (t.head i).tallyChanged = (c.head i).tallyChanged ∧
        (t.head i).resumptions = (c.head i).resumptions ∧
        (t.head i).followCount = (c.head i).followCount
      else t.head i = c.head i) ∧
    (∀ z : Zone, t.holder z = c.holder z) ∧ t.clock = c.clock ∧ t.arbiter = c.arbiter ∧
    t.zonemap = c.zonemap ∧ t.policy = c.policy ∧ t.port = c.port) ∧
  (∀ (s : State) (tag b m d1 d0 q k v l : Byte), s.part.Ready →
    (2 ≤ b.toNat ∨ 2 ≤ m.toNat ∨ 4095 < be2 d1 d0 ∨ 3 ≤ q.toNat ∨ k = 0#8 ∨ 3 ≤ k.toNat ∨
      2 ≤ v.toNat ∨ l.toNat < 2) →
    exec (.lineSet tag [b, m, d1, d0, q, k, v, l]) s = .next (s.refuses s.part 0x31#8 tag .range)) ∧
  (∀ (s : State) (tag : Byte) (p : Fin 2) (r : LineSetup), s.part.Ready →
    r.divisor ≤ 4095 → 2 ≤ r.lossTicks → r.lossTicks ≤ 255 →
    let c := s.part
    let placed := c.writeSetup p r
    let refused (why : Reason) : Prop :=
      exec (.lineSet tag ([BitVec.ofNat 8 p.val, r.mode.code] ++ enc2 r.divisor ++ [r.parity.code,
        if r.twoStop then 2#8 else 1#8, if r.inverted then 1#8 else 0#8,
        BitVec.ofNat 8 r.lossTicks])) s = .next (s.refuses c 0x31#8 tag why)
    let mine (i : Slot) : Prop := (c.head i).isConfigured = true ∧ (c.head i).map.pair = p
    let busy := ∃ i, mine i ∧ (c.head i).link.state = .linked ∧ ∀ w, (c.head i).activity ≠ .halted w
    let shared := ∃ i j, mine i ∧ mine j ∧ i ≠ j ∧ placed.lineOf i = placed.lineOf j ∧
      (c.head i).map.address = (c.head j).map.address
    (busy → refused .busy) ∧ (¬ busy → shared → refused .range) ∧
    (¬ busy → ¬ shared → placed.linesFit = false → refused .capacity))

/-- LINE GET completes in every state: it reads the pair's setup, its C and its two stores, and with
clear-on-read on sets the twelve counters to 0 and changes nothing else. Of the store that a DUPLEX pair
does not use it shows the counters alone (log entry 12). Where the reply stands is the model's choice (log
entries 4 and 15). The values: C is floor(14 745 600 · M / ((divisor + 1) · b · N)) (R135); the capacity
check holds when on every DUPLEX pair the frame sizes 8 + 3n of the configured slots fit C, and on every
line of a SPLIT pair twice each size and 2 more (R137); the listen reserve of a SPLIT line is each size and
2 more, its send budget the rest of C, and that of a DUPLEX line C; and a line that passes the check has a
send budget for all its SETPOINT frames (R138). -/
def Obligations.LineGetReads : Prop :=
  (∀ (s : State) (tag : Byte) (p : Fin 2), s.part.Ready →
    let c := s.part
    let r := (c.pair p).setup
    let counters (l : Line) : List Byte :=
      let k := (c.store ⟨p, l⟩).counters
      encW k.sent ++ encW k.received ++ encW k.bad ++ encW k.stale ++ encW k.overrun ++ encW k.passDrop
    let store (l : Line) : List Byte :=
      if r.mode = .duplex ∧ l = .b then List.replicate 7 0#8 ++ counters l
      else [1#8] ++ enc2 (c.sendBudget ⟨p, l⟩) ++ enc2 (c.reserve ⟨p, l⟩) ++
        [BitVec.ofNat 8 (c.store ⟨p, l⟩).pass.length,
          BitVec.ofNat 8 (c.store ⟨p, l⟩).roundRobin.val] ++ counters l
    let cleared := if c.events.clearOnRead then
      c.setPair p { c.pair p with
        storeA := { (c.pair p).storeA with counters := .zero },
        storeB := { (c.pair p).storeB with counters := .zero } } else c
    exec (.lineGet tag [BitVec.ofNat 8 p.val]) s = .next (s.accepts cleared 0x32#8 tag
      ([r.mode.code] ++ enc2 r.divisor ++ [r.parity.code, if r.twoStop then 2#8 else 1#8,
        if r.inverted then 1#8 else 0#8, BitVec.ofNat 8 r.lossTicks] ++ enc2 (c.capacity p) ++
        store .a ++ store .b)) ∧
    (∀ b : Byte, 2 ≤ b.toNat →
      exec (.lineGet tag [b]) s = .next (s.refuses c 0x32#8 tag .range))) ∧
  (∀ c : Cm8,
    let size (i : Slot) : Nat := 8 + 3 * (c.head i).map.mask.axes.length
    let cap (p : Fin 2) : Nat :=
      let r := (c.pair p).setup
      14745600 * Config.rateM c.clock.rate / ((r.divisor + 1) *
        (10 + (if r.parity = .none then 0 else 1) + (if r.twoStop then 1 else 0)) *
          Config.rateN c.clock.rate)
    let slots (p : Fin 2) (l : Line) : List Slot := Slot.all.filter fun i =>
      decide ((c.head i).map.mask ≠ 0#6 ∧ (c.head i).map.pair = p ∧
        ((c.pair p).setup.mode = .split → (c.head i).map.line = l))
    let total (p : Fin 2) (l : Line) (f : Nat → Nat) : Nat :=
      ((slots p l).map fun i => f (size i)).sum
    (∀ p, c.capacity p = cap p) ∧
    (c.linesFit = true ↔ ∀ p : Fin 2,
      match (c.pair p).setup.mode with
      | .duplex => total p .a id ≤ cap p
      | .split => ∀ l : Line, total p l (fun n => 2 * n + 2) ≤ cap p) ∧
    (∀ (p : Fin 2) (l : Line),
      ((c.pair p).setup.mode = .duplex → c.reserve ⟨p, l⟩ = 0 ∧ c.sendBudget ⟨p, l⟩ = cap p) ∧
      ((c.pair p).setup.mode = .split → c.reserve ⟨p, l⟩ = total p l (· + 2) ∧
        c.sendBudget ⟨p, l⟩ = cap p - total p l (· + 2)) ∧
      (c.linesFit = true → total p l id ≤ c.sendBudget ⟨p, l⟩)))

/-- LINE_FRAME_SENT completes: a frame going out leaves the schedule and SENT is incremented; with none going
out nothing is counted. LINE_CHARACTER_GAP_TIMEOUT and LINE_BAD_FRAME complete: on a line that receives
the frame is discarded and counted in BAD; on a line that is sending in SPLIT, or on store B of a DUPLEX
pair, nothing is counted. Between a LINE SET and the next tick both go by the wires: that a frame still
going out counts SENT on a store that the new record makes no logical line, and that reception goes by the
mode in force before, is the model's choice (log entry 23), and so is when an idle port begins to send (log
entry 4). -/
def Obligations.LineRowsCount : Prop :=
  (∀ (s : State) (st : StoreId), s.part.work = [] →
    (∀ f rest, (s.part.store st).outgoing = f :: rest →
      exec (.lineFrameSent st) s = .next { s with
        part := ((s.part.setStore st { s.part.store st with outgoing := rest }).bump
          (.line st .sent)).chooseIdle }) ∧
    ((s.part.store st).outgoing = [] →
      exec (.lineFrameSent st) s = .next { s with part := s.part.chooseIdle })) ∧
  (∀ (s : State) (st : StoreId) (why : LineFault), s.part.work = [] →
    let hears := match (s.part.pair st.pair).inForce.mode with
      | .duplex => st.line = .a
      | .split => (s.part.store st).outgoing = []
    (hears →
      exec (.lineCharacterGapTimeout st) s =
        .next { s with part := (s.part.bump (.line st .bad)).chooseIdle } ∧
      exec (.lineBadFrame st why) s =
        .next { s with part := (s.part.bump (.line st .bad)).chooseIdle }) ∧
    (¬ hears →
      exec (.lineCharacterGapTimeout st) s = .next { s with part := s.part.chooseIdle } ∧
      exec (.lineBadFrame st why) s = .next { s with part := s.part.chooseIdle }))

/-- DIRECT_FRAME completes: a frame that passes the six tests of R143 joins the PASS queue of its slot's line,
and one that fails a test is counted in PASS_DROP; both are counted in RX_OK first. When an idle port
begins to send is the model's choice (log entry 4). -/
def Obligations.DirectFrameFiltered : Prop :=
  ∀ (s : State) (i : Slot) (body : List Byte), s.part.work = [] →
    let c := s.part.bump .rxOk
    let h := s.part.head i
    let st := s.part.lineOf i
    let passes : Prop := h.link.state = .linked ∧ body.length ≤ 48 ∧
      (∃ cls rest, body = cls :: rest ∧ cls ≠ 0#8 ∧ cls.toNat ≤ 7 ∧
        h.forward.classes.getLsbD cls.toNat = true) ∧
      6 + body.length ≤ s.part.sendBudget st ∧ (s.part.store st).pass.length < 8
    (passes → exec (.directFrame i body) s = .next { s with
      part := (c.setStore st { c.store st with pass := (c.store st).pass ++ [⟨i, body⟩] }).chooseIdle }) ∧
    (¬ passes → exec (.directFrame i body) s = .next { s with
      part := (c.bump (.line st .passDrop)).chooseIdle })

/-- Part 1 of a schedule for a LINKED slot: the frame carries the next sequence number and each configured
axis's setpoint plus trim, or is empty for a HALTED or OFFLINE head, and the history receives an entry for
it, the oldest of a full one leaving (R93, R139, R165). Part 3: PASS frames are taken in queue order; those
of a slot that is gone from the line, or too large for the send budget, are dropped, the others are sent
while they fit what is left, and the first that does not fit waits with all behind it (R141). Part 2: of the
line's slots with an enrolment frame pending the first in cyclic order after the round-robin position has
its PROBE or PAGE_ACK placed and becomes the position, when the frame fits; otherwise nothing changes
(R140). A placed PAGE_ACK is no longer pending, starts the page timer for a newly accepted page, and for the
last page brings the slot into LINKED; a PROBE stays pending (R153, R156). The whole: one SETPOINT for each
LINKED slot of the line, ascending, then parts 2 and 3 with what is left of the send budget less the
characters still to be sent (R139); that a number of characters gone out above the frame's size counts as
its size is the model's choice (log entry 16). Part 3 on the line: what is dropped is counted in PASS_DROP
(R141). A SPLIT line that was receiving and now sends discards the frame and counts it in BAD, but not at
the tick of a LINE SET (R144, R148); that it was receiving when the tick's row says so or its receiver has a
frame in progress is the model's choice (log entries 16 and 32). -/
def Obligations.ScheduleFillsLine : Prop :=
  (∀ (c : Cm8) (st : StoreId) (i : Slot),
    let h := c.head i
    let t := Cm8.placeSetpoint st c i
    let driven := h.activity ≠ .offline ∧ ∀ w, h.activity ≠ .halted w
    (t.head i).seq = h.seq + 1#8 ∧
    (∃ f : LineFrame, (t.store st).outgoing = (c.store st).outgoing ++ [f] ∧
      f.address = h.map.address ∧ f.kind = .setpoint ∧
      (driven → f.body = [h.seq + 1#8, 1#8] ++ h.map.mask.axes.flatMap fun a =>
        encPos (h.setpoint.get a + (h.axes.get a).trim)) ∧
      (¬ driven → f.body = [h.seq + 1#8, 0#8])) ∧
    (∃ e : HistoryEntry,
      (t.head i).track.history =
        (if h.track.history.length < 16 then h.track.history else h.track.history.drop 1) ++ [e] ∧
      e.seq = h.seq + 1#8 ∧ e.mask = h.map.mask ∧
      (driven → ∃ p, e.positions = some p ∧
        ∀ a, h.configured a = true → p.get a = h.setpoint.get a + (h.axes.get a).trim) ∧
      (¬ driven → e.positions = none)) ∧
    (t.head i).setpoint = h.setpoint ∧ (∀ j : Slot, j ≠ i → t.head j = c.head j)) ∧
  (∀ (here : Slot → Bool) (budget : Nat) (room : Int) (q : List PassFrame),
    let t := takePass here budget room q
    let drops (f : PassFrame) : Bool := !here f.slot || decide (budget < 6 + f.body.length)
    ∃ seen : List PassFrame, q = seen ++ t.left ∧
      t.sent = seen.filter (fun f => !drops f) ∧ t.dropped = (seen.filter drops).length ∧
      (((t.sent.map fun f => 6 + f.body.length).sum : Nat) : Int) ≤ max room 0 ∧
      (∀ f rest, t.left = f :: rest → drops f = false ∧
        room < (((t.sent.map fun g => 6 + g.body.length).sum + (6 + f.body.length) : Nat) : Int))) ∧
  (∀ (c : Cm8) (st : StoreId) (room : Int),
    let e := c.placeEnrol st room
    let waits (i : Slot) : Prop := i ∈ c.slotsOn st ∧ (c.head i).link.pending ≠ .none
    ((∀ i, ¬ waits i) → e = (c, room)) ∧
    (∀ n : Fin 8,
      let i := (c.store st).roundRobin + 1 + n
      waits i → (∀ m : Fin 8, m < n → ¬ waits ((c.store st).roundRobin + 1 + m)) →
      ∃ f : LineFrame, f.address = (c.head i).map.address ∧
        ((c.head i).link.pending = .probe → f.kind = .probe ∧
          f.body = [1#8, BitVec.ofNat 8 c.clock.rate.val, (c.head i).map.mask.setWidth 8,
            BitVec.ofNat 8 (c.pair (c.head i).map.pair).setup.lossTicks]) ∧
        (∀ page toggle fresh, (c.head i).link.pending = .pageAck page toggle fresh →
          f.kind = .pageAck ∧ f.body = [page, if toggle then 1#8 else 0#8]) ∧
        (((6 + f.body.length : Nat) : Int) ≤ room →
          e = ((c.setStore st { c.store st with
            outgoing := (c.store st).outgoing ++ [f], roundRobin := i }).enrolPlaced i,
              room - ((6 + f.body.length : Nat) : Int))) ∧
        (room < ((6 + f.body.length : Nat) : Int) → e = (c, room)))) ∧
  (∀ (c : Cm8) (i : Slot), (c.head i).link.pending = .probe → c.enrolPlaced i = c) ∧
  (∀ (c : Cm8) (i : Slot) (mask : AxisMask), (c.head i).link.headMask = some mask →
    let l := (c.head i).link
    (∀ (page : Byte) (toggle fresh : Bool), l.pending = .pageAck page toggle fresh →
      let last := page.toNat = mask.axes.length ∧ l.pages = mask.axes.length + 1
      (last → c.enrolPlaced i = c.enterLinked i) ∧
      (¬ last → c.enrolPlaced i = c.onHead i fun h =>
        { h with link := { h.link with
          pending := .none, pageTimer := if fresh then some 0 else h.link.pageTimer } }))) ∧
  (∀ (c : Cm8) (st : StoreId) (here : Slot → Bool) (room : Int),
    (∀ i : Slot, here i = true ↔ (c.head i).link.state = .linked ∧ i ∈ c.slotsOn st) →
    let q := c.store st
    let t := takePass here (c.sendBudget st) room q.pass
    c.placePass st room =
      (c.setStore st { q with
        pass := t.left,
        outgoing := q.outgoing ++ t.sent.map fun f =>
          ⟨(c.head f.slot).map.address, .pass, f.body⟩ }).bumps (.line st .passDrop) t.dropped ∧
    (∀ i : Slot, i ∈ c.slotsOn st ↔
      (c.head i).map.mask ≠ 0#6 ∧ (c.head i).map.pair = st.pair ∧
        match (c.pair st.pair).setup.mode with
        | .duplex => st.line = .a
        | .split => (c.head i).map.line = st.line) ∧
    (∀ (d : Cm8) (id : CounterId) (n : Nat),
      d.bumps id 0 = d ∧ d.bumps id (n + 1) = (d.bump id).bumps id n)) ∧
  (∀ (before : LineStore) (c : Cm8) (st : StoreId) (receiving relined : Bool),
    let cut : Prop := (c.pair st.pair).inForce.mode = .split ∧ before.outgoing = [] ∧
      (receiving = true ∨ before.incoming.isSome = true) ∧ relined = false ∧
      (c.store st).outgoing ≠ []
    (cut → Cm8.cutReception before c st receiving relined =
      (c.setStore st { c.store st with incoming := none }).bump (.line st .bad)) ∧
    (¬ cut → Cm8.cutReception before c st receiving relined = c)) ∧
  (∀ (c : Cm8) (st : StoreId) (sent : Nat) (receiving relined : Bool),
    let size (f : LineFrame) : Nat := 6 + f.body.length
    let gone : Nat := match (c.store st).outgoing with
      | [] => 0
      | f :: _ => min sent (size f)
    let linked := Slot.all.filter fun i =>
      decide (i ∈ c.slotsOn st ∧ (c.head i).link.state = .linked)
    let a := linked.foldl (Cm8.placeSetpoint st) c
    let room : Int := c.sendBudget st - (((((a.store st).outgoing.map size).sum : Nat) : Int) - gone)
    (a.store st).outgoing.length = (c.store st).outgoing.length + linked.length ∧
    c.formSchedule st sent receiving relined =
      Cm8.cutReception (c.store st)
        ((a.placeEnrol st room).1.placePass st (a.placeEnrol st room).2) st receiving relined)

/-! ### Enrolment (R151 to R162) -/

/-- PAGE completes on a line that receives, for the configured slot with that address: the frame is counted
in RECEIVED and the slot's engine takes it by its link state. A frame from an address of no configured slot
of the line is counted in BAD (R145), and a line that does not receive hears nothing (R144); that reception
goes by the mode in force on the wires, and that the lowest of two slots with one address answers, is the
model's choice (log entry 23). In PROBE a page 0 that passes R154 (the mask, and the more flag that goes
with it) opens an exchange, and any other page is ignored. In EXCHANGE a page with the toggle of the last is
only acknowledged again; with the other toggle, a page 0 that passes begins the exchange again, the next
page of the head's mask is stored when it passes (length, more flag, axis, minimum not above maximum), and a
page that fails, or has another number, sends the slot back to PROBE. OFF and LINKED slots ignore pages
(R152 to R155). A new page after the last page has been accepted fails whatever its number: that this holds
for a page 0 too is read from R155 by inference (log entry 18). That a page too short for a page number and
a toggle fails in EXCHANGE and is ignored in PROBE (log entry 17), and when an idle port begins to send (log
entry 4), is the model's choice. -/
def Obligations.PagesBuildTheExchange : Prop :=
  (∀ (s : State) (st : StoreId) (address : Byte) (body : List Byte) (i : Slot), s.part.work = [] →
    s.part.receives st = true → s.part.slotAt st address = some i →
    exec (.page st address body) s = .next { s with
      part := ((s.part.bump (.line st .received)).onHead i fun h =>
        { h with link := h.link.takePage body }).chooseIdle } ∧
    ((s.part.head i).isConfigured = true ∧ (s.part.head i).map.address = address)) ∧
  (∀ (l : Link) (more : Byte) (toggle : Byte),
    let b := toggle.getLsbD 0
    (∀ mask : AxisMask, l.state = .probe → more.getLsbD 0 = decide (mask ≠ 0#6) →
      l.takePage [0#8, toggle, more, mask.setWidth 8] =
        { l with
          state := .exchange, pending := .pageAck 0#8 b true, pages := 1, toggle := some b,
          headMask := some mask, gathered := .const none, pageTimer := none }) ∧
    (∀ (mask : AxisMask) (k : Nat) (a : Axis) (lo hi : Int), l.state = .exchange →
      l.headMask = some mask → l.toggle = some (!b) → l.pages = k + 1 →
      mask.axes[k]? = some a → more.getLsbD 0 = decide (k + 1 < mask.axes.length) →
      lo ≤ hi → fitsPosition lo = true → fitsPosition hi = true →
      l.takePage ([BitVec.ofNat 8 (k + 1), toggle, more, axisByte a] ++ encPos lo ++ encPos hi) =
        { l with
          pending := .pageAck (BitVec.ofNat 8 (k + 1)) b true, pages := k + 2, toggle := some b,
          gathered := l.gathered.set a (some ⟨lo, hi⟩), pageTimer := none }) ∧
    (∀ (page : Byte) (rest : List Byte), l.state = .exchange → l.toggle = some b →
      l.takePage (page :: toggle :: rest) = { l with pending := .pageAck page b false }) ∧
    (∀ (page : Byte) (rest : List Byte), l.state = .exchange → l.toggle = some (!b) →
      page ≠ 0#8 → page.toNat ≠ l.pages →
      l.takePage (page :: toggle :: rest) =
        { l with
          state := .probe, pending := .probe, pages := 0, toggle := none, headMask := none,
          gathered := .const none, pageTimer := none }) ∧
    (∀ old : AxisMask, l.state = .exchange → l.toggle = some (!b) → l.headMask = some old →
      (∀ mask : AxisMask, l.pages ≤ old.axes.length → more.getLsbD 0 = decide (mask ≠ 0#6) →
        l.takePage [0#8, toggle, more, mask.setWidth 8] =
          { l with
            pending := .pageAck 0#8 b true, pages := 1, toggle := some b,
            headMask := some mask, gathered := .const none, pageTimer := none }) ∧
      (∀ (page : Byte) (rest : List Byte), l.pages = old.axes.length + 1 →
        l.takePage (page :: toggle :: rest) =
          { l with
            state := .probe, pending := .probe, pages := 0, toggle := none, headMask := none,
            gathered := .const none, pageTimer := none })) ∧
    (∀ body, (l.state = .off ∨ l.state = .linked) → l.takePage body = l)) ∧
  (∀ (l : Link) (page toggle : Byte) (rest : List Byte) (old : AxisMask),
    let back := { l with
      state := .probe, pending := .probe, pages := 0, toggle := none, headMask := none,
      gathered := .const none, pageTimer := none }
    let first : Prop := page = 0#8 ∧ ∃ (more : Byte) (mask : AxisMask),
      rest = [more, mask.setWidth 8] ∧ more.getLsbD 0 = decide (mask ≠ 0#6)
    let next : Prop := page ≠ 0#8 ∧ page.toNat = l.pages ∧ ∃ (more : Byte) (a : Axis) (lo hi : Int),
      rest = [more, axisByte a] ++ encPos lo ++ encPos hi ∧
      old.axes[page.toNat - 1]? = some a ∧
      more.getLsbD 0 = decide (page.toNat < old.axes.length) ∧
      lo ≤ hi ∧ fitsPosition lo = true ∧ fitsPosition hi = true
    (l.state = .probe → ¬ first → l.takePage (page :: toggle :: rest) = l) ∧
    (l.state = .exchange → l.headMask = some old → l.toggle ≠ some (toggle.getLsbD 0) →
      ¬ first → ¬ next → l.takePage (page :: toggle :: rest) = back) ∧
    (∀ short : List Byte, short.length < 2 →
      (l.state = .probe → l.takePage short = l) ∧ (l.state = .exchange → l.takePage short = back))) ∧
  (∀ (s : State) (st : StoreId) (address : Byte) (body : List Byte), s.part.work = [] →
    (s.part.receives st = false →
      exec (.page st address body) s = .next { s with part := s.part.chooseIdle }) ∧
    (s.part.receives st = true → s.part.slotAt st address = none →
      exec (.page st address body) s =
        .next { s with part := (s.part.bump (.line st .bad)).chooseIdle })) ∧
  (∀ (c : Cm8) (st : StoreId) (address : Byte),
    let answers (i : Slot) : Prop := (c.head i).map.mask ≠ 0#6 ∧ (c.head i).map.pair = st.pair ∧
      (match (c.pair st.pair).inForce.mode with
        | .duplex => st.line = .a
        | .split => (c.head i).map.line = st.line) ∧ (c.head i).map.address = address
    (c.slotAt st address = none ↔ ∀ i, ¬ answers i) ∧
    (∀ i, c.slotAt st address = some i → answers i ∧ ∀ j, j < i → ¬ answers j))

/-- Entry into LINKED: the head ranges gathered become the slot's, the counters start anew, a head that
lacks a configured axis is halted with cause MISMATCH and one with an empty interval with cause RANGE,
and a HALTED head keeps its halt with its cause judged again (R157, R158). HEAD_LINKED is posted with the
head axis mask, then one LIMITS_NARROWED with the configured axes whose working interval has a higher low
end or a lower high end than before, ascending, when there are any, then HEAD_HALTED of a halt. -/
def Obligations.EntryIntoLinked : Prop :=
  ∀ (c : Cm8) (i : Slot) (mask : AxisMask), (c.head i).link.headMask = some mask →
    let h := c.head i
    let t := (c.enterLinked i).head i
    let lacks := ∃ a, h.configured a = true ∧ mask.getLsbD a.num = false
    let empty := ∃ a, h.configured a = true ∧ (t.axes.get a).working.hi < (t.axes.get a).working.lo
    t.link.state = .linked ∧ t.link.loss = 0 ∧ t.link.reported = false ∧ t.link.pageTimer = none ∧
    (∀ a, (t.axes.get a).headRange =
      if mask.getLsbD a.num then h.link.gathered.get a else none) ∧
    t.setpoint = h.setpoint ∧ t.track = h.track ∧
    (h.activity = .offline →
      (lacks → t.activity = .halted .mismatch) ∧
      (¬ lacks → empty → t.activity = .halted .range) ∧
      (¬ lacks → ¬ empty → t.activity = .offline)) ∧
    (∀ w, h.activity = .halted w →
      (lacks → t.activity = .halted .mismatch) ∧
      (¬ lacks → w = .mismatch → t.activity = .halted .lost) ∧
      (¬ lacks → w ≠ .mismatch → t.activity = .halted w)) ∧
    (let narrowed := (h.map.mask.axes.filter fun a =>
       decide ((h.working a).lo < (t.axes.get a).working.lo ∨
         (t.axes.get a).working.hi < (h.working a).hi)).map fun a => (a, (t.axes.get a).working)
     let said := (some i, none, Event.headLinked mask) ::
       (if narrowed = [] then [] else [(some i, none, .limitsNarrowed narrowed)])
     let told (l : List (Option Slot × Option Byte × Event)) : Prop :=
       (c.enterLinked i).events = c.events.told c.clock.frame (said ++ l)
     ((∃ w, h.activity = .halted w) → told []) ∧
     (h.activity = .offline → h.queue = [] →
       (lacks → told [(some i, none, .headHalted .mismatch)]) ∧
       (¬ lacks → empty → told [(some i, none, .headHalted .range)]) ∧
       (¬ lacks → ¬ empty → told []))) ∧
    (∀ z : Zone, (c.enterLinked i).holder z = c.holder z)

/-- LINK_LOSS completes when the tick's step of a LINKED slot brings its loss tick counter to the link loss
ticks of its pair: the link is lost. A head in any state but OFFLINE and HALTED is then halted with cause
LOST, the engine is back in PROBE with the latched flag set and no head ranges, HEAD_UNLINKED with reason
LOSS is posted after the records of the halt, and setpoints, history, sequence number and zones are kept
(R160). PAGE_TIMEOUT completes when the tick's step brings a running
page timer to 16: the slot goes back to PROBE and the exchange is forgotten (R156). How the row meets the
tick's other work and an idle port is the model's choice (log entries 1 and 4). -/
def Obligations.LinkTimersRunOut : Prop :=
  (∀ (s : State) (i : Slot) (ws : List Work), s.part.work = .link i :: ws →
    (s.part.head i).link.state = .linked →
    (s.part.pair (s.part.head i).map.pair).setup.lossTicks ≤ (s.part.head i).link.loss + 1 →
    exec (.linkLoss i) s = .next { s with
      part := ({ s.part with work := ws }.loseLink i).advance.chooseIdle }) ∧
  (∀ (c : Cm8) (i : Slot),
    let h := c.head i
    let t := (c.loseLink i).head i
    t.activity = (match h.activity with
      | .offline => .offline
      | .halted w => .halted w
      | _ => .halted .lost) ∧
    t.link = { Link.reset with state := .probe, pending := .probe, lostFlag := true } ∧
    (∀ a, (t.axes.get a).headRange = none) ∧ t.setpoint = h.setpoint ∧ t.previous = h.previous ∧
    t.track = h.track ∧ t.seq = h.seq ∧
    (c.loseLink i).events = (match h.activity with
      | .offline => c.events
      | .halted _ => c.events
      | _ => (c.enterHalted i .lost).events).told c.clock.frame
        [(some i, none, .headUnlinked .loss)] ∧
    (∀ z : Zone, (c.loseLink i).holder z = c.holder z) ∧
    (∀ j : Slot, j ≠ i → (c.loseLink i).head j = c.head j)) ∧
  (∀ (s : State) (i : Slot) (t : Nat) (ws : List Work), s.part.work = .page i :: ws →
    (s.part.head i).link.pageTimer = some t → 16 ≤ t + 1 →
    exec (.pageTimeout i) s = .next { s with
      part := ({ s.part with work := ws }.onHead i fun h =>
        { h with
          link := { h.link with
            state := .probe, pending := .probe, pages := 0, toggle := none, headMask := none,
            gathered := .const none, pageTimer := none } }).advance.chooseIdle })

/-! ### The program port (R176 to R183) -/

/-- PORT_CHARACTER_GAP_TIMEOUT and PORT_BAD_FRAME complete: the frame is discarded and counted in RX_BAD.
COMMAND_FRAME completes: with a full reply queue the frame joins the receive buffer and RX_OK is
incremented; with a full buffer it is lost and RX_OVERRUN is incremented; with an empty buffer and a free
reply place it is counted and carried out at once, with one reply. That an instant before the latest one
that the clock has reached counts as that one is the model's choice (log entry 16), and so is where the
reply stands (log entries 4 and 15). -/
def Obligations.PortFramesCounted : Prop :=
  (∀ (s : State) (why : PortFault), s.part.work = [] →
    exec .portCharacterGapTimeout s = .next { s with part := (s.part.bump .rxBad).chooseIdle } ∧
    exec (.portBadFrame why) s = .next { s with part := (s.part.bump .rxBad).chooseIdle }) ∧
  (∀ (s : State) (instant : Nat) (kind tag : Byte) (body : List Byte), s.part.work = [] →
    let c := { s.part with clock := { s.part.clock with now := max s.part.clock.now instant } }
    let ok := c.bump .rxOk
    (c.port.buffer.length < 4 → 4 ≤ c.port.replies.length →
      exec (.commandFrame instant kind tag body) s = .next { s with
        part := { ok with
          port := { ok.port with buffer := ok.port.buffer ++ [CommandFrame.mk kind tag body] } }.chooseIdle }) ∧
    (4 ≤ c.port.buffer.length →
      exec (.commandFrame instant kind tag body) s =
        .next { s with part := (c.bump .rxOverrun).chooseIdle }) ∧
    (c.port.buffer = [] → c.port.replies.length < 4 →
      exec (.commandFrame instant kind tag body) s =
        .next (s.answered (carryOut kind tag body ok).1 kind tag (carryOut kind tag body ok).2)) ∧
    (∀ k : CommandKind, k.code = kind → carryOut kind tag body ok = runKind k tag body ok))

/-- UPSTREAM_FRAME_SENT completes when a frame is being sent: a PORT SET reply brings its settings into force,
a frame being received then is lost when they differ, and the arbiter makes its next choice: the oldest
reply, else the oldest event record, else the forwarded report of the first slot in cyclic order after the
last slot served, which becomes the last slot served (R180, R183). Then, while a reply place is free, the
oldest waiting command is taken and answered, and the others after it; with no place free they wait (R178).
An upstream frame is laid out by R190 to R192: a reply with the kind answered, the outcome and the read
data, an event record with its nine fields and its detail, a forwarded report with its fields and
positions. The model's choice: an instant before the latest one that the clock has reached counts as that
one (log entry 16); a frame is being received when the row says so or the receiver has one in progress (log
entries 16 and 32); the count of a frame so lost comes before the choice (log entry 36); when an idle port
begins to send (log entry 4). -/
def Obligations.UpstreamFramesInOrder : Prop :=
  (∀ (s : State) (instant : Nat) (receiving : Bool) (u : Upstream), s.part.work = [] →
    s.part.port.sending = some u →
    let c := { s.part with clock := { s.part.clock with now := max s.part.clock.now instant } }
    let heard := receiving = true ∨ c.port.incoming.isSome = true
    ∃ d : Cm8,
      (s.part.port.buffer = [] →
        exec (.upstreamFrameSent instant receiving) s =
          .next { s with part := d.choose.chooseIdle }) ∧
      (∀ f rest, s.part.port.buffer = f :: rest → d.choose.port.replies.length < 4 →
        let e := { d.choose with port := { d.choose.port with buffer := rest } }
        let r := carryOut f.kind f.tag f.body e
        exec (.upstreamFrameSent instant receiving) s = .next { s with
          part := (Cm8.pumpN rest.length { r.1 with
            port := { r.1.port with
              replies := r.1.port.replies ++ [⟨f.kind, f.tag, r.2⟩] } }).chooseIdle }) ∧
      (s.part.port.buffer ≠ [] → 4 ≤ d.choose.port.replies.length →
        exec (.upstreamFrameSent instant receiving) s =
          .next { s with part := d.choose.chooseIdle }) ∧
      (∀ (kind tag : Byte) (n : PortSettings) (data : List Byte),
        u = .reply ⟨kind, tag, .acceptedSettings n data⟩ →
        (n ≠ c.port.settings ∧ heard →
          d = { c with port := { c.port with settings := n, incoming := none } }.bump .rxBad) ∧
        (¬ (n ≠ c.port.settings ∧ heard) →
          d = { c with port := { c.port with settings := n } })) ∧
      ((∀ (kind tag : Byte) (n : PortSettings) (data : List Byte),
        u ≠ .reply ⟨kind, tag, .acceptedSettings n data⟩) → d = c)) ∧
  (∀ c : Cm8,
    (∀ r rest, c.port.replies = r :: rest → c.choose =
      { c with port := { c.port with replies := rest, sending := some (.reply r) } }) ∧
    (∀ e rest, c.port.replies = [] → c.events.queue = e :: rest → c.choose =
      { c with
        port := { c.port with sending := some (.event e) },
        events := { c.events with queue := rest } }) ∧
    (∀ (n : Fin 8) (r : ForwardedReport), c.port.replies = [] → c.events.queue = [] →
      let i := c.port.lastServed + 1 + n
      (c.head i).track.upstream = some r →
      (∀ m : Fin 8, m < n → (c.head (c.port.lastServed + 1 + m)).track.upstream = none) →
      c.choose = { (c.setHead i { c.head i with track := { (c.head i).track with upstream := none } }) with
        port := { c.port with lastServed := i, sending := some (.report i r) } }) ∧
    (c.port.replies = [] → c.events.queue = [] → (∀ i : Slot, (c.head i).track.upstream = none) →
      c.choose = { c with port := { c.port with sending := none } })) ∧
  (let name (x : Option SourceName) : Byte := match x with
      | some (.shot n) => BitVec.ofNat 8 n.val
      | some .inline => 0x80#8
      | none => 0xFF#8
    let marks (f : MoveFlags) : Byte := flagsByte [f.stretched, f.late, f.clamped, f.softened]
    (∀ r : Reply, (Upstream.reply r).frame = ⟨0#8, 0xE0#8, r.tag, r.kind ::
      (match r.answer with
        | .accepted data => 0#8 :: data
        | .acceptedSettings _ data => 0#8 :: data
        | .refused why => [match why with
          | .malformed => 1#8 | .unknown => 2#8 | .range => 3#8 | .noHead => 4#8 | .noShot => 5#8
          | .queueFull => 6#8 | .halted => 7#8 | .busy => 8#8 | .zoneBusy => 9#8 | .limit => 10#8
          | .onAir => 11#8 | .capacity => 12#8 | .mismatch => 13#8])⟩) ∧
    (∀ e : EventRecord, (Upstream.event e).frame = ⟨0#8, 0xE1#8, 0#8,
      (match e.event with
        | .moveStarted .. => 0x01#8 | .moveDone _ => 0x02#8 | .moveDropped .. => 0x03#8
        | .moveHeld .. => 0x04#8 | .moveResumed .. => 0x05#8 | .moveSoftened _ => 0x06#8
        | .zoneWait _ => 0x07#8 | .zoneGranted .. => 0x08#8 | .headHalted _ => 0x10#8
        | .headLinked _ => 0x11#8 | .headUnlinked _ => 0x12#8 | .limitsNarrowed _ => 0x13#8
        | .tally _ => 0x14#8 | .syncLost => 0x20#8 | .syncLocked => 0x21#8 | .counter .. => 0x30#8
        | .resetDone => 0x31#8) :: enc4 e.frame ++
        [flagsByte [e.slot.isSome, e.tag.isSome], (e.slot.map slotByte).getD 0#8, e.tag.getD 0#8,
          BitVec.ofNat 8 e.dropped] ++
        (match e.event with
        | .moveStarted x d f => name x :: enc2 d ++ [marks f]
        | .moveDone x => [name x]
        | .moveDropped x why => [name x, match why with
          | .flushed => 1#8 | .superseded => 2#8 | .noShot => 3#8 | .limit => 4#8 | .onAir => 5#8
          | .zoneBusy => 6#8 | .zoneTimeout => 7#8]
        | .moveHeld x r => name x :: enc2 r
        | .moveResumed x d f n => name x :: enc2 d ++ [marks f] ++ enc2 n.toNat
        | .moveSoftened d => enc2 d
        | .zoneWait zs => enc2 zs.toNat
        | .zoneGranted zs t => enc2 zs.toNat ++ enc2 t
        | .headHalted cause => [match cause with
          | .command => 1#8 | .follow => 2#8 | .head => 3#8 | .lost => 4#8 | .mismatch => 5#8
          | .range => 6#8 | .conflict => 7#8 | .reset => 8#8]
        | .headLinked mask => [mask.setWidth 8]
        | .headUnlinked why => [match why with | .loss => 1#8 | .map => 2#8 | .line => 3#8]
        | .limitsNarrowed axes => BitVec.ofNat 8 axes.length :: axes.flatMap fun a =>
            BitVec.ofNat 8 (a.1.num + if a.2.hi < a.2.lo then 128 else 0) ::
              encPos a.2.lo ++ encPos a.2.hi
        | .tally on => [if on then 1#8 else 0#8]
        | .syncLost => []
        | .syncLocked => []
        | .counter id full => [match id with
            | .line st k => BitVec.ofNat 8 (32 * st.pair.val + (if st.line = .a then 0 else 16) +
                match k with
                | .sent => 0 | .received => 1 | .bad => 2 | .stale => 3 | .overrun => 4 | .passDrop => 5)
            | .rxOk => 0x40#8
            | .rxBad => 0x41#8
            | .rxOverrun => 0x42#8
            | .glitch => 0x50#8,
            if full then 2#8 else 1#8]
        | .resetDone => [])⟩) ∧
    (∀ (i : Slot) (r : ForwardedReport), (Upstream.report i r).frame =
      ⟨BitVec.ofNat 8 (i.val + 1), 0xE2#8, 0#8, enc4 r.frame ++
        [r.echo, flagsByte [r.servoFault, r.localControl, r.stale, r.superseded],
          r.mask.setWidth 8] ++ r.mask.axes.flatMap fun a => encPos (r.positions.get a)⟩))

/-! ### Events and counters (R200 to R207) -/

/-- A posting of a disabled kind changes nothing; an enabled record is stamped with F and meets the queue.
With fewer than 32 records it joins with the dropped count, which becomes 0; with 32, KEEP discards it and
OVERWRITE removes the oldest for it, and the dropped count rises and stays at 255; the queue never holds more
than 32 records, and the arbiter takes from its head (R180, R200 to R202). -/
def Obligations.EventQueueKeepsThirtyTwo : Prop :=
  (∀ (c : Cm8) (slot : Option Slot) (tag : Option Byte) (e : Event),
    (c.events.enabled e = false → c.post slot tag e = c) ∧
    (c.events.enabled e = true →
      c.post slot tag e =
        { c with events := c.events.enqueue ⟨e, c.clock.frame, slot, tag, 0⟩ })) ∧
  (∀ (u : EventUnit) (r : EventRecord),
    (u.queue.length < 32 → u.enqueue r =
      { u with queue := u.queue ++ [{ r with dropped := u.dropped }], dropped := 0 }) ∧
    (u.queue.length = 32 → u.mode = .keep → u.enqueue r =
      { u with dropped := if u.dropped < 255 then u.dropped + 1 else 255 }) ∧
    (∀ o rest, u.queue.length = 32 → u.mode = .overwrite → u.queue = o :: rest → u.enqueue r =
      { u with
        queue := rest ++ [{ r with dropped := if u.dropped < 255 then u.dropped + 1 else 255 }],
        dropped := 0 }) ∧
    (u.queue.length ≤ 32 → (u.enqueue r).queue.length ≤ 32) ∧
    (∀ (c : Cm8) (o : EventRecord) (rest : List EventRecord), c.port.replies = [] →
      c.events.queue = o :: rest → c.choose.events.queue = rest))

/-- One increment of one of the 28 counters: it adds one, and at 65 535 WRAP gives 0 and SATURATE keeps it, by
the mode in force at the increment, which changes no value when it is set; COUNTER is posted with HALF at 32
768 and FULL at 65 535, and for no other value. -/
def Obligations.CounterStepsAndMarks : Prop :=
  (∃ ids : List CounterId, ids.length = 28 ∧ ids.Nodup ∧ ∀ id, id ∈ ids) ∧
  (∀ (c : Cm8) (id : CounterId) (mode : CounterMode),
    { c with events := { c.events with counterMode := mode } }.counter id = c.counter id) ∧
  ∀ (c : Cm8) (id : CounterId),
    let v := c.counter id
    (v ≠ 0xFFFF#16 → (c.bump id).counter id = v + 1#16) ∧
    (v = 0xFFFF#16 → c.events.counterMode = .wrap → c.bump id = c.setCounter id 0#16) ∧
    (v = 0xFFFF#16 → c.events.counterMode = .saturate → c.bump id = c) ∧
    (v = 0x7FFF#16 →
      c.bump id = (c.setCounter id 0x8000#16).post none none (.counter id false)) ∧
    (v = 0xFFFE#16 →
      c.bump id = (c.setCounter id 0xFFFF#16).post none none (.counter id true)) ∧
    (v ≠ 0x7FFF#16 → v ≠ 0xFFFE#16 → v ≠ 0xFFFF#16 → c.bump id = c.setCounter id (v + 1#16)) ∧
    (∀ other, other ≠ id → (c.bump id).counter other = c.counter other)

/-! ### Reports (R85, R145, R159, R164 to R173) -/

/-- REPORT completes on a line that receives, for the configured slot with that address and a body of the
size that its mask asks for: it is counted in RECEIVED, and a LINKED slot's engine and tracker take it. They
clear the loss tick counter, set the reported flag, place an OFFLINE head by its first report as
FirstReportPlacesHead says, and then the tracker takes the report as TrackerFollowsAndForwards says.
Positions and flags are stored, and a report with the servo fault flag leaves the head HALTED, whatever it
was doing: an OFFLINE head's first report too, after R85 has placed or halted it (R159, R167, R169). A body
is the echoed sequence number, the status with bit 0 the servo fault and bit 1 local control, and the
position of each configured axis in ascending order, three bytes each; one of another size, or from an
address of no configured slot of the line, is counted in BAD (R145, R193), and a line that does not receive
hears nothing (R144). That reception goes by the mode in force on the wires, and that the lowest of two
slots with one address answers, is the model's choice (log entry 23). When an idle port begins to send is
the model's choice (log entry 4). -/
def Obligations.ReportTaken : Prop :=
  (∀ (mask : AxisMask) (body : List Byte),
    (body.length ≠ 2 + 3 * mask.axes.length → readReport mask body = none) ∧
    (∀ (echo status : Byte) (ps : List Int), ps.length = mask.axes.length →
      (∀ p ∈ ps, fitsPosition p = true) → body = echo :: status :: ps.flatMap encPos →
      ∃ r : Report, readReport mask body = some r ∧ r.echo = echo ∧
        r.servoFault = status.getLsbD 0 ∧ r.localControl = status.getLsbD 1 ∧
        ∀ (n : Nat) (a : Axis), mask.axes[n]? = some a → ps[n]? = some (r.measured.get a))) ∧
  (∀ (s : State) (st : StoreId) (address : Byte) (body : List Byte) (i : Slot), s.part.work = [] →
    s.part.receives st = true → s.part.slotAt st address = some i →
    readReport (s.part.head i).map.mask body = none →
    exec (.report st address body) s =
      .next { s with part := (s.part.bump (.line st .bad)).chooseIdle }) ∧
  (∀ (s : State) (st : StoreId) (address : Byte) (body : List Byte) (i : Slot) (r : Report),
    s.part.work = [] → s.part.receives st = true → s.part.slotAt st address = some i →
    readReport (s.part.head i).map.mask body = some r →
    let c := s.part.bump (.line st .received)
    ((s.part.head i).link.state = .linked → exec (.report st address body) s =
      .next { s with part := (c.linkedReport i r).chooseIdle }) ∧
    ((s.part.head i).link.state ≠ .linked → exec (.report st address body) s =
      .next { s with part := c.chooseIdle })) ∧
  (∀ (c : Cm8) (i : Slot) (r : Report),
    let t := (c.linkedReport i r).head i
    t.link = { (c.head i).link with loss := 0, reported := true } ∧
    t.track.measured = some r.measured ∧ t.track.servoFault = r.servoFault ∧
    t.track.localControl = r.localControl ∧ t.track.history = (c.head i).track.history ∧
    t.track.interval.isSome = true ∧
    (r.servoFault = true →
      ((c.head i).activity = .offline → (c.head i).link.reported = false) →
      t.activity.isHalted = true) ∧
    (r.servoFault = true → (c.head i).activity ≠ .offline → (c.head i).activity.isHalted = false →
      t.activity = .halted .head) ∧
    (∀ j : Slot, j ≠ i → (c.linkedReport i r).head j = c.head j) ∧
    (let seen := c.onHead i fun h => { h with link := { h.link with loss := 0, reported := true } }
    ((c.head i).activity = .offline ∧ (c.head i).link.reported = false →
      c.linkedReport i r = (seen.firstReport i r).trackReport i r) ∧
    (¬ ((c.head i).activity = .offline ∧ (c.head i).link.reported = false) →
      c.linkedReport i r = seen.trackReport i r))) ∧
  (∀ (s : State) (st : StoreId) (address : Byte) (body : List Byte), s.part.work = [] →
    (s.part.receives st = false →
      exec (.report st address body) s = .next { s with part := s.part.chooseIdle }) ∧
    (s.part.receives st = true → s.part.slotAt st address = none →
      exec (.report st address body) s =
        .next { s with part := (s.part.bump (.line st .bad)).chooseIdle })) ∧
  (∀ (c : Cm8) (st : StoreId) (address : Byte),
    let answers (i : Slot) : Prop := (c.head i).map.mask ≠ 0#6 ∧ (c.head i).map.pair = st.pair ∧
      (match (c.pair st.pair).inForce.mode with
        | .duplex => st.line = .a
        | .split => (c.head i).map.line = st.line) ∧ (c.head i).map.address = address
    (c.slotAt st address = none ↔ ∀ i, ¬ answers i) ∧
    (∀ i, c.slotAt st address = some i → answers i ∧ ∀ j, j < i → ¬ answers j))

/-- The first report of an OFFLINE head: its setpoints come from the measured positions less the trims; it
is halted with cause RANGE outside its limits, with cause CONFLICT on floor that another head holds, and
otherwise freed with its resident zones (R85). -/
def Obligations.FirstReportPlacesHead : Prop :=
  ∀ (c : Cm8) (i : Slot) (r : Report), (c.head i).activity = .offline → (c.head i).queue = [] →
    let h := c.head i
    let d := c.firstReport i r
    let t := d.head i
    let residents := c.mappedZones i fun e =>
      e.range.contains (if h.configured .travel then r.measured.get .travel - (h.axes.get .travel).trim
        else h.setpoint.get .travel)
    let inside := ∀ a, h.configured a = true →
      (h.axes.get a).working.contains (r.measured.get a - (h.axes.get a).trim) = true
    let taken := ∃ z : Zone, residents.getLsbD z.val = true ∧ ∃ j, j ≠ i ∧ c.holder z = some j
    (∀ a, h.configured a = true →
      t.setpoint.get a = r.measured.get a - (h.axes.get a).trim ∧ t.previous.get a = t.setpoint.get a) ∧
    (¬ inside → t.activity = .halted .range ∧ ∀ z : Zone, d.holder z = c.holder z) ∧
    (inside → taken → t.activity = .halted .conflict ∧ ∀ z : Zone, d.holder z = c.holder z) ∧
    (inside → ¬ taken → t.activity = .idle ∧
      ∀ z : Zone, d.holder z = if residents.getLsbD z.val then some i else c.holder z)

/-- A report is taken in the order of R167: its positions and flags are stored, the servo fault flag halts
the head, the following check is made, and a first report of its interval is offered for forwarding, with
the run from before it as the saved run (R170). The following check of a matched report on a head that is
neither HALTED nor OFFLINE: an axis beyond its follow limit adds one to the run, which never exceeds 8, and
halts the head with cause FOLLOW once the run is at the follow count; otherwise the run becomes 0. A stale
report is counted in STALE and leaves the run (R166, R168). The first report of an interval counts towards
decimation: with decimation d every d-th is placed in the upstream report slot, superseding an unsent one,
and with 0 none is (R172, R173). A report with local control set makes the run 0 (R168). A further report of
the interval is counted in OVERRUN and replaces the earlier ones: its positions and flags, the run set back
to the saved value before its own check, and its place in the upstream report slot when an earlier report of
the interval was placed there; the interval flag and the decimation counter stay (R171). That the run is set
back for a stale report too is read by inference (log entry 19). The model's choices: that it is set back
after a CLEAR within the interval, and that a run of 8 then stays 8 (log entry 31), and that local control
or an overrun report changes the run of a HALTED head (log entry 35). -/
def Obligations.TrackerFollowsAndForwards : Prop :=
  (∀ (c : Cm8) (i : Slot) (r : Report), r.localControl = false →
    let h := c.head i
    let d := c.followStep i r
    let t := d.head i
    (∀ (e : HistoryEntry) (want : PerAxis Int),
      (h.track.history.find? fun x => x.seq = r.echo) = some e → e.positions = some want →
      e.mask = h.map.mask → h.activity ≠ .offline → h.activity.isHalted = false →
      let beyond := ∃ a, h.configured a = true ∧
        (h.axes.get a).followLimit < (want.get a - r.measured.get a).natAbs
      let run := min (h.track.run + 1) 8
      (beyond → t.track.run = run ∧
        (h.followCount ≤ run → t.activity = .halted .follow) ∧
        (run < h.followCount → t.activity = h.activity)) ∧
      (¬ beyond → t.track.run = 0 ∧ t.activity = h.activity)) ∧
    ((∀ x ∈ h.track.history, x.seq ≠ r.echo) →
      d = c.bump (.line (c.lineOf i) .stale)) ∧
    (∀ e : HistoryEntry, (h.track.history.find? fun x => x.seq = r.echo) = some e →
      (e.positions = none ∨ e.mask ≠ h.map.mask ∨ h.activity = .offline ∨
        h.activity.isHalted = true) → d = c)) ∧
  (∀ (c : Cm8) (i : Slot) (r : Report) (stale : Bool) (saved : Nat),
    let h := c.head i
    let d := h.forward.decimation
    let t := (c.offerReport i r stale saved).head i
    (d = 0 → t.track.upstream = h.track.upstream ∧ t.track.decimation = h.track.decimation ∧
      t.track.interval = some ⟨saved, false⟩) ∧
    (h.track.decimation + 1 < d → t.track.upstream = h.track.upstream ∧
      t.track.decimation = h.track.decimation + 1 ∧ t.track.interval = some ⟨saved, false⟩) ∧
    (d ≠ 0 → d ≤ h.track.decimation + 1 → t.track.decimation = 0 ∧
      t.track.interval = some ⟨saved, true⟩ ∧
      ∃ u, t.track.upstream = some u ∧ u.frame = c.clock.frame ∧ u.echo = r.echo ∧
        u.servoFault = r.servoFault ∧ u.localControl = r.localControl ∧ u.stale = stale ∧
        u.superseded = h.track.upstream.isSome ∧ u.mask = h.map.mask ∧
        ∀ a, h.configured a = true → u.positions.get a = r.measured.get a - (h.axes.get a).trim)) ∧
  (∀ (c : Cm8) (i : Slot) (r : Report),
    let h := c.head i
    let stored (d : Cm8) : Cm8 :=
      let d := d.onHead i fun h => { h with track := { h.track with
        measured := some r.measured, servoFault := r.servoFault, localControl := r.localControl } }
      if r.servoFault = true ∧ h.activity ≠ .offline ∧ h.activity.isHalted = false then
        d.enterHalted i .head
      else d
    let stale := decide (∀ x ∈ h.track.history, x.seq ≠ r.echo)
    (h.track.interval = none → c.trackReport i r =
      ((stored c).followStep i r).offerReport i r stale h.track.run) ∧
    (∀ flag, h.track.interval = some flag →
      let back := (stored (c.bump (.line (c.lineOf i) .overrun))).onHead i fun h =>
        { h with track := { h.track with run := flag.savedRun } }
      let d := back.followStep i r
      c.trackReport i r = if flag.forwarded then d.placeReport i r stale else d)) ∧
  (∀ (c : Cm8) (i : Slot) (r : Report), r.localControl = true →
    let clear (d : Cm8) : Cm8 := d.onHead i fun h => { h with track := { h.track with run := 0 } }
    ((∀ x ∈ (c.head i).track.history, x.seq ≠ r.echo) →
      c.followStep i r = clear (c.bump (.line (c.lineOf i) .stale))) ∧
    ((∃ x ∈ (c.head i).track.history, x.seq = r.echo) → c.followStep i r = clear c)) ∧
  (∀ (c : Cm8) (i : Slot) (r : Report) (flag : IntervalFlag),
    (c.head i).track.interval = some flag →
    let h := c.head i
    let d := c.trackReport i r
    let t := d.head i
    d.counter (.line (c.lineOf i) .overrun) =
      (c.bump (.line (c.lineOf i) .overrun)).counter (.line (c.lineOf i) .overrun) ∧
    t.track.measured = some r.measured ∧ t.track.servoFault = r.servoFault ∧
    t.track.localControl = r.localControl ∧ t.track.interval = some flag ∧
    t.track.decimation = h.track.decimation ∧ t.track.history = h.track.history ∧
    (r.localControl = true → t.track.run = 0) ∧
    (r.localControl = false → (∀ x ∈ h.track.history, x.seq ≠ r.echo) →
      t.track.run = flag.savedRun) ∧
    (∀ (e : HistoryEntry) (want : PerAxis Int), r.localControl = false → r.servoFault = false →
      (h.track.history.find? fun x => x.seq = r.echo) = some e → e.positions = some want →
      e.mask = h.map.mask → h.activity ≠ .offline → h.activity.isHalted = false →
      let beyond := ∃ a, h.configured a = true ∧
        (h.axes.get a).followLimit < (want.get a - r.measured.get a).natAbs
      let run := min (flag.savedRun + 1) 8
      (beyond → t.track.run = run ∧
        (h.followCount ≤ run → t.activity = .halted .follow) ∧
        (run < h.followCount → t.activity = h.activity)) ∧
      (¬ beyond → t.track.run = 0 ∧ t.activity = h.activity)) ∧
    (flag.forwarded = false → t.track.upstream = h.track.upstream) ∧
    (flag.forwarded = true → ∃ u, t.track.upstream = some u ∧ u.frame = c.clock.frame ∧
      u.echo = r.echo ∧ u.servoFault = r.servoFault ∧ u.localControl = r.localControl ∧
      u.stale = decide (∀ x ∈ h.track.history, x.seq ≠ r.echo) ∧
      u.superseded = h.track.upstream.isSome ∧ u.mask = h.map.mask ∧
      ∀ a, h.configured a = true → u.positions.get a = r.measured.get a - (h.axes.get a).trim))

/-! ### Calls and the move queue (R45 to R64) -/

/-- RECALL and RECALL INLINE that are queued. In APPEND mode, on a head that takes calls and has fewer than
8 entries, the entry joins the tail, a free head takes the state of R50, and the reply carries the length of
the queue; a full queue is refused QUEUE_FULL. In REPLACE mode with a cue, on a head that takes calls and is
not JOGGING, the queue is flushed and the one CUED-REPLACE entry takes its place; moves and zones are left
alone. Calls of every mode are turned away, in this order: RANGE for fields out of range (R24, R47),
MALFORMED for PRIORITY with a cue, NO_HEAD on a head that is not LINKED or is OFFLINE, HALTED, and BUSY
where the table of R48 says so. Where the reply stands is the model's choice (log entries 4 and 15). -/
def Obligations.QueuedCallsJoinQueue : Prop :=
  (∀ (s : State) (i : Slot) (x : Call), s.part.Ready → (s.part.head i).callable = true →
    x.Fits (s.part.head i).map.mask .append →
    let h := s.part.head i
    let queue := h.queue ++ [⟨x.source, .after, x.cue, x.duration, x.profile, x.tag⟩]
    (h.queue.length < 8 →
      exec (x.row i .append) s = .next (s.accepts
        (s.part.setHead i
          { h with
            queue := queue,
            activity := match h.activity with
              | .idle => freeActivity s.part.clock.frame queue
              | .waitCue => freeActivity s.part.clock.frame queue
              | a => a })
        x.kind x.tag [0#8, BitVec.ofNat 8 (h.queue.length + 1)])) ∧
    (8 ≤ h.queue.length →
      exec (x.row i .append) s = .next (s.refuses s.part x.kind x.tag .queueFull))) ∧
  (∀ (s : State) (i : Slot) (x : Call) (cue : BitVec 32), s.part.Ready →
    (s.part.head i).callable = true → (∀ j, (s.part.head i).activity ≠ .jogging j) →
    x.cue = some cue → x.Fits (s.part.head i).map.mask .replace →
    let c := s.part
    let queue := [QueueEntry.mk x.source .cuedReplace (some cue) x.duration x.profile x.tag]
    ∃ d : Cm8, exec (x.row i .replace) s = .next (s.accepts d x.kind x.tag [0#8, 1#8]) ∧
      d = ((c.flush i).setQueue i queue).refresh i ∧ (d.head i).queue = queue ∧
      ((c.head i).activity.isFree = false → (d.head i).activity = (c.head i).activity) ∧
      (∀ z : Zone, d.holder z = c.holder z)) ∧
  (∀ (s : State) (tag b m k p : Byte) (o : RawOptions), s.part.Ready → o.Named p →
    (8 ≤ b.toNat ∨ 3 ≤ m.toNat ∨ 64 ≤ k.toNat ∨ ¬ o.Fits) →
    exec (.recallShot tag ([b, m, k, p] ++ o.bytes)) s = .next (s.refuses s.part 0x50#8 tag .range)) ∧
  (∀ (s : State) (tag b m p n : Byte) (o : RawOptions) (ps : List (Byte × Int)), s.part.Ready →
    o.Named p → ps.length = n.toNat → (∀ t ∈ ps, fitsPosition t.2 = true) →
    (8 ≤ b.toNat ∨ 3 ≤ m.toNat ∨ ¬ o.Fits ∨ ps = [] ∨
      ∃ i : Slot, b = slotByte i ∧ ¬ ListFits (s.part.head i).map.mask ps) →
    exec (.recallInline tag ([b, m, p] ++ o.bytes ++ n :: rawPairBytes ps)) s =
      .next (s.refuses s.part 0x51#8 tag .range)) ∧
  (∀ (s : State) (i : Slot) (mode : CallMode) (x : Call), s.part.Ready →
    x.Fits (s.part.head i).map.mask .replace →
    let h := s.part.head i
    let refused (why : Reason) : Prop :=
      exec (x.row i mode) s = .next (s.refuses s.part x.kind x.tag why)
    (mode = .priority → x.cue ≠ none → refused .malformed) ∧
    ((mode = .priority → x.cue = none) →
      (h.link.state ≠ .linked ∨ h.activity = .offline → refused .noHead) ∧
      (h.link.state = .linked →
        (∀ w, h.activity = .halted w → refused .halted) ∧
        (∀ j, h.activity = .jogging j → mode ≠ .append → refused .busy) ∧
        (∀ m held, h.activity = .moving m held → m.cls = .stop →
          (mode = .priority ∨ (mode = .replace ∧ x.cue = none)) → refused .busy))))

/-- RECALL and RECALL INLINE in REPLACE mode without a cue. Over an active move that is not a stop move, when
the planning succeeds as a blend and its zones are free or the head's own, the queue is flushed and the new
move takes over; with a zone of another head the call is refused ZONE_BUSY. On a head with no active move,
when the planning succeeds from rest, the queue and a waiting move go, and the new move requests its zones.
The records of the flush come first, then SUPERSEDED for the displaced move and the held move, and in the
first case the passes of the zones freed and MOVE_STARTED; no other head changes but by a pass. A planning
that fails refuses the call NO_SHOT, ON_AIR or LIMIT. The reply carries D and which of the two it is. A
request (R119): with no needed zone the move starts; else the head joins the waiting set with its timer at 0
and a pass runs. Granted, it is MOVING and holds its zones, with MOVE_STARTED and no ZONE_GRANTED; not
granted, it is in WAIT_ZONE with ZONE_WAIT. For a REPLACE that record comes last (R55), but a head that a
later pass of the moment grants tells its wait before that pass; that choice is the model's (log entry 33). So
are the place of a request's ZONE_WAIT after the hand-overs of its own pass (log entry 10), a move that starts
within a tick leaving that tick's motion work, and the mark of a wait whose timer step is still to come (log
entries 1 and 5), LATE at a start (log entry 34), and where the reply stands (log entries 4 and 15). -/
def Obligations.ReplaceStartsAtOnce : Prop :=
  (∀ (s : State) (i : Slot) (x : Call) (m : Move) (held : Option Held) (p : Planned), s.part.Ready →
    (s.part.head i).link.state = .linked → (s.part.head i).activity = .moving m held →
    m.cls ≠ .stop → x.cue = none → x.Fits (s.part.head i).map.mask .replace →
    let c := s.part
    c.planSource i ((c.head i).blendStart m) .planned x.source x.duration x.profile x.tag = .ok p →
    ((∀ z : Zone, p.move.zones.getLsbD z.val = true → c.holder z = none ∨ c.holder z = some i) →
      let d := (c.flush i).overrideWith i p.move
      exec (x.row i .replace) s = .next (s.accepts d x.kind x.tag (1#8 :: enc2 p.move.d)) ∧
      (d.head i).activity = .moving p.move none ∧ (d.head i).queue = [] ∧ d.HoldsAll i p.move.zones ∧
      c.TakenOver d i p.move none [] (flushRecords i (c.head i).queue ++
        displacedRecords i (c.head i).activity)) ∧
    ((∃ z : Zone, p.move.zones.getLsbD z.val = true ∧ ∃ j, j ≠ i ∧ c.holder z = some j) →
      exec (x.row i .replace) s = .next (s.refuses c x.kind x.tag .zoneBusy))) ∧
  (∀ (s : State) (i : Slot) (x : Call) (p : Planned), s.part.Ready →
    (s.part.head i).link.state = .linked →
    ((s.part.head i).activity = .idle ∨ (s.part.head i).activity = .waitCue ∨
      ∃ w, (s.part.head i).activity = .waitZone w) →
    x.cue = none → x.Fits (s.part.head i).map.mask .replace →
    let c := s.part
    c.planSource i (c.head i).restStart .planned x.source x.duration x.profile x.tag = .ok p →
    let d := (((c.flush i).dropDisplaced i).toFree i).requestTold i p
      ⟨x.source, .after, none, x.duration, x.profile, x.tag⟩
    exec (x.row i .replace) s = .next (s.accepts d x.kind x.tag
      ((if (d.head i).activity.waiting.isSome then 2#8 else 1#8) :: enc2 p.move.d)) ∧
    (d.head i).queue = [] ∧
    (p.move.zones = 0#16 → (d.head i).activity = .moving p.move none) ∧
    ∃ e : Cm8, c.Turned e i { c.head i with activity := .idle, queue := [] } 0#16
        (flushRecords i (c.head i).queue ++ displacedRecords i (c.head i).activity) ∧
      d = e.requestTold i p ⟨x.source, .after, none, x.duration, x.profile, x.tag⟩) ∧
  (∀ (c : Cm8) (i : Slot) (p : Planned) (cue : Option (BitVec 32)) (back : QueueEntry),
    let starts (m : Move) (d : Cm8) : Cm8 :=
      { d with work := d.work.erase (.motion i) }.setActivity i (.moving m none)
    let started (m : Move) (d : Cm8) : Cm8 :=
      d.post (some i) m.tag (.moveStarted m.source m.d m.flags)
    let waits (d : Cm8) : Cm8 := d.post (some i) p.move.tag (.zoneWait p.move.zones)
    let w (x : Option (BitVec 32)) : Waiting :=
      ⟨p.move, x, p.requested, p.easeRequest, back, 0, decide (.timer i ∈ c.work)⟩
    let pass (x : Option (BitVec 32)) := (c.setActivity i (.waitZone (w x))).judgePass
    let others (x : Option (BitVec 32)) : Cm8 := (pass x).2.foldl Cm8.handGrant (pass x).1
    let m (x : Option (BitVec 32)) : Move := { p.move with flags := { p.move.flags with
      late := match x with | none => false | some y => decide (c.clock.frame ≠ y) } }
    (p.move.zones = 0#16 →
      c.request i p cue back = ((started (m cue) (starts (m cue) c)).recompute i).settle ∧
      c.requestTold i p back = started (m none) ((starts (m none) c).recompute i).settle) ∧
    (p.move.zones ≠ 0#16 → i ∈ (pass cue).2 →
      let d := c.request i p cue back
      d = ((pass cue).2.foldl (fun a j =>
        if j = i then (started (m cue) (starts (m cue) a)).recompute i else a.handGrant j)
        (pass cue).1).settle ∧
      (d.head i).activity = .moving (m cue) none ∧ d.HoldsAll i p.move.zones) ∧
    (p.move.zones ≠ 0#16 → i ∉ (pass cue).2 →
      let d := (waits (others cue)).recompute i
      c.request i p cue back = d.settle ∧ (d.head i).activity = .waitZone (w cue)) ∧
    (p.move.zones ≠ 0#16 → i ∈ (pass none).2 →
      let d := c.requestTold i p back
      d = started (m none) ((pass none).2.foldl (fun a j =>
        if j = i then (starts (m none) a).recompute i else a.handGrant j) (pass none).1).settle ∧
      (d.head i).activity = .moving (m none) none ∧ d.HoldsAll i p.move.zones) ∧
    (p.move.zones ≠ 0#16 → i ∉ (pass none).2 →
      let d := ((others none).recompute i).settle
      ((d.head i).activity = .waitZone (w none) → c.requestTold i p back = waits d) ∧
      ((d.head i).activity ≠ .waitZone (w none) →
        c.requestTold i p back = ((waits (others none)).recompute i).settle))) ∧
  (∀ (s : State) (i : Slot) (x : Call) (why : DropReason), s.part.Ready →
    (s.part.head i).callable = true → (∀ j, (s.part.head i).activity ≠ .jogging j) →
    (∀ m held, (s.part.head i).activity = .moving m held → m.cls ≠ .stop) → x.cue = none →
    x.Fits (s.part.head i).map.mask .replace →
    let c := s.part
    c.planSource i (c.overStart i) .planned x.source x.duration x.profile x.tag = .error why →
    (why = .noShot ∨ why = .onAir ∨ why = .limit) ∧
    exec (x.row i .replace) s = .next (s.refuses c x.kind x.tag
      (match why with | .noShot => .noShot | .onAir => .onAir | _ => .limit)) ∧
    (∀ m held, (c.head i).activity = .moving m held → c.overStart i = (c.head i).blendStart m) ∧
    ((c.head i).activity.active = none → c.overStart i = (c.head i).restStart))

/-- RECALL and RECALL INLINE in PRIORITY mode complete when the planning succeeds, its zones are free or the
head's own, and a waiting move has a place in the queue: a PLANNED move becomes the held move with D − k ticks
to run, with MOVE_HELD, a PRIORITY move is dropped SUPERSEDED and leaves the held move, a waiting move goes
back to the head of the queue, and the priority move runs, with MOVE_STARTED last (R70). Else the call is
refused QUEUE_FULL where a waiting move has no place, then NO_SHOT, ON_AIR or LIMIT as the planning gives,
then ZONE_BUSY (R58). That the waiting move stands ahead of a CUED-REPLACE entry that waits at the head is the
model's choice (log entry 30), and so is where the reply stands (log entries 4 and 15). -/
def Obligations.PriorityHoldsMove : Prop :=
  (∀ (s : State) (i : Slot) (x : Call) (p : Planned), s.part.Ready →
    (s.part.head i).callable = true → (∀ j, (s.part.head i).activity ≠ .jogging j) →
    (∀ m held, (s.part.head i).activity = .moving m held → m.cls ≠ .stop) →
    (∀ w, (s.part.head i).activity = .waitZone w → (s.part.head i).queue.length < 8) →
    x.Fits (s.part.head i).map.mask .priority →
    let c := s.part
    c.planSource i (c.overStart i) .priority x.source x.duration x.profile x.tag = .ok p →
    (∀ z : Zone, p.move.zones.getLsbD z.val = true → c.holder z = none ∨ c.holder z = some i) →
    let d := c.startPriority i p.move
    exec (x.row i .priority) s = .next (s.accepts d x.kind x.tag (1#8 :: enc2 p.move.d)) ∧
    (d.head i).activity = .moving p.move
      (match (c.head i).activity with
      | .moving m held =>
        if m.cls = .planned then some ⟨m.target, m.d - m.k, m.profile, m.source, m.tag, m.zones⟩
        else held
      | _ => none) ∧
    (d.head i).queue = (match (c.head i).activity with
      | .waitZone w => w.back :: (c.head i).queue
      | _ => (c.head i).queue) ∧
    d.HoldsAll i p.move.zones ∧
    c.TakenOver d i p.move
      (match (c.head i).activity with
      | .moving m held =>
        if m.cls = .planned then some ⟨m.target, m.d - m.k, m.profile, m.source, m.tag, m.zones⟩
        else held
      | _ => none)
      (match (c.head i).activity with
      | .waitZone w => w.back :: (c.head i).queue
      | _ => (c.head i).queue)
      (match (c.head i).activity with
      | .moving m _ =>
        [(some i, m.tag, if m.cls = .planned then .moveHeld m.source (m.d - m.k)
          else .moveDropped m.source .superseded)]
      | _ => [])) ∧
  (∀ (s : State) (i : Slot) (x : Call), s.part.Ready → (s.part.head i).callable = true →
    (∀ j, (s.part.head i).activity ≠ .jogging j) →
    (∀ m held, (s.part.head i).activity = .moving m held → m.cls ≠ .stop) →
    x.Fits (s.part.head i).map.mask .priority →
    let c := s.part
    let refused (why : Reason) : Prop :=
      exec (x.row i .priority) s = .next (s.refuses c x.kind x.tag why)
    let full := (∃ w, (c.head i).activity = .waitZone w) ∧ 8 ≤ (c.head i).queue.length
    let plan := c.planSource i (c.overStart i) .priority x.source x.duration x.profile x.tag
    (full → refused .queueFull) ∧
    (¬ full →
      (∀ why, plan = .error why → (why = .noShot ∨ why = .onAir ∨ why = .limit) ∧
        refused (match why with | .noShot => .noShot | .onAir => .onAir | _ => .limit)) ∧
      (∀ p, plan = .ok p →
        (∃ z : Zone, p.move.zones.getLsbD z.val = true ∧ ∃ j, j ≠ i ∧ c.holder z = some j) →
        refused .zoneBusy)))

/-- QUEUE_ENTRY_START completes when the queue of a head that is free is to be considered at the tick, its
head entry has start rule AFTER and its cue, if any, has come: the entry leaves the queue and, planned from
rest, requests its zones; a planning that fails drops it (R52, R53). CUED_REPLACE_ACTS completes when a
CUED-REPLACE head entry's cue has come on a head with no stop move: the planned move takes over when its
zones are free or the head's own, with LATE where F differs from the cue, SUPERSEDED for each move that it
displaces and MOVE_STARTED last, no other head changing but by a pass; otherwise the entry is dropped and
the head's other work goes on (R57). That a head whose wait ended earlier in the tick has its queue
considered is the model's choice (log entry 37). How the row meets the tick's other work and an idle port is
the model's choice (log entries 1 and 4). -/
def Obligations.QueueEntriesStart : Prop :=
  (∀ (s : State) (i : Slot) (e : QueueEntry) (rest : List QueueEntry) (ws : List Work),
    s.part.work = .queue i :: ws → (s.part.head i).queue = e :: rest → e.rule = .after →
    ((s.part.head i).activity = .idle ∨ (s.part.head i).activity = .waitCue) →
    (∀ cue, e.cue = some cue → cueCome s.part.clock.frame cue = true) → .motion i ∉ ws →
    let c := { s.part with work := ws }.setQueue i rest
    (∀ p, c.planEntry i (c.head i).restStart e = .ok p →
      exec (.queueEntryStart i) s = .next { s with
        part := (c.request i p e.cue { e with rule := .after, cue := none }).advance.chooseIdle }) ∧
    (∀ why, c.planEntry i (c.head i).restStart e = .error why →
      exec (.queueEntryStart i) s = .next { s with
        part := (((c.post (some i) (some e.tag) (.moveDropped (some e.source.name) why)).toFree
          i).advance).chooseIdle })) ∧
  (∀ (s : State) (i : Slot) (e : QueueEntry) (rest : List QueueEntry) (cue : BitVec 32)
    (ws : List Work),
    s.part.work = .queue i :: ws → (s.part.head i).queue = e :: rest → e.rule = .cuedReplace →
    e.cue = some cue → cueCome s.part.clock.frame cue = true → .motion i ∉ ws →
    ((s.part.head i).activity = .idle ∨ (s.part.head i).activity = .waitCue ∨
      (∃ w, (s.part.head i).activity = .waitZone w) ∨
      ∃ m held, (s.part.head i).activity = .moving m held ∧ m.cls ≠ .stop) →
    let c := { s.part with work := ws }.setQueue i rest
    let dropped (why : DropReason) : Cm8 :=
      (c.post (some i) (some e.tag) (.moveDropped (some e.source.name) why)).refresh i
    (∀ p, c.planEntry i (c.overStart i) e = .ok p →
      ((∀ z : Zone, p.move.zones.getLsbD z.val = true → c.holder z = none ∨ c.holder z = some i) →
        let m := { p.move with flags := { p.move.flags with late := decide (c.clock.frame ≠ cue) } }
        let d := c.overrideWith i m
        exec (.cuedReplaceActs i) s = .next { s with part := d.advance.chooseIdle } ∧
        (d.head i).activity = .moving m none ∧ d.HoldsAll i m.zones ∧
        c.TakenOver d i m none rest (displacedRecords i (c.head i).activity)) ∧
      ((∃ z : Zone, p.move.zones.getLsbD z.val = true ∧ ∃ j, j ≠ i ∧ c.holder z = some j) →
        exec (.cuedReplaceActs i) s = .next { s with
          part := (dropped .zoneBusy).advance.chooseIdle })) ∧
    (∀ why, c.planEntry i (c.overStart i) e = .error why →
      exec (.cuedReplaceActs i) s = .next { s with part := (dropped why).advance.chooseIdle }))

/-! ### Motion (R65 to R107) -/

/-- MOVE_COMPLETION completes when the tick's setpoint of a head makes the last tick of its active move: the
head's setpoints become that tick's path values, and the move ends. On that tick each configured axis's
setpoint equals the move's target for the axis, when the target lies inside its working interval, as
planning made it (R68, R100). Every setpoint that a running move makes lies inside the working interval of
its axis, wherever that interval is not empty (R15). A move other than a stop move posts MOVE_DONE, and the
head's queue is not considered at that tick. With no held move the head then takes the state of R50 and its
holdings become its resident zones, with a pass when a zone was freed, no other head changing but by that
pass (R68, R115, R122); a held move is resumed (R68): re-planned as a PLANNED move from rest at the setpoint
just made, to its own targets, with its remaining ticks as requested duration and its own profile, by the
on-air policy of R74; MOVE_RESUMED counts it and it requests its zones, or it is dropped and the head is
free (R73). How the row meets the tick's other work and an idle port is the model's choice (log entries 1
and 4). -/
def Obligations.MoveCompletionEndsMove : Prop :=
  (∀ (s : State) (i : Slot) (m : Move) (held : Option Held) (ws : List Work),
    s.part.work = .motion i :: ws → (s.part.head i).activity = .moving m held → m.d ≤ m.k + 1 →
    exec (.moveCompletion i) s = .next { s with
      part := (({ s.part with work := ws }.moveTick i m held).advance).chooseIdle } ∧
    (held = none →
      let c := { s.part with work := ws.erase (.queue i) }
      let h := c.head i
      let d := { s.part with work := ws }.moveTick i m held
      (d.head i).activity = freeActivity c.clock.frame h.queue ∧
      ∃ e : Cm8, c.Turned e i { h with
          activity := freeActivity c.clock.frame h.queue
          previous := .gen fun a => if h.configured a then h.setpoint.get a else h.previous.get a
          setpoint := .gen fun a =>
            if h.configured a then h.pathPoint m (m.k + 1) a else h.setpoint.get a } 0#16
          (if m.cls = .stop then [] else [(some i, m.tag, .moveDone m.source)]) ∧
        d = (e.recompute i).settle ∧
        (∀ z : Zone, (e.recompute i).holder z =
          if c.holder z = some i ∧ (e.residentZones i).getLsbD z.val = false then none else c.holder z) ∧
        ((e.recompute i).arbiter.released = true ↔ c.arbiter.released = true ∨
          ∃ z : Zone, c.holder z = some i ∧ (e.residentZones i).getLsbD z.val = false))) ∧
  (∀ (c : Cm8) (i : Slot) (m : Move) (held : Option Held), (c.head i).activity = .moving m held →
    m.d = m.k + 1 →
    (∀ a, (c.head i).configured a = true →
      ((c.head i).axes.get a).working.contains (m.target.get a) = true) →
    (∀ a, (c.head i).configured a = true →
      ((c.motionStep i).head i).setpoint.get a = m.target.get a ∧
      ((c.motionStep i).head i).previous.get a = (c.head i).setpoint.get a) ∧
    (∀ a, (c.head i).configured a = false →
      ((c.motionStep i).head i).setpoint.get a = (c.head i).setpoint.get a)) ∧
  (∀ (c : Cm8) (i : Slot) (m : Move) (held : Option Held) (a : Axis),
    (c.head i).activity = .moving m held → (c.head i).configured a = true →
    ((c.head i).axes.get a).working.lo ≤ ((c.head i).axes.get a).working.hi →
    ((c.head i).axes.get a).working.contains (((c.motionStep i).head i).setpoint.get a) = true) ∧
  (∀ (c : Cm8) (i : Slot) (m : Move) (x : Held), m.d ≤ m.k + 1 →
    let made := (c.onHead i fun h =>
      { h.evaluate { m with k := m.k + 1 } with
        activity := .moving { m with k := m.k + 1 } (some x) }).skipQueue i
    c.moveTick i m (some x) =
      (if m.cls = .stop then made else made.post (some i) m.tag (.moveDone m.source)).resume i x) ∧
  (∀ (c : Cm8) (i : Slot) (x : Held),
    let h := c.head i
    let swift := x.profile = some .swift ∧ h.tally = true
    (swift → c.policy.onAir = .block → c.planResume i x = .error .onAir) ∧
    (∀ p, c.planResume i x = .ok p →
      p.move.cls = .planned ∧ p.move.source = x.source ∧ p.move.tag = x.tag ∧ p.move.k = 0 ∧
      p.move.p0 = h.setpoint ∧ (∀ a, p.move.v0.get a = 0) ∧
      (∀ a, h.configured a = true → p.move.target.get a = (h.working a).clamp (x.target.get a)) ∧
      (swift → p.move.profile = some .ease ∧ p.move.flags.softened = true) ∧
      (¬ swift → p.move.profile = some (x.profile.getD .ease) ∧ p.move.flags.softened = false) ∧
      (p.move.profile = some .ease → x.remaining ≤ p.move.d) ∧
      (h.tally = true → c.policy.minimum ≤ p.move.d) ∧ p.move.d ≤ 4095 ∧
      let n := h.resumptions + 1#16
      let d := ((c.onHead i fun h => { h with resumptions := n, activity := .idle }).post (some i)
        x.tag (.moveResumed x.source p.move.d p.move.flags n)).request i p none (c.backOfHeld i x)
      c.resume i x = d ∧ (d.head i).resumptions = n ∧
      (p.move.zones = 0#16 → (d.head i).activity = .moving p.move none)) ∧
    (∀ why, c.planResume i x = .error why →
      let d := (((c.post (some i) x.tag (.moveDropped x.source why)).toFree i).recompute i).settle
      c.resume i x = d ∧ (d.head i).activity = freeActivity c.clock.frame h.queue))

/-- The path of R100: p0 plus n(k) / D^3 rounded to nearest with ties away from zero, clamped into the
working interval; at k = D it is the target, and n(k) fits 76 bits for every operand of a planning. -/
def Obligations.PathIsRoundedCubic : Prop :=
  ∀ (h : Head) (m : Move) (k : Nat) (a : Axis), 1 ≤ k → k ≤ m.d →
    let delta : Int := m.target.get a - m.p0.get a
    let v0 : Int := m.v0.get a
    let n : Int := delta * (3 * k ^ 2 * m.d - 2 * k ^ 3) +
      v0 * (k * m.d ^ 3 - 2 * k ^ 2 * m.d ^ 2 + k ^ 3 * m.d)
    ∃ q : Int,
      2 * (n - q * m.d ^ 3).natAbs ≤ m.d ^ 3 ∧
      (2 * (n - q * m.d ^ 3).natAbs = m.d ^ 3 → n.natAbs < (q * m.d ^ 3).natAbs) ∧
      h.pathPoint m k a = ((h.axes.get a).working).clamp (m.p0.get a + q) ∧
      (k = m.d → m.p0.get a + q = m.target.get a) ∧
      (delta.natAbs < 2 ^ 25 → v0.natAbs < 2 ^ 25 → m.d < 2 ^ 12 → n.natAbs < 2 ^ 76)

/-- D is the least duration that meets the request, the on-air minimum on an on-air head, and the bounds
that Vmax and Amax set on every configured axis; no D up to 4095 is passed over, and above 4095 a planning
fails LIMIT (R98). A planning gives each named axis its position and each free axis p0 + round(v0 · D / 2),
clamped into the working interval, with CLAMPED when a clamp changed one (R96, R99), and its zones are those
with a range of the head that meets the smallest interval of TRAVEL p0 and every p(k), k = 1 to D (R102,
R114). A source that is an invalid shot fails NO_SHOT (R25). The on-air policy at planning: off air the
profile stands; on air a SWIFT call fails ON_AIR under BLOCK and becomes EASE with SOFTENED under SOFTEN,
with the duration an EASE call of its source would have, and D is at least the on-air minimum (R74, R97).
Softening on a tally rise: an active SWIFT move is re-planned in place as an EASE blend to the same targets
with requested duration max(D − k, on-air minimum), and MOVE_SOFTENED posted; a planning over 4095, or a
zone of another head, drops it LIMIT or ZONE_BUSY with its held move and starts a stop move; no other head
changes but by a pass (R76, R77). The LATE and CLAMPED flags and the place of MOVE_SOFTENED are the model's
choice (log entries 22 and 25). -/
def Obligations.DurationIsLeast : Prop :=
  (∀ (h : Head) (minimum k : Nat) (st : Start) (ask : Ask),
    (∀ a, 1 ≤ (h.axes.get a).vmax ∧ 1 ≤ (h.axes.get a).amax) → k ≤ 4095 →
    (h.chooseD minimum st ask ≤ k ↔
      ask.requested ≤ k ∧ (h.tally = true → minimum ≤ k) ∧
      ∀ a, h.configured a = true →
        (∀ p, ask.named.get a = some p →
          let delta := (h.working a).clamp p - st.p0.get a
          delta ≠ 0 → 3 * delta.natAbs ≤ 2 * (h.axes.get a).vmax * k ∧
            6 * delta.natAbs ≤ (h.axes.get a).amax * k * k) ∧
        (st.v0.get a ≠ 0 → 4 * (st.v0.get a).natAbs ≤ (h.axes.get a).amax * k))) ∧
  (∀ (c : Cm8) (i : Slot) (st : Start) (ask : Ask),
    let h := c.head i
    let d := h.chooseD c.policy.minimum st ask
    (4095 < d → c.plan i st ask = none) ∧
    (d ≤ 4095 → ∃ (m : Move) (raw : PerAxis Int) (sweep : Span), c.plan i st ask = some m ∧
      m.cls = ask.cls ∧ m.source = ask.source ∧ m.tag = ask.tag ∧ m.profile = ask.profile ∧
      m.d = d ∧ m.k = 0 ∧ m.p0 = st.p0 ∧ m.v0 = st.v0 ∧
      (∀ a, h.configured a = true →
        (∀ p, ask.named.get a = some p → raw.get a = p) ∧
        (ask.named.get a = none →
          let n := st.v0.get a * d
          let q := 2 * (raw.get a - st.p0.get a)
          (n - q).natAbs ≤ 1 ∧ ((n - q).natAbs = 1 → n.natAbs < q.natAbs)) ∧
        m.target.get a = (h.axes.get a).working.clamp (raw.get a)) ∧
      (∀ a, h.configured a = false → m.target.get a = st.p0.get a) ∧
      (m.flags.clamped = true ↔ ∃ a, h.configured a = true ∧ m.target.get a ≠ raw.get a) ∧
      (m.flags.stretched = true ↔ ask.requested < d) ∧ m.flags.softened = ask.softened ∧
      m.flags.late = false ∧
      let at_ (k : Nat) : Int := if k = 0 then st.p0.get .travel else h.pathPoint m k .travel
      (∀ k, k ≤ d → sweep.lo ≤ at_ k ∧ at_ k ≤ sweep.hi) ∧
      (∃ k, k ≤ d ∧ at_ k = sweep.lo) ∧ (∃ k, k ≤ d ∧ at_ k = sweep.hi) ∧
      ∀ z : Zone, m.zones.getLsbD z.val = true ↔ h.hasTravel = true ∧
        ∃ (n : Fin 32) (e : ZoneEntry), c.zonemap[n] = some e ∧ e.slot = i ∧ e.zone = z ∧
          e.range.lo ≤ sweep.hi ∧ sweep.lo ≤ e.range.hi)) ∧
  (∀ (c : Cm8) (i : Slot) (st : Start) (cls : MoveClass) (duration : Option Nat)
    (profile : Option Profile) (tag : Byte),
    let h := c.head i
    (∀ n : Fin 64, h.shots[n] = none →
      c.planSource i st cls (.shot n) duration profile tag = .error .noShot) ∧
    (∀ (n : Fin 64) (v : Shot), h.shots[n] = some v → h.read (.shot n) duration profile =
      some ⟨.shot n, duration.getD v.duration, profile.getD v.profile, v.targets⟩) ∧
    (∀ ts, h.read (.inline ts) duration profile =
      some ⟨.inline, duration.getD 1, profile.getD .ease, ts⟩) ∧
    (∀ (src : Source) (r : Reading), h.read src duration profile = some r →
      let soft := decide (r.profile = .swift ∧ h.tally = true)
      (soft = true → c.policy.onAir = .soften) →
      let q := if soft then .ease else r.profile
      let requested := if q = .swift then 1 else r.requested
      let made := c.plan i st ⟨cls, some r.name, some tag, some q, requested,
        .gen fun a => if h.configured a then (r.targets.find? fun t => t.1 = a).map Prod.snd else none,
        soft⟩
      (made = none → c.planSource i st cls src duration profile tag = .error .limit) ∧
      (∀ m, made = some m →
        c.planSource i st cls src duration profile tag = .ok ⟨m, requested, r.requested⟩)) ∧
    (∀ m : Move, c.planSoften i m = (c.plan i (h.blendStart m) ⟨m.cls, m.source, m.tag, some .ease,
        max (m.d - m.k) c.policy.minimum,
        .gen fun a => if h.configured a then some (m.target.get a) else none, true⟩).map fun n =>
      { n with flags := { n.flags with late := m.flags.late } }) ∧
    (∀ (x : Held) (p : Planned), c.planResume i x = .ok p →
      c.plan i ⟨h.setpoint, .const 0⟩ ⟨.planned, x.source, x.tag, p.move.profile, p.requested,
        .gen fun a => if h.configured a then some (x.target.get a) else none,
        p.move.flags.softened⟩ = some p.move)) ∧
  (∀ (c : Cm8) (i : Slot) (st : Start) (cls : MoveClass) (src : Source) (duration : Option Nat)
    (profile : Option Profile) (tag : Byte) (r : Reading),
    (c.head i).read src duration profile = some r →
    let h := c.head i
    let plan := c.planSource i st cls src duration profile tag
    let swift := r.profile = .swift ∧ h.tally = true
    (swift → c.policy.onAir = .block → plan = .error .onAir) ∧
    (∀ p, plan = .ok p →
      p.move.cls = cls ∧ p.move.source = some r.name ∧ p.move.tag = some tag ∧
      p.easeRequest = r.requested ∧
      (swift → p.move.profile = some .ease ∧ p.move.flags.softened = true ∧
        p.requested = r.requested) ∧
      (¬ swift → p.move.profile = some r.profile ∧ p.move.flags.softened = false ∧
        p.requested = if r.profile = .swift then 1 else r.requested) ∧
      p.requested ≤ p.move.d ∧ (h.tally = true → c.policy.minimum ≤ p.move.d) ∧ p.move.d ≤ 4095 ∧
      (p.move.flags.stretched = true ↔ p.requested < p.move.d))) ∧
  (∀ (c : Cm8) (i : Slot) (m : Move) (held : Option Held), (c.head i).activity = .moving m held →
    let h := c.head i
    let stopped (why : DropReason) : Cm8 :=
      ((c.dropMove i m why).dropHeld? i held .superseded).beginStop i m
    (m.profile ≠ some .swift → c.softenStep i = c) ∧
    (m.profile = some .swift →
      (c.planSoften i m = none → c.softenStep i = stopped .limit) ∧
      (∀ n, c.planSoften i m = some n →
        n.cls = m.cls ∧ n.source = m.source ∧ n.tag = m.tag ∧ n.profile = some .ease ∧ n.k = 0 ∧
        n.p0 = (h.blendStart m).p0 ∧ n.v0 = (h.blendStart m).v0 ∧
        (∀ a, h.configured a = true → n.target.get a = (h.working a).clamp (m.target.get a)) ∧
        m.d - m.k ≤ n.d ∧ c.policy.minimum ≤ n.d ∧ n.d ≤ 4095 ∧ n.flags.softened = true ∧
        n.flags.late = m.flags.late ∧
        ((∀ z : Zone, n.zones.getLsbD z.val = true → c.holder z = none ∨ c.holder z = some i) →
          c.softenStep i = (c.takeOver i n held).post (some i) n.tag (.moveSoftened n.d) ∧
          (∃ e : Cm8, c.Turned e i { h with activity := .moving n held } n.zones [] ∧
            c.takeOver i n held = (e.recompute i).settle) ∧
          ((c.softenStep i).head i).activity = .moving n held ∧
          (c.softenStep i).HoldsAll i n.zones) ∧
        ((∃ z : Zone, n.zones.getLsbD z.val = true ∧ ∃ j, j ≠ i ∧ c.holder z = some j) →
          c.softenStep i = stopped .zoneBusy))) ∧
    (∀ why, ∃ e : Cm8, c.Turned e i { h with activity := .moving (c.planStop i m) none }
        (c.planStop i m).zones (moveRecords i m why ++ heldRecords i held .superseded) ∧
      stopped why = (e.recompute i).settle) ∧
    (∀ j, (c.head j).activity.waiting = none → j ≠ i → (c.softenStep i).head j = c.head j))

/-- JOG completes on a LINKED head that is IDLE with an empty queue, or JOGGING with an empty queue: the
commanded velocities become those of the list, 0 elsewhere, with the refresh count at 0 (R86); else it is
refused, in this order, RANGE, NO_HEAD, HALTED or BUSY. JOG_REFRESH_TIMEOUT completes when the tick's step
of a JOGGING head brings its refresh count to 12: every commanded velocity becomes 0 before the step (R87).
Each tick adds 1 to the refresh count and steps every configured axis, whose previous setpoint becomes the
setpoint before; an axis not configured stays, and no other head changes. In a step the velocity of an axis
moves towards the clamped command by at most Amax, and the setpoint advances by it and is clamped into the
working interval, where the velocity becomes 0 (R106). A TRAVEL step enters no range of a zone that the
head does not hold after it: it takes only zones that were free, that no waiting head needs and of which
it meets a range, and stops at the last count before the first range it cannot have, with velocity 0
(R107, R118). When every commanded and every jog velocity is 0 after the step the jog ends, and the head
is free with its resident zones (R87); that it takes the state of R50 is read by inference (log entry 26).
Where the reply stands, and how the row of a tick's event meets the tick's other work, is the model's
choice (log entries 1, 4 and 15). -/
def Obligations.JogRunsOnRefresh : Prop :=
  (∀ (s : State) (tag : Byte) (i : Slot) (l : List (Axis × Int)), s.part.Ready →
    l.length ≤ 6 → (l.map fun t => t.1.num).Pairwise (· < ·) →
    (∀ t ∈ l, (s.part.head i).configured t.1 = true ∧ -65535 ≤ t.2 ∧ t.2 ≤ 65535) →
    (s.part.head i).link.state = .linked → (s.part.head i).queue = [] →
    let commanded : PerAxis Int := .gen fun a =>
      match l.find? fun t => t.1 = a with
      | some t => t.2
      | none => 0
    let row := Instr.jog tag ([slotByte i, BitVec.ofNat 8 l.length] ++ pairBytes l)
    ((s.part.head i).activity = .idle →
      exec row s = .next (s.accepts
        (s.part.setActivity i (.jogging ⟨commanded, .const 0, 0⟩)) 0x52#8 tag [])) ∧
    (∀ j, (s.part.head i).activity = .jogging j →
      exec row s = .next (s.accepts
        (s.part.setActivity i (.jogging ⟨commanded, j.velocity, 0⟩)) 0x52#8 tag []))) ∧
  (∀ (s : State) (i : Slot) (j : Jog) (ws : List Work),
    s.part.work = .motion i :: ws → (s.part.head i).activity = .jogging j → j.refresh = 11 →
    let c := { s.part with work := ws }.skipQueue i
    let r := c.jogStep i ⟨.const 0, j.velocity, 12⟩
    ∃ t : State, exec (.jogRefreshTimeout i) s = .next t ∧
      t = { s with part := (c.jogTick i j).advance.chooseIdle } ∧
      (Jog.still (c.head i) r.2 = false → c.jogTick i j = r.1.setActivity i (.jogging r.2))) ∧
  (∀ (h : Head) (j : Jog) (a : Axis),
    let e := h.axes.get a
    let limit : Int := min e.jogLimit e.vmax
    let goal : Int := max (-limit) (min limit (j.commanded.get a))
    let v := rampJog e (j.commanded.get a) (j.velocity.get a)
    ((goal - j.velocity.get a).natAbs ≤ e.amax → v = goal) ∧
    ((e.amax : Int) < goal - j.velocity.get a → v = j.velocity.get a + e.amax) ∧
    ((e.amax : Int) < j.velocity.get a - goal → v = j.velocity.get a - e.amax) ∧
    (jogAxis h j a).1 = e.working.clamp (h.setpoint.get a + v) ∧
    (e.working.clamp (h.setpoint.get a + v) = h.setpoint.get a + v → (jogAxis h j a).2 = v) ∧
    (e.working.clamp (h.setpoint.get a + v) ≠ h.setpoint.get a + v → (jogAxis h j a).2 = 0)) ∧
  (∀ (c : Cm8) (i : Slot) (j : Jog),
    let h := c.head i
    let r := c.jogStep i j
    let t := r.1.head i
    let p := h.setpoint.get .travel
    let q := (jogAxis h j .travel).1
    (∀ a, h.configured a = true → t.previous.get a = h.setpoint.get a ∧
      (a ≠ .travel →
        t.setpoint.get a = (jogAxis h j a).1 ∧ r.2.velocity.get a = (jogAxis h j a).2)) ∧
    (h.hasTravel = true →
      (∀ e ∈ c.entriesOf i, c.holder e.zone ≠ some i → e.range.meets ⟨min p q, max p q⟩ = true →
        c.holder e.zone = none ∧ c.wanted e.zone = false) →
      t.setpoint.get .travel = q ∧ r.2.velocity.get .travel = (jogAxis h j .travel).2) ∧
    (∀ a, h.configured a = false → t.setpoint.get a = h.setpoint.get a ∧
      t.previous.get a = h.previous.get a ∧ r.2.velocity.get a = j.velocity.get a) ∧
    (h.hasTravel = false → ∀ z : Zone, r.1.holder z = c.holder z) ∧
    r.2.commanded = j.commanded ∧ r.2.refresh = j.refresh ∧
    t = { h with setpoint := t.setpoint, previous := t.previous } ∧
    (∀ k : Slot, k ≠ i → r.1.head k = c.head k) ∧ r.1.events = c.events ∧ r.1.work = c.work ∧
    r.1.arbiter.released = c.arbiter.released) ∧
  (∀ j : Jog, j.refreshed =
    ⟨if 12 ≤ j.refresh + 1 then .const 0 else j.commanded, j.velocity, j.refresh + 1⟩) ∧
  (∀ (c : Cm8) (i : Slot) (j : Jog), (c.head i).hasTravel = true →
    let p := (c.head i).setpoint.get .travel
    let q := (jogAxis (c.head i) j .travel).1
    let r := c.jogStep i j
    let t := (r.1.head i).setpoint.get .travel
    (∀ e ∈ c.entriesOf i, e.range.contains p = true → c.holder e.zone = some i) →
    (∀ e ∈ c.entriesOf i, r.1.holder e.zone ≠ some i →
      e.range.meets ⟨min p t, max p t⟩ = false) ∧
    (∀ z : Zone, r.1.holder z = c.holder z ∨
      (c.holder z = none ∧ c.wanted z = false ∧ r.1.holder z = some i ∧
        ∃ e ∈ c.entriesOf i, e.zone = z ∧ e.range.meets ⟨min p q, max p q⟩ = true)) ∧
    ((t = q ∧ r.2.velocity.get .travel = (jogAxis (c.head i) j .travel).2) ∨
      (r.2.velocity.get .travel = 0 ∧ ∃ e ∈ c.entriesOf i, r.1.holder e.zone ≠ some i ∧
        (c.holder e.zone ≠ none ∨ c.wanted e.zone = true) ∧
        t = if 0 < q - p then e.range.lo - 1 else e.range.hi + 1))) ∧
  (∀ (c : Cm8) (i : Slot) (j : Jog),
    let r := c.jogStep i j.refreshed
    let d := c.jogTick i j
    ((∀ a, (c.head i).configured a = true → r.2.commanded.get a = 0 ∧ r.2.velocity.get a = 0) →
      d = ((r.1.setActivity i (freeActivity c.clock.frame (c.head i).queue)).recompute i).settle ∧
      (d.head i).activity = freeActivity c.clock.frame (c.head i).queue ∧
      (d.head i).setpoint = (r.1.head i).setpoint ∧
      (∀ z : Zone, d.holder z = some i ↔
        r.1.holder z = some i ∧ (r.1.residentZones i).getLsbD z.val = true)) ∧
    ((∃ a, (c.head i).configured a = true ∧
        (r.2.commanded.get a ≠ 0 ∨ r.2.velocity.get a ≠ 0)) →
      d = r.1.setActivity i (.jogging r.2))) ∧
  (∀ (s : State) (tag b n : Byte) (ps : List (Byte × Int)), s.part.Ready → ps.length = n.toNat →
    (∀ t ∈ ps, fitsPosition t.2 = true) →
    let refused (why : Reason) : Prop :=
      exec (.jog tag ([b, n] ++ rawPairBytes ps)) s = .next (s.refuses s.part 0x52#8 tag why)
    (8 ≤ b.toNat → refused .range) ∧
    (∀ i : Slot, b = slotByte i →
      let h := s.part.head i
      let fits := ListFits h.map.mask ps ∧ ∀ t ∈ ps, -65535 ≤ t.2 ∧ t.2 ≤ 65535
      (¬ fits → refused .range) ∧
      (fits → h.link.state ≠ .linked ∨ h.activity = .offline → refused .noHead) ∧
      (fits → h.link.state = .linked →
        (∀ w, h.activity = .halted w → refused .halted) ∧
        ((h.activity = .waitCue ∨ (∃ w, h.activity = .waitZone w) ∨
            (∃ m held, h.activity = .moving m held) ∨
            ((h.activity = .idle ∨ ∃ j, h.activity = .jogging j) ∧ h.queue ≠ [])) →
          refused .busy))))

/-- STOP completes on a LINKED head that is neither OFFLINE nor HALTED: the queue is flushed and the head
acts by its state, with the records of R60 and R78 in their order (the flush's, then FLUSHED for a waiting
move, or SUPERSEDED for the held and then the active move) and no other head changing but by a pass; the
reply carries the state after it; a slot above 7 is refused RANGE, a head not LINKED or OFFLINE NO_HEAD, and
a HALTED one HALTED (R78). Where the reply stands is the model's choice (log entries 4 and 15). The stop
move of a head that stands inside its limits, and in no range of a zone of another head, is a blend from its
present velocity with a duration of 1 to 4095, every target lies inside its working interval, and its TRAVEL
sweep enters no range of a zone that another head holds; its zones are the head's at once. D is the least
that Amax allows on every configured axis, at most 4095, and each target is p0 + round(v0 · D / 2) clamped
into the working interval (R103); but where ranges of zones of other heads meet the stop interval, the
TRAVEL target is the last count before the nearest of them, and a stop too short for D has D shortened and
its other targets formed anew (R104, R105, R117). -/
def Obligations.StopActsByState : Prop :=
  (∀ (s : State) (tag : Byte) (i : Slot), s.part.Ready → (s.part.head i).callable = true →
    let d := s.part.stopHead i
    exec (.stop tag [slotByte i]) s =
      .next (s.accepts d 0x53#8 tag [BitVec.ofNat 8 (d.head i).activity.code]) ∧
    (d.head i).queue = [] ∧
    ((s.part.head i).activity.isFree = true → (d.head i).activity = .idle) ∧
    (∀ w, (s.part.head i).activity = .waitZone w → (d.head i).activity = .idle) ∧
    (∀ m held, (s.part.head i).activity = .moving m held → m.cls = .stop →
      (d.head i).activity = .moving m held) ∧
    (∀ m held, (s.part.head i).activity = .moving m held → m.cls ≠ .stop →
      ∃ n, (d.head i).activity = .moving n none ∧ n.cls = .stop ∧ n.source = none ∧ n.tag = none) ∧
    (∀ j, (s.part.head i).activity = .jogging j →
      (d.head i).activity = .jogging { j with commanded := .const 0 }) ∧
    (d.head i).setpoint = (s.part.head i).setpoint ∧
    (let c := s.part
    let h := c.head i
    let ended (a : Activity) (taken : ZoneSet) (records : List (Option Slot × Option Byte × Event))
        (e : Cm8) : Prop :=
      c.Turned e i { h with activity := a, queue := [] } taken (flushRecords i h.queue ++ records)
    match h.activity with
    | .waitZone w =>
      ∃ e, ended .idle 0#16 (moveRecords i w.move .flushed) e ∧ d = (e.recompute i).settle
    | .moving m held =>
      if m.cls = .stop then ended (.moving m held) 0#16 [] d
      else
        let n := c.planStop i m
        ∃ e, ended (.moving n none) n.zones
            (heldRecords i held .superseded ++ moveRecords i m .superseded) e ∧
          d = (e.recompute i).settle
    | .jogging j => ended (.jogging { j with commanded := .const 0 }) 0#16 [] d
    | _ => ended .idle 0#16 [] d)) ∧
  (∀ (c : Cm8) (i : Slot) (m : Move),
    let h := c.head i
    let st := h.blendStart m
    let n := c.planStop i m
    let fits (k : Nat) : Prop := ∀ a, h.configured a = true →
      (st.v0.get a).natAbs ≤ (h.axes.get a).amax * k
    (∀ a, h.configured a = true → (h.working a).contains (st.p0.get a) = true) →
    (∀ e ∈ c.entriesOf i, c.heldByOther i e.zone = true →
      e.range.contains (st.p0.get .travel) = false) →
    n.cls = .stop ∧ n.k = 0 ∧ n.p0 = st.p0 ∧ n.v0 = st.v0 ∧ 1 ≤ n.d ∧ n.d ≤ 4095 ∧
    (∀ a, h.configured a = true → (h.working a).contains (n.target.get a) = true) ∧
    (h.hasTravel = true → ∀ e ∈ c.entriesOf i, c.heldByOther i e.zone = true →
      e.range.meets (h.sweep n) = false) ∧
    ((∀ e ∈ c.entriesOf i, c.heldByOther i e.zone = false) → (∀ a, 1 ≤ (h.axes.get a).amax) →
      (n.d = 4095 ∨ fits n.d) ∧ (∀ k, 1 ≤ k → k < n.d → ¬ fits k)) ∧
    ((c.beginStop i m).head i).activity = .moving n none ∧
    (c.beginStop i m).HoldsAll i n.zones) ∧
  (∀ (c : Cm8) (i : Slot) (m : Move), (∀ a, 1 ≤ ((c.head i).axes.get a).amax) →
    let h := c.head i
    let st := h.blendStart m
    let n := c.planStop i m
    let fits (k : Nat) : Prop := ∀ a, h.configured a = true →
      (st.v0.get a).natAbs ≤ (h.axes.get a).amax * k
    let straight (k : Nat) (a : Axis) (x : Int) : Prop := ∃ raw : Int,
      let u := st.v0.get a * k
      let q := 2 * (raw - st.p0.get a)
      (u - q).natAbs ≤ 1 ∧ ((u - q).natAbs = 1 → u.natAbs < q.natAbs) ∧
        x = (h.axes.get a).working.clamp raw
    let v := st.v0.get .travel
    let p := st.p0.get .travel
    (∀ a, h.configured a = false → n.target.get a = st.p0.get a) ∧
    ∃ (d : Nat) (x : PerAxis Int), 1 ≤ d ∧ d ≤ 4095 ∧ (d = 4095 ∨ fits d) ∧
      (∀ k, 1 ≤ k → k < d → ¬ fits k) ∧ (∀ a, h.configured a = true → straight d a (x.get a)) ∧
      let blocks (e : ZoneEntry) : Prop := h.hasTravel = true ∧ v ≠ 0 ∧ e ∈ c.entriesOf i ∧
        c.heldByOther i e.zone = true ∧
        e.range.meets ⟨min p (x.get .travel), max p (x.get .travel)⟩ = true
      ((∀ e, ¬ blocks e) →
        n.d = d ∧ ∀ a, h.configured a = true → n.target.get a = x.get a) ∧
      (∀ e, blocks e →
        (∀ f, blocks f → (0 < v → e.range.lo ≤ f.range.lo) ∧ (v < 0 → f.range.hi ≤ e.range.hi)) →
        let stop := if 0 < v then e.range.lo - 1 else e.range.hi + 1
        let dist := (stop - p).natAbs
        n.target.get .travel = stop ∧
        (v.natAbs * d ≤ 3 * dist → n.d = d ∧
          ∀ a, a ≠ .travel → h.configured a = true → n.target.get a = x.get a) ∧
        (3 * dist < v.natAbs * d → n.d = max 1 (3 * dist / v.natAbs) ∧
          ∀ a, a ≠ .travel → h.configured a = true → straight n.d a (n.target.get a)))) ∧
  (∀ (s : State) (tag : Byte), s.part.Ready →
    (∀ b : Byte, 8 ≤ b.toNat →
      exec (.stop tag [b]) s = .next (s.refuses s.part 0x53#8 tag .range)) ∧
    (∀ i : Slot,
      ((s.part.head i).link.state ≠ .linked ∨ (s.part.head i).activity = .offline →
        exec (.stop tag [slotByte i]) s = .next (s.refuses s.part 0x53#8 tag .noHead)) ∧
      ((s.part.head i).link.state = .linked → (∃ w, (s.part.head i).activity = .halted w) →
        exec (.stop tag [slotByte i]) s = .next (s.refuses s.part 0x53#8 tag .halted))))

/-- STOP ALL completes in every state: every slot that STOP would accept is stopped as STOP stops it, in
slot order, every other slot is left as it is, and the reply carries the number stopped; HALT ALL halts
every head that is neither OFFLINE nor HALTED with cause COMMAND, and HALT halts one; both reply with the
number halted, and a slot of 8 to 254 is refused RANGE (R79, R83). Entry into HALTED sets the state and
cause, the moves, the jog record and the queue go, with MOVE_DROPPED FLUSHED for the active move unless it
is a stop move, the held or the waiting move, and each queue entry, and HEAD_HALTED last; the setpoints, the
link, every holder and every other head stay (R82). Where the reply stands is the model's choice (log
entries 4 and 15). -/
def Obligations.StopAllAndHaltCount : Prop :=
  (∀ (s : State) (tag : Byte) (i : Slot), s.part.Ready →
    let c := s.part
    let free (j : Slot) : Bool := !(c.head j).activity.isOffline && !(c.head j).activity.isHalted
    let d := (Slot.all.foldl Cm8.stopEach (c, 0)).1
    exec (.stopAll tag []) s = .next (s.accepts d 0x54#8 tag
      [BitVec.ofNat 8 (Slot.all.filter fun j => (c.head j).callable).length]) ∧
    (∀ j, (c.head j).callable = true → (d.head j).queue = [] ∧
      (d.head j).setpoint = (c.head j).setpoint ∧
      match (c.head j).activity with
      | .waitZone _ => (d.head j).activity = .idle ∨
          ∃ n, (d.head j).activity = .moving n none ∧ n.cls = .stop
      | .moving m held =>
        if m.cls = .stop then (d.head j).activity = .moving m held
        else ∃ n, (d.head j).activity = .moving n none ∧ n.cls = .stop ∧ n.source = none ∧
          n.tag = none ∧ n.profile = none ∧ n.k = 0
      | .jogging r => (d.head j).activity = .jogging { r with commanded := .const 0 }
      | _ => (d.head j).activity = .idle) ∧
    (∀ j, free j = false → d.head j = c.head j) ∧
    (let e := (Slot.all.foldl (Cm8.haltEach .command) (c, 0)).1
    exec (.halt tag [0xFF#8]) s = .next (s.accepts e 0x55#8 tag
        [BitVec.ofNat 8 (Slot.all.filter free).length]) ∧
      ∀ j, (e.head j).activity = if free j then .halted .command else (c.head j).activity) ∧
    (free i = true → exec (.halt tag [slotByte i]) s =
      .next (s.accepts (c.enterHalted i .command) 0x55#8 tag [1#8])) ∧
    ((c.head i).activity.isHalted = true →
      exec (.halt tag [slotByte i]) s = .next (s.accepts c 0x55#8 tag [0#8])) ∧
    ((c.head i).activity = .offline →
      exec (.halt tag [slotByte i]) s = .next (s.refuses c 0x55#8 tag .noHead))) ∧
  (∀ (c : Cm8) (n : Nat) (i : Slot), Cm8.stopEach (c, n) i =
    if (c.head i).callable then (c.stopHead i, n + 1) else (c, n)) ∧
  (∀ (c : Cm8) (i : Slot) (cause : HaltCause),
    let d := c.enterHalted i cause
    (d.head i).activity = .halted cause ∧ (d.head i).queue = [] ∧
    (d.head i).setpoint = (c.head i).setpoint ∧ (d.head i).previous = (c.head i).previous ∧
    (d.head i).link = (c.head i).link ∧ (d.head i).track = (c.head i).track ∧
    (d.head i).axes = (c.head i).axes ∧
    (let gone (m : Move) : List (Option Slot × Option Byte × Event) :=
        if m.cls = .stop then [] else [(some i, m.tag, .moveDropped m.source .flushed)]
     d.events = c.events.told c.clock.frame
        ((match (c.head i).activity with
          | .moving m none => gone m
          | .moving m (some x) => gone m ++ [(some i, x.tag, .moveDropped x.source .flushed)]
          | .waitZone w => gone w.move
          | _ => []) ++ flushRecords i (c.head i).queue ++ [(some i, none, .headHalted cause)])) ∧
    (∀ z : Zone, d.holder z = c.holder z) ∧ (∀ j : Slot, j ≠ i → d.head j = c.head j) ∧
    d.arbiter = c.arbiter ∧ d.clock = c.clock ∧ d.port = c.port) ∧
  (∀ (s : State) (tag b : Byte), s.part.Ready → 8 ≤ b.toNat → b.toNat ≤ 254 →
    exec (.halt tag [b]) s = .next (s.refuses s.part 0x55#8 tag .range))

/-- CLEAR completes on a LINKED head that has reported and is HALTED with a cause other than MISMATCH, when
its measured position lies inside its limits and no other head holds the floor there: the head is IDLE at
that position, with its follow exceed run at 0, its holdings become its resident zones, with a pass when a
zone was freed, no other head changes but by that pass, and the reply carries the setpoints; on a head that
is not HALTED it has no effect, and on one halted with cause MISMATCH it is refused MISMATCH. A CLEAR that
finds the measured position outside the limits is refused RANGE, and one on floor that another head holds
ZONE_BUSY; both leave the setpoint at the measured position, ZONE_BUSY leaves the halt cause CONFLICT, and
neither changes a holder; a slot that is not LINKED or has not reported is refused NO_HEAD, and a slot above
7 RANGE (R84, R115, R117, R122, R129). Where the reply stands is the model's choice (log entries 4 and 15). -/
def Obligations.ClearFreesHaltedHead : Prop :=
  (∀ (s : State) (tag : Byte) (i : Slot), s.part.Ready →
    ((s.part.head i).link.state ≠ .linked ∨ (s.part.head i).link.reported = false) →
    exec (.clear tag [slotByte i]) s = .next (s.refuses s.part 0x56#8 tag .noHead)) ∧
  (∀ (s : State) (tag : Byte) (i : Slot) (w : HaltCause) (t : PerAxis Int), s.part.Ready →
    (s.part.head i).link.state = .linked → (s.part.head i).link.reported = true →
    (s.part.head i).activity = .halted w → w ≠ .mismatch →
    (s.part.head i).track.measured = some t →
    let h := s.part.head i
    let there := { h with
      setpoint := .gen fun a =>
        if h.configured a then t.get a - (h.axes.get a).trim else h.setpoint.get a }
    let c := s.part.setHead i there
    let inside := ∀ a, h.configured a = true →
      (h.axes.get a).working.contains (t.get a - (h.axes.get a).trim) = true
    (¬ inside → exec (.clear tag [slotByte i]) s = .next (s.refuses c 0x56#8 tag .range)) ∧
    (inside → (∃ z : Zone, (c.residentZones i).getLsbD z.val = true ∧
        ∃ j, j ≠ i ∧ c.holder z = some j) →
      exec (.clear tag [slotByte i]) s = .next (s.refuses
        (s.part.setHead i { there with activity := .halted .conflict }) 0x56#8 tag .zoneBusy))) ∧
  (∀ (s : State) (tag : Byte) (i : Slot), s.part.Ready → (s.part.head i).link.state = .linked →
    (s.part.head i).link.reported = true →
    let h := s.part.head i
    (h.activity.isHalted = false →
      exec (.clear tag [slotByte i]) s = .next (s.accepts s.part 0x56#8 tag [0#8])) ∧
    (h.activity = .halted .mismatch →
      exec (.clear tag [slotByte i]) s = .next (s.refuses s.part 0x56#8 tag .mismatch)) ∧
    (∀ (w : HaltCause) (t : PerAxis Int), h.activity = .halted w → w ≠ .mismatch →
      h.track.measured = some t → h.queue = [] →
      let c := s.part.onHead i fun h => h.adopt t
      (∀ a, h.configured a = true →
        (h.axes.get a).working.contains (t.get a - (h.axes.get a).trim) = true) →
      (∀ z : Zone, (c.residentZones i).getLsbD z.val = true →
        c.holder z = none ∨ c.holder z = some i) →
      ∃ d : Cm8, exec (.clear tag [slotByte i]) s = .next (s.accepts d 0x56#8 tag
          (1#8 :: h.map.mask.axes.flatMap fun a => encPos (t.get a - (h.axes.get a).trim))) ∧
        (d.head i).activity = .idle ∧ (d.head i).track.run = 0 ∧
        (∀ a, h.configured a = true →
          (d.head i).setpoint.get a = t.get a - (h.axes.get a).trim ∧
          (d.head i).previous.get a = (d.head i).setpoint.get a) ∧
        d.HoldsAll i (c.residentZones i) ∧
        ∃ g : Cm8, d = g.settle ∧ g.events = s.part.events ∧
          g.head i = { h with
            setpoint := .gen fun a =>
              if h.configured a then t.get a - (h.axes.get a).trim else h.setpoint.get a
            previous := .gen fun a =>
              if h.configured a then t.get a - (h.axes.get a).trim else h.previous.get a
            track := { h.track with run := 0 }
            activity := .idle } ∧
          (∀ j, j ≠ i → g.head j = s.part.head j) ∧
          (∀ z : Zone, g.holder z =
            if (c.residentZones i).getLsbD z.val then some i
            else if s.part.holder z = some i then none else s.part.holder z) ∧
          (g.arbiter.released = true ↔ s.part.arbiter.released = true ∨
            ∃ z : Zone, s.part.holder z = some i ∧ (c.residentZones i).getLsbD z.val = false))) ∧
  (∀ (s : State) (tag b : Byte), s.part.Ready → 8 ≤ b.toNat →
    exec (.clear tag [b]) s = .next (s.refuses s.part 0x56#8 tag .range))

/-- HEAD STATUS completes in every state: it clears the tally-changed and the link-lost latched flag of the
slot and changes nothing else; its reply carries the flags from before the clearing and every field of R195:
the enrolment part (R163), the queue and its head entry (R64), the motion part (R90) and the Report
Tracker's part (R174). A slot above 7 is refused RANGE (R187). That the pages received are shown as 0 in
LINKED is read by inference (log entry 13). A refresh count above 255 is free in its byte (log entry 7).
Where the reply stands is the model's choice (log entries 4 and 15). -/
def Obligations.HeadStatusClearsFlags : Prop :=
  ∀ (s : State) (tag refresh : Byte), s.part.Ready →
    (∀ i : Slot,
      let h := s.part.head i
      let axes := h.map.mask.axes
      let name (x : SourceName) : Byte := match x with
        | .shot n => BitVec.ofNat 8 n.val
        | .inline => 0x80#8
      let source (x : Option SourceName) : Byte := (x.map name).getD 0xFF#8
      (∀ j, h.activity = .jogging j →
        (j.refresh < 256 → refresh.toNat = j.refresh) ∧
        (256 ≤ j.refresh → refresh = Config.unfitRefresh j.refresh)) →
      exec (.headStatus tag [slotByte i]) s = .next (s.accepts
        (s.part.setHead i
          { h with tallyChanged := false, link := { h.link with lostFlag := false } })
        0x70#8 tag
        ([match h.link.state with | .off => 0#8 | .probe => 1#8 | .exchange => 2#8 | .linked => 3#8,
          flagsByte [h.link.lostFlag, h.tally, h.tallyChanged,
            h.link.reported && decide (h.link.state = .linked), h.track.servoFault,
            h.track.localControl, h.track.upstream.isSome, h.track.measured.isSome],
          h.map.mask.setWidth 8] ++
        (match h.link.state with
          | .exchange => [(h.link.headMask.getD 0#6).setWidth 8, BitVec.ofNat 8 h.link.pages, 0#8]
          | .linked => [(h.link.headMask.getD 0#6).setWidth 8, 0#8, BitVec.ofNat 8 h.link.loss]
          | _ => [0#8, 0#8, 0#8]) ++
        [BitVec.ofNat 8 h.queue.length] ++
        (match h.queue with
          | [] => [0#8, 0#8, 0#8, 0#8, 0#8, 0#8, 0xFF#8, 0xFF#8]
          | e :: _ => [match e.rule with | .after => 1#8 | .cuedReplace => 2#8,
              if e.cue.isSome then 1#8 else 0#8] ++ enc4 (e.cue.getD 0#32) ++
            [e.tag, match e.source with | .shot n => BitVec.ofNat 8 n.val | .inline _ => 0x80#8]) ++
        (match h.activity with
          | .waitZone w => [1#8, w.move.tag.getD 0xFF#8]
          | _ => [0#8, 0xFF#8]) ++
        (match h.activity with
          | .offline => [0#8, 0#8]
          | .idle => [1#8, 0#8]
          | .waitCue => [2#8, 0#8]
          | .waitZone _ => [3#8, 0#8]
          | .moving _ _ => [4#8, 0#8]
          | .jogging _ => [5#8, 0#8]
          | .halted cause => [6#8, match cause with
            | .command => 1#8 | .follow => 2#8 | .head => 3#8 | .lost => 4#8 | .mismatch => 5#8
            | .range => 6#8 | .conflict => 7#8 | .reset => 8#8]) ++
        (axes.flatMap fun a => encPos (h.setpoint.get a)) ++
        (match h.activity with
          | .moving m _ => [match m.cls with | .planned => 1#8 | .priority => 2#8 | .stop => 3#8,
              m.tag.getD 0xFF#8, source m.source] ++ enc2 m.d ++ enc2 m.k
          | _ => [0#8, 0xFF#8, 0xFF#8, 0#8, 0#8, 0#8, 0#8]) ++
        (match h.activity with
          | .moving _ (some x) => [1#8, x.tag.getD 0xFF#8, source x.source] ++ enc2 x.remaining
          | _ => [0#8, 0xFF#8, 0xFF#8, 0#8, 0#8]) ++
        (match h.activity with
          | .jogging j => [1#8, refresh] ++
              axes.flatMap fun a => encPos (j.commanded.get a) ++ encPos (j.velocity.get a)
          | _ => [0#8, 0#8] ++ axes.flatMap fun _ => [0#8, 0#8, 0#8, 0#8, 0#8, 0#8]) ++
        encW h.resumptions ++
        (axes.flatMap fun a => match h.track.measured with
          | some t => encPos (t.get a - (h.axes.get a).trim)
          | none => [0#8, 0#8, 0#8]) ++
        [BitVec.ofNat 8 h.track.run, BitVec.ofNat 8 h.followCount,
          BitVec.ofNat 8 h.track.decimation]))) ∧
    (∀ b : Byte, 8 ≤ b.toNat →
      exec (.headStatus tag [b]) s = .next (s.refuses s.part 0x70#8 tag .range))

/-- RESET SOFT completes in every state: LINKED heads that are not OFFLINE are HALTED, with cause RESET
where they were not HALTED before, restrictions, queues, resumption counts, grant mask, PASS queues,
upstream report slots, events and counters are cleared, RESET_DONE is the one event left, and the tables,
setpoints, links, holders, policy, line setups, event settings, time, port settings, buffered frames,
replies and the frame being sent are kept (R184, R207). Where the reply stands is the model's choice (log
entries 4 and 15). -/
def Obligations.ResetSoftClearsWork : Prop :=
  ∀ (s : State) (tag : Byte), s.part.Ready →
    let c := s.part
    let halts (j : Slot) : Bool := decide ((c.head j).link.state = .linked) &&
      !(c.head j).activity.isOffline && !(c.head j).activity.isHalted
    ∃ d : Cm8, exec (.resetSoft tag []) s = .next (s.accepts d 0x7F#8 tag
        [BitVec.ofNat 8 (Slot.all.filter halts).length]) ∧
      (∀ j : Slot,
        let h := c.head j
        let t := d.head j
        t.activity = (if halts j then .halted .reset else h.activity) ∧ t.queue = [] ∧
        t.resumptions = 0#16 ∧
        (∀ a, t.axes.get a = { h.axes.get a with restriction := none }) ∧
        t.track = { h.track with interval := none, upstream := none } ∧
        t.map = h.map ∧ t.shots = h.shots ∧ t.forward = h.forward ∧ t.link = h.link ∧
        t.setpoint = h.setpoint ∧ t.previous = h.previous ∧ t.seq = h.seq ∧ t.tally = h.tally ∧
        t.tallyChanged = h.tallyChanged ∧ t.followCount = h.followCount) ∧
      (∀ z : Zone, d.holder z = c.holder z) ∧ d.arbiter.mask = 0#8 ∧ d.arbiter.lowest = 7 ∧
      (∀ st, (d.store st).pass = [] ∧ (d.store st).roundRobin = (c.store st).roundRobin ∧
        (d.store st).outgoing = (c.store st).outgoing) ∧
      (∀ id, d.counter id = 0#16) ∧
      d.events.queue = (if c.events.enabled .resetDone then
        [⟨.resetDone, c.clock.frame, none, none, 0⟩] else []) ∧
      d.events.dropped = 0 ∧ d.events.kinds = c.events.kinds ∧
      d.events.mode = c.events.mode ∧ d.events.counterMode = c.events.counterMode ∧
      d.events.clearOnRead = c.events.clearOnRead ∧
      (∀ p, (d.pair p).setup = (c.pair p).setup ∧ (d.pair p).inForce = (c.pair p).inForce ∧
        (d.pair p).relined = (c.pair p).relined) ∧
      (∀ st, (d.store st).incoming = (c.store st).incoming) ∧
      d.clock = { c.clock with glitch := 0#16 } ∧ d.policy = c.policy ∧ d.zonemap = c.zonemap ∧
      d.port.settings = c.port.settings ∧ d.port.lastServed = c.port.lastServed ∧
      d.port.buffer = c.port.buffer ∧ d.port.replies = c.port.replies ∧
      d.port.sending = c.port.sending ∧ d.port.incoming = c.port.incoming

/-! ### Waits inside a tick (R120, R125) -/

/-- ZONE_WAIT_TIMEOUT completes when the tick's timer step brings a wait to the zone wait timeout: the
waiting move is dropped ZONE_TIMEOUT and the head is free with its resident zones (R120). ZONE_GRANTED
completes when the first grant of the tick's pass is handed to its head: ZONE_GRANTED is posted with the
zones and the ticks waited (that these are all the needed zones is read by inference, log entry 8), and off
air the waiting move becomes the active move, LATE exactly where its entry's cue differs from F (R54, R125);
that a move granted at its cue's own F is not LATE although it waited is the model's choice (log entry 34).
On air a SWIFT move is dropped ON_AIR under BLOCK and becomes EASE with SOFTENED under SOFTEN; a move that
starts has D raised to the on-air minimum, and to the duration of R74 where it was softened, with STRETCHED
as R98 gives it (R75). The row may also take the tick's pass ahead of the motion and queue work of the tick
(R128). How the row meets the tick's other work and an idle port is the model's choice (log entries 1 and
4). -/
def Obligations.WaitsEndByTimeoutOrGrant : Prop :=
  (∀ (s : State) (i : Slot) (w : Waiting) (ws : List Work),
    s.part.work = .timer i :: ws → (s.part.head i).activity = .waitZone w → w.fresh = false →
    s.part.policy.waitTimeout ≤ w.timer + 1 →
    let c := { s.part with work := ws }
    let d := (c.dropMove i w.move .zoneTimeout).restFree i
    exec (.zoneWaitTimeout i) s = .next { s with part := d.advance.chooseIdle } ∧
    (d.head i).activity = freeActivity c.clock.frame (c.head i).queue ∧
    (∀ z : Zone, d.holder z = some i ↔
      c.holder z = some i ∧ (c.residentZones i).getLsbD z.val = true) ∧
    (w.move.cls ≠ .stop → c.dropMove i w.move .zoneTimeout =
      c.post (some i) w.move.tag (.moveDropped w.move.source .zoneTimeout))) ∧
  (∀ (s : State) (i : Slot) (w : Waiting) (ws : List Work),
    s.part.work = .handover i :: ws → (s.part.head i).activity = .waitZone w →
    let c := { s.part with work := ws }
    let m := { w.move with flags := { w.move.flags with
      late := match w.cue with | none => false | some x => decide (c.clock.frame ≠ x) } }
    exec (.zoneGranted i) s = .next { s with part := (c.handGrant i).advance.chooseIdle } ∧
    ((s.part.head i).tally = false →
      c.handGrant i = ((((c.post (some i) w.move.tag (.zoneGranted w.move.zones w.timer)).skipMotion
        i).setActivity i (.moving m none)).post (some i) m.tag
          (.moveStarted m.source m.d m.flags)).recompute i ∧
      ((c.handGrant i).head i).activity = .moving m none) ∧
    ((s.part.head i).tally = true →
      let told := c.post (some i) w.move.tag (.zoneGranted w.move.zones w.timer)
      let starts (n : Move) : Prop :=
        c.handGrant i = (((told.skipMotion i).setActivity i (.moving n none)).post (some i) n.tag
          (.moveStarted n.source n.d n.flags)).recompute i ∧
        ((c.handGrant i).head i).activity = .moving n none
      (w.move.profile = some .swift → c.policy.onAir = .block → w.move.cls ≠ .stop →
        c.handGrant i = (((told.post (some i) w.move.tag
          (.moveDropped w.move.source .onAir)).toFree i).recompute i) ∧
        ((c.handGrant i).head i).activity = freeActivity c.clock.frame (c.head i).queue) ∧
      (w.move.profile = some .swift → c.policy.onAir = .soften →
        let d := max w.move.d (max c.policy.minimum w.easeRequest)
        starts { m with
          profile := some .ease, d := d,
          flags := { m.flags with softened := true, stretched := decide (w.easeRequest < d) } }) ∧
      (w.move.profile ≠ some .swift →
        let d := max w.move.d c.policy.minimum
        starts { m with
          d := d, flags := { m.flags with stretched := decide (w.requested < d) } }))) ∧
  (∀ (s : State) (i : Slot) (rest : List Slot), .pass ∈ s.part.work → .settle ∉ s.part.work →
    (∀ j, .timer j ∉ s.part.work ∧ .handover j ∉ s.part.work) →
    let c := { s.part with work := s.part.work.erase .pass }
    c.judgePass.2 = i :: rest →
    exec (.zoneGranted i) s = .next { s with
      part := (({ c.judgePass.1 with
        work := rest.map Work.handover ++ Work.settle :: c.work }).handGrant i).advance.chooseIdle })
end

