-- ==== Sys2Proof/Laws/State.lean ====
section
/-! SUPPORT. What each update of the part leaves in each field: one lemma per field per update, so that no
later proof unfolds a record update. -/

namespace Sys2Proof.Machine.Cm8

variable (c : Cm8) (i j : Slot) (h : Head) (z : Zone)

/-! ### One head's record -/

theorem head_setHead : (c.setHead i h).head j = if j = i then h else c.head j := by
  simp only [head, setHead]
  by_cases e : j = i
  · subst e; simp
  · have : ¬ i.val = j.val := fun x => e (Fin.ext x.symm)
    simp [e, this]

@[simp] theorem head_setHead_self : (c.setHead i h).head i = h := by simp [head_setHead]

@[simp] theorem head_setHead_ne (e : j ≠ i) : (c.setHead i h).head j = c.head j := by
  simp [head_setHead, e]

@[simp] theorem head_onHead_self (f : Head → Head) : (c.onHead i f).head i = f (c.head i) :=
  head_setHead_self ..

@[simp] theorem head_onHead_ne (f : Head → Head) (e : j ≠ i) : (c.onHead i f).head j = c.head j :=
  head_setHead_ne _ _ _ _ e

theorem head_onHead (f : Head → Head) :
    (c.onHead i f).head j = if j = i then f (c.head i) else c.head j :=
  head_setHead ..

@[simp] theorem head_setActivity_self (a : Activity) :
    (c.setActivity i a).head i = { c.head i with activity := a } :=
  head_setHead_self ..

@[simp] theorem head_setActivity_ne (a : Activity) (e : j ≠ i) :
    (c.setActivity i a).head j = c.head j :=
  head_setHead_ne _ _ _ _ e

@[simp] theorem head_setQueue_self (q : List QueueEntry) :
    (c.setQueue i q).head i = { c.head i with queue := q } :=
  head_setHead_self ..

@[simp] theorem head_setQueue_ne (q : List QueueEntry) (e : j ≠ i) :
    (c.setQueue i q).head j = c.head j :=
  head_setHead_ne _ _ _ _ e

@[simp] theorem head_onTrack_self (f : Tracker → Tracker) :
    (c.onTrack i f).head i = { c.head i with track := f (c.head i).track } :=
  head_setHead_self ..

@[simp] theorem head_onTrack_ne (f : Tracker → Tracker) (e : j ≠ i) :
    (c.onTrack i f).head j = c.head j :=
  head_setHead_ne _ _ _ _ e

@[simp] theorem head_onHeads (f : Slot → Head → Head) : (c.onHeads f).head j = f j (c.head j) := by
  simp [head, onHeads]

/-- A record written back as it was changes nothing. -/
@[simp] theorem setHead_head : c.setHead i (c.head i) = c := by
  simp [setHead, head]

/-! ### setHead -/

@[simp] theorem port_setHead : (c.setHead i h).port = c.port := rfl

@[simp] theorem policy_setHead : (c.setHead i h).policy = c.policy := rfl

@[simp] theorem zonemap_setHead : (c.setHead i h).zonemap = c.zonemap := rfl

@[simp] theorem clock_setHead : (c.setHead i h).clock = c.clock := rfl

@[simp] theorem arbiter_setHead : (c.setHead i h).arbiter = c.arbiter := rfl

@[simp] theorem pair0_setHead : (c.setHead i h).pair0 = c.pair0 := rfl

@[simp] theorem pair1_setHead : (c.setHead i h).pair1 = c.pair1 := rfl

@[simp] theorem events_setHead : (c.setHead i h).events = c.events := rfl

@[simp] theorem work_setHead : (c.setHead i h).work = c.work := rfl

@[simp] theorem holder_setHead : (c.setHead i h).holder z = c.holder z := rfl

@[simp] theorem pair_setHead (p : Fin 2) : (c.setHead i h).pair p = c.pair p := rfl

@[simp] theorem store_setHead (st : StoreId) : (c.setHead i h).store st = c.store st := rfl

/-! ### onHead -/

@[simp] theorem port_onHead (f : Head → Head) : (c.onHead i f).port = c.port := rfl

@[simp] theorem policy_onHead (f : Head → Head) : (c.onHead i f).policy = c.policy := rfl

@[simp] theorem zonemap_onHead (f : Head → Head) : (c.onHead i f).zonemap = c.zonemap := rfl

@[simp] theorem clock_onHead (f : Head → Head) : (c.onHead i f).clock = c.clock := rfl

@[simp] theorem arbiter_onHead (f : Head → Head) : (c.onHead i f).arbiter = c.arbiter := rfl

@[simp] theorem pair0_onHead (f : Head → Head) : (c.onHead i f).pair0 = c.pair0 := rfl

@[simp] theorem pair1_onHead (f : Head → Head) : (c.onHead i f).pair1 = c.pair1 := rfl

@[simp] theorem events_onHead (f : Head → Head) : (c.onHead i f).events = c.events := rfl

@[simp] theorem work_onHead (f : Head → Head) : (c.onHead i f).work = c.work := rfl

@[simp] theorem holder_onHead (f : Head → Head) : (c.onHead i f).holder z = c.holder z := rfl

@[simp] theorem pair_onHead (p : Fin 2) (f : Head → Head) : (c.onHead i f).pair p = c.pair p := rfl

@[simp] theorem store_onHead (st : StoreId) (f : Head → Head) : (c.onHead i f).store st = c.store st := rfl

/-! ### onHeads -/

@[simp] theorem port_onHeads (f : Slot → Head → Head) : (c.onHeads f).port = c.port := rfl

@[simp] theorem policy_onHeads (f : Slot → Head → Head) : (c.onHeads f).policy = c.policy := rfl

@[simp] theorem zonemap_onHeads (f : Slot → Head → Head) : (c.onHeads f).zonemap = c.zonemap := rfl

@[simp] theorem clock_onHeads (f : Slot → Head → Head) : (c.onHeads f).clock = c.clock := rfl

@[simp] theorem arbiter_onHeads (f : Slot → Head → Head) : (c.onHeads f).arbiter = c.arbiter := rfl

@[simp] theorem pair0_onHeads (f : Slot → Head → Head) : (c.onHeads f).pair0 = c.pair0 := rfl

@[simp] theorem pair1_onHeads (f : Slot → Head → Head) : (c.onHeads f).pair1 = c.pair1 := rfl

@[simp] theorem events_onHeads (f : Slot → Head → Head) : (c.onHeads f).events = c.events := rfl

@[simp] theorem work_onHeads (f : Slot → Head → Head) : (c.onHeads f).work = c.work := rfl

@[simp] theorem holder_onHeads (f : Slot → Head → Head) : (c.onHeads f).holder z = c.holder z := rfl

@[simp] theorem pair_onHeads (p : Fin 2) (f : Slot → Head → Head) : (c.onHeads f).pair p = c.pair p := rfl

@[simp] theorem store_onHeads (st : StoreId) (f : Slot → Head → Head) : (c.onHeads f).store st = c.store st := rfl

/-! ### setActivity -/

@[simp] theorem port_setActivity (a : Activity) : (c.setActivity i a).port = c.port := rfl

@[simp] theorem policy_setActivity (a : Activity) : (c.setActivity i a).policy = c.policy := rfl

@[simp] theorem zonemap_setActivity (a : Activity) : (c.setActivity i a).zonemap = c.zonemap := rfl

@[simp] theorem clock_setActivity (a : Activity) : (c.setActivity i a).clock = c.clock := rfl

@[simp] theorem arbiter_setActivity (a : Activity) : (c.setActivity i a).arbiter = c.arbiter := rfl

@[simp] theorem pair0_setActivity (a : Activity) : (c.setActivity i a).pair0 = c.pair0 := rfl

@[simp] theorem pair1_setActivity (a : Activity) : (c.setActivity i a).pair1 = c.pair1 := rfl

@[simp] theorem events_setActivity (a : Activity) : (c.setActivity i a).events = c.events := rfl

@[simp] theorem work_setActivity (a : Activity) : (c.setActivity i a).work = c.work := rfl

@[simp] theorem holder_setActivity (a : Activity) : (c.setActivity i a).holder z = c.holder z := rfl

@[simp] theorem pair_setActivity (p : Fin 2) (a : Activity) : (c.setActivity i a).pair p = c.pair p := rfl

@[simp] theorem store_setActivity (st : StoreId) (a : Activity) : (c.setActivity i a).store st = c.store st := rfl

/-! ### setQueue -/

@[simp] theorem port_setQueue (q : List QueueEntry) : (c.setQueue i q).port = c.port := rfl

@[simp] theorem policy_setQueue (q : List QueueEntry) : (c.setQueue i q).policy = c.policy := rfl

@[simp] theorem zonemap_setQueue (q : List QueueEntry) : (c.setQueue i q).zonemap = c.zonemap := rfl

@[simp] theorem clock_setQueue (q : List QueueEntry) : (c.setQueue i q).clock = c.clock := rfl

@[simp] theorem arbiter_setQueue (q : List QueueEntry) : (c.setQueue i q).arbiter = c.arbiter := rfl

@[simp] theorem pair0_setQueue (q : List QueueEntry) : (c.setQueue i q).pair0 = c.pair0 := rfl

@[simp] theorem pair1_setQueue (q : List QueueEntry) : (c.setQueue i q).pair1 = c.pair1 := rfl

@[simp] theorem events_setQueue (q : List QueueEntry) : (c.setQueue i q).events = c.events := rfl

@[simp] theorem work_setQueue (q : List QueueEntry) : (c.setQueue i q).work = c.work := rfl

@[simp] theorem holder_setQueue (q : List QueueEntry) : (c.setQueue i q).holder z = c.holder z := rfl

@[simp] theorem pair_setQueue (p : Fin 2) (q : List QueueEntry) : (c.setQueue i q).pair p = c.pair p := rfl

@[simp] theorem store_setQueue (st : StoreId) (q : List QueueEntry) : (c.setQueue i q).store st = c.store st := rfl

/-! ### onTrack -/

@[simp] theorem port_onTrack (f : Tracker → Tracker) : (c.onTrack i f).port = c.port := rfl

@[simp] theorem policy_onTrack (f : Tracker → Tracker) : (c.onTrack i f).policy = c.policy := rfl

@[simp] theorem zonemap_onTrack (f : Tracker → Tracker) : (c.onTrack i f).zonemap = c.zonemap := rfl

@[simp] theorem clock_onTrack (f : Tracker → Tracker) : (c.onTrack i f).clock = c.clock := rfl

@[simp] theorem arbiter_onTrack (f : Tracker → Tracker) : (c.onTrack i f).arbiter = c.arbiter := rfl

@[simp] theorem pair0_onTrack (f : Tracker → Tracker) : (c.onTrack i f).pair0 = c.pair0 := rfl

@[simp] theorem pair1_onTrack (f : Tracker → Tracker) : (c.onTrack i f).pair1 = c.pair1 := rfl

@[simp] theorem events_onTrack (f : Tracker → Tracker) : (c.onTrack i f).events = c.events := rfl

@[simp] theorem work_onTrack (f : Tracker → Tracker) : (c.onTrack i f).work = c.work := rfl

@[simp] theorem holder_onTrack (f : Tracker → Tracker) : (c.onTrack i f).holder z = c.holder z := rfl

@[simp] theorem pair_onTrack (p : Fin 2) (f : Tracker → Tracker) : (c.onTrack i f).pair p = c.pair p := rfl

@[simp] theorem store_onTrack (st : StoreId) (f : Tracker → Tracker) : (c.onTrack i f).store st = c.store st := rfl

/-! ### withHolders -/

@[simp] theorem port_withHolders (f : Zone → Option Slot) : (c.withHolders f).port = c.port := by unfold withHolders; rfl

@[simp] theorem policy_withHolders (f : Zone → Option Slot) : (c.withHolders f).policy = c.policy := by unfold withHolders; rfl

@[simp] theorem zonemap_withHolders (f : Zone → Option Slot) : (c.withHolders f).zonemap = c.zonemap := by unfold withHolders; rfl

@[simp] theorem clock_withHolders (f : Zone → Option Slot) : (c.withHolders f).clock = c.clock := by unfold withHolders; rfl

@[simp] theorem heads_withHolders (f : Zone → Option Slot) : (c.withHolders f).heads = c.heads := by unfold withHolders; rfl

@[simp] theorem pair0_withHolders (f : Zone → Option Slot) : (c.withHolders f).pair0 = c.pair0 := by unfold withHolders; rfl

@[simp] theorem pair1_withHolders (f : Zone → Option Slot) : (c.withHolders f).pair1 = c.pair1 := by unfold withHolders; rfl

@[simp] theorem events_withHolders (f : Zone → Option Slot) : (c.withHolders f).events = c.events := by unfold withHolders; rfl

@[simp] theorem work_withHolders (f : Zone → Option Slot) : (c.withHolders f).work = c.work := by unfold withHolders; rfl

@[simp] theorem head_withHolders (f : Zone → Option Slot) : (c.withHolders f).head j = c.head j := by unfold withHolders; rfl

@[simp] theorem pair_withHolders (p : Fin 2) (f : Zone → Option Slot) : (c.withHolders f).pair p = c.pair p := by unfold withHolders; rfl

@[simp] theorem store_withHolders (st : StoreId) (f : Zone → Option Slot) : (c.withHolders f).store st = c.store st := by unfold withHolders; rfl

/-! ### skipMotion -/

@[simp] theorem port_skipMotion : (c.skipMotion i).port = c.port := rfl

@[simp] theorem policy_skipMotion : (c.skipMotion i).policy = c.policy := rfl

@[simp] theorem zonemap_skipMotion : (c.skipMotion i).zonemap = c.zonemap := rfl

@[simp] theorem clock_skipMotion : (c.skipMotion i).clock = c.clock := rfl

@[simp] theorem heads_skipMotion : (c.skipMotion i).heads = c.heads := rfl

@[simp] theorem arbiter_skipMotion : (c.skipMotion i).arbiter = c.arbiter := rfl

@[simp] theorem pair0_skipMotion : (c.skipMotion i).pair0 = c.pair0 := rfl

@[simp] theorem pair1_skipMotion : (c.skipMotion i).pair1 = c.pair1 := rfl

@[simp] theorem events_skipMotion : (c.skipMotion i).events = c.events := rfl

@[simp] theorem head_skipMotion : (c.skipMotion i).head j = c.head j := rfl

@[simp] theorem holder_skipMotion : (c.skipMotion i).holder z = c.holder z := rfl

@[simp] theorem pair_skipMotion (p : Fin 2) : (c.skipMotion i).pair p = c.pair p := rfl

@[simp] theorem store_skipMotion (st : StoreId) : (c.skipMotion i).store st = c.store st := rfl

/-! ### skipQueue -/

@[simp] theorem port_skipQueue : (c.skipQueue i).port = c.port := rfl

@[simp] theorem policy_skipQueue : (c.skipQueue i).policy = c.policy := rfl

@[simp] theorem zonemap_skipQueue : (c.skipQueue i).zonemap = c.zonemap := rfl

@[simp] theorem clock_skipQueue : (c.skipQueue i).clock = c.clock := rfl

@[simp] theorem heads_skipQueue : (c.skipQueue i).heads = c.heads := rfl

@[simp] theorem arbiter_skipQueue : (c.skipQueue i).arbiter = c.arbiter := rfl

@[simp] theorem pair0_skipQueue : (c.skipQueue i).pair0 = c.pair0 := rfl

@[simp] theorem pair1_skipQueue : (c.skipQueue i).pair1 = c.pair1 := rfl

@[simp] theorem events_skipQueue : (c.skipQueue i).events = c.events := rfl

@[simp] theorem head_skipQueue : (c.skipQueue i).head j = c.head j := rfl

@[simp] theorem holder_skipQueue : (c.skipQueue i).holder z = c.holder z := rfl

@[simp] theorem pair_skipQueue (p : Fin 2) : (c.skipQueue i).pair p = c.pair p := rfl

@[simp] theorem store_skipQueue (st : StoreId) : (c.skipQueue i).store st = c.store st := rfl

/-! ### onClock -/

@[simp] theorem port_onClock (f : Timebase → Timebase) : (c.onClock f).port = c.port := rfl

@[simp] theorem policy_onClock (f : Timebase → Timebase) : (c.onClock f).policy = c.policy := rfl

@[simp] theorem zonemap_onClock (f : Timebase → Timebase) : (c.onClock f).zonemap = c.zonemap := rfl

@[simp] theorem heads_onClock (f : Timebase → Timebase) : (c.onClock f).heads = c.heads := rfl

@[simp] theorem arbiter_onClock (f : Timebase → Timebase) : (c.onClock f).arbiter = c.arbiter := rfl

@[simp] theorem pair0_onClock (f : Timebase → Timebase) : (c.onClock f).pair0 = c.pair0 := rfl

@[simp] theorem pair1_onClock (f : Timebase → Timebase) : (c.onClock f).pair1 = c.pair1 := rfl

@[simp] theorem events_onClock (f : Timebase → Timebase) : (c.onClock f).events = c.events := rfl

@[simp] theorem work_onClock (f : Timebase → Timebase) : (c.onClock f).work = c.work := rfl

@[simp] theorem head_onClock (f : Timebase → Timebase) : (c.onClock f).head j = c.head j := rfl

@[simp] theorem holder_onClock (f : Timebase → Timebase) : (c.onClock f).holder z = c.holder z := rfl

@[simp] theorem pair_onClock (p : Fin 2) (f : Timebase → Timebase) : (c.onClock f).pair p = c.pair p := rfl

@[simp] theorem store_onClock (st : StoreId) (f : Timebase → Timebase) : (c.onClock f).store st = c.store st := rfl

/-! ### reach -/

@[simp] theorem port_reach (n : Nat) : (c.reach n).port = c.port := rfl

@[simp] theorem policy_reach (n : Nat) : (c.reach n).policy = c.policy := rfl

@[simp] theorem zonemap_reach (n : Nat) : (c.reach n).zonemap = c.zonemap := rfl

@[simp] theorem heads_reach (n : Nat) : (c.reach n).heads = c.heads := rfl

@[simp] theorem arbiter_reach (n : Nat) : (c.reach n).arbiter = c.arbiter := rfl

@[simp] theorem pair0_reach (n : Nat) : (c.reach n).pair0 = c.pair0 := rfl

@[simp] theorem pair1_reach (n : Nat) : (c.reach n).pair1 = c.pair1 := rfl

@[simp] theorem events_reach (n : Nat) : (c.reach n).events = c.events := rfl

@[simp] theorem work_reach (n : Nat) : (c.reach n).work = c.work := rfl

@[simp] theorem head_reach (n : Nat) : (c.reach n).head j = c.head j := rfl

@[simp] theorem holder_reach (n : Nat) : (c.reach n).holder z = c.holder z := rfl

@[simp] theorem pair_reach (p : Fin 2) (n : Nat) : (c.reach n).pair p = c.pair p := rfl

@[simp] theorem store_reach (st : StoreId) (n : Nat) : (c.reach n).store st = c.store st := rfl

/-! ### noteEdge -/

@[simp] theorem port_noteEdge (n : Nat) : (c.noteEdge n).port = c.port := rfl

@[simp] theorem policy_noteEdge (n : Nat) : (c.noteEdge n).policy = c.policy := rfl

@[simp] theorem zonemap_noteEdge (n : Nat) : (c.noteEdge n).zonemap = c.zonemap := rfl

@[simp] theorem heads_noteEdge (n : Nat) : (c.noteEdge n).heads = c.heads := rfl

@[simp] theorem arbiter_noteEdge (n : Nat) : (c.noteEdge n).arbiter = c.arbiter := rfl

@[simp] theorem pair0_noteEdge (n : Nat) : (c.noteEdge n).pair0 = c.pair0 := rfl

@[simp] theorem pair1_noteEdge (n : Nat) : (c.noteEdge n).pair1 = c.pair1 := rfl

@[simp] theorem events_noteEdge (n : Nat) : (c.noteEdge n).events = c.events := rfl

@[simp] theorem work_noteEdge (n : Nat) : (c.noteEdge n).work = c.work := rfl

@[simp] theorem head_noteEdge (n : Nat) : (c.noteEdge n).head j = c.head j := rfl

@[simp] theorem holder_noteEdge (n : Nat) : (c.noteEdge n).holder z = c.holder z := rfl

@[simp] theorem pair_noteEdge (p : Fin 2) (n : Nat) : (c.noteEdge n).pair p = c.pair p := rfl

@[simp] theorem store_noteEdge (st : StoreId) (n : Nat) : (c.noteEdge n).store st = c.store st := rfl

/-! ### post -/

@[simp] theorem port_post (s : Option Slot) (t : Option Byte) (e : Event) :
    (c.post s t e).port = c.port := by unfold post; split <;> rfl

@[simp] theorem policy_post (s : Option Slot) (t : Option Byte) (e : Event) :
    (c.post s t e).policy = c.policy := by unfold post; split <;> rfl

@[simp] theorem zonemap_post (s : Option Slot) (t : Option Byte) (e : Event) :
    (c.post s t e).zonemap = c.zonemap := by unfold post; split <;> rfl

@[simp] theorem clock_post (s : Option Slot) (t : Option Byte) (e : Event) :
    (c.post s t e).clock = c.clock := by unfold post; split <;> rfl

@[simp] theorem heads_post (s : Option Slot) (t : Option Byte) (e : Event) :
    (c.post s t e).heads = c.heads := by unfold post; split <;> rfl

@[simp] theorem arbiter_post (s : Option Slot) (t : Option Byte) (e : Event) :
    (c.post s t e).arbiter = c.arbiter := by unfold post; split <;> rfl

@[simp] theorem pair0_post (s : Option Slot) (t : Option Byte) (e : Event) :
    (c.post s t e).pair0 = c.pair0 := by unfold post; split <;> rfl

@[simp] theorem pair1_post (s : Option Slot) (t : Option Byte) (e : Event) :
    (c.post s t e).pair1 = c.pair1 := by unfold post; split <;> rfl

@[simp] theorem work_post (s : Option Slot) (t : Option Byte) (e : Event) :
    (c.post s t e).work = c.work := by unfold post; split <;> rfl

@[simp] theorem head_post (s : Option Slot) (t : Option Byte) (e : Event) :
    (c.post s t e).head j = c.head j := by unfold post; split <;> rfl

@[simp] theorem holder_post (s : Option Slot) (t : Option Byte) (e : Event) :
    (c.post s t e).holder z = c.holder z := by unfold post; split <;> rfl

@[simp] theorem pair_post (s : Option Slot) (t : Option Byte) (e : Event) (p : Fin 2) :
    (c.post s t e).pair p = c.pair p := by unfold post; split <;> rfl

@[simp] theorem store_post (s : Option Slot) (t : Option Byte) (e : Event) (st : StoreId) :
    (c.post s t e).store st = c.store st := by unfold post; split <;> rfl

@[simp] theorem counter_post (s : Option Slot) (t : Option Byte) (e : Event) (id : CounterId) :
    (c.post s t e).counter id = c.counter id := by unfold post; split <;> cases id <;> rfl

/-! ### Holders -/

@[simp] theorem holder_withHolders (f : Zone → Option Slot) : (c.withHolders f).holder z = f z := by
  simp [holder, withHolders]

@[simp] theorem mask_withHolders (f : Zone → Option Slot) :
    (c.withHolders f).arbiter.mask = c.arbiter.mask := by unfold withHolders; rfl

@[simp] theorem lowest_withHolders (f : Zone → Option Slot) :
    (c.withHolders f).arbiter.lowest = c.arbiter.lowest := by unfold withHolders; rfl

@[simp] theorem released_withHolders (f : Zone → Option Slot) :
    (c.withHolders f).arbiter.released = c.arbiter.released := by unfold withHolders; rfl

/-! ### Pairs, stores and counters -/

theorem pair_setPair (p q : Fin 2) (v : Pair) :
    (c.setPair p v).pair q = if q = p then v else c.pair q := by
  unfold setPair pair; fin_cases p <;> fin_cases q <;> rfl

@[simp] theorem pair_setPair_self (p : Fin 2) (v : Pair) : (c.setPair p v).pair p = v := by
  simp [pair_setPair]

@[simp] theorem setPair_pair (p : Fin 2) : c.setPair p (c.pair p) = c := by
  unfold setPair pair; fin_cases p <;> rfl

@[simp] theorem port_setPair (p : Fin 2) (v : Pair) : (c.setPair p v).port = c.port := by
  unfold setPair; split <;> rfl

@[simp] theorem policy_setPair (p : Fin 2) (v : Pair) : (c.setPair p v).policy = c.policy := by
  unfold setPair; split <;> rfl

@[simp] theorem zonemap_setPair (p : Fin 2) (v : Pair) : (c.setPair p v).zonemap = c.zonemap := by
  unfold setPair; split <;> rfl

@[simp] theorem clock_setPair (p : Fin 2) (v : Pair) : (c.setPair p v).clock = c.clock := by
  unfold setPair; split <;> rfl

@[simp] theorem heads_setPair (p : Fin 2) (v : Pair) : (c.setPair p v).heads = c.heads := by
  unfold setPair; split <;> rfl

@[simp] theorem arbiter_setPair (p : Fin 2) (v : Pair) : (c.setPair p v).arbiter = c.arbiter := by
  unfold setPair; split <;> rfl

@[simp] theorem events_setPair (p : Fin 2) (v : Pair) : (c.setPair p v).events = c.events := by
  unfold setPair; split <;> rfl

@[simp] theorem work_setPair (p : Fin 2) (v : Pair) : (c.setPair p v).work = c.work := by
  unfold setPair; split <;> rfl

@[simp] theorem head_setPair (p : Fin 2) (v : Pair) : (c.setPair p v).head j = c.head j := by
  unfold setPair; split <;> rfl

@[simp] theorem holder_setPair (p : Fin 2) (v : Pair) : (c.setPair p v).holder z = c.holder z := by
  unfold setPair; split <;> rfl

theorem store_setStore (s t : StoreId) (v : LineStore) :
    (c.setStore s v).store t = if t = s then v else c.store t := by
  obtain ⟨p, l⟩ := s
  obtain ⟨q, k⟩ := t
  fin_cases p <;> fin_cases q <;> cases l <;> cases k <;> rfl

@[simp] theorem store_setStore_self (s : StoreId) (v : LineStore) : (c.setStore s v).store s = v := by
  simp [store_setStore]

@[simp] theorem store_setStore_ne (s t : StoreId) (v : LineStore) (e : t ≠ s) :
    (c.setStore s v).store t = c.store t := by
  simp [store_setStore, e]

/-- A store of a pair holds no setup: writing one leaves every setup as it was. -/
@[simp] theorem setup_setStore (s : StoreId) (v : LineStore) (p : Fin 2) :
    (c.setStore s v).setup p = c.setup p := by
  obtain ⟨q, l⟩ := s
  fin_cases q <;> fin_cases p <;> cases l <;> rfl

@[simp] theorem inForce_setStore (s : StoreId) (v : LineStore) (p : Fin 2) :
    ((c.setStore s v).pair p).inForce = (c.pair p).inForce := by
  obtain ⟨q, l⟩ := s
  fin_cases q <;> fin_cases p <;> cases l <;> rfl

@[simp] theorem port_setStore (s : StoreId) (v : LineStore) : (c.setStore s v).port = c.port := by
  simp [setStore]

@[simp] theorem port_onStore (s : StoreId) (f : LineStore → LineStore) : (c.onStore s f).port = c.port := by
  simp [onStore]

@[simp] theorem policy_setStore (s : StoreId) (v : LineStore) : (c.setStore s v).policy = c.policy := by
  simp [setStore]

@[simp] theorem policy_onStore (s : StoreId) (f : LineStore → LineStore) : (c.onStore s f).policy = c.policy := by
  simp [onStore]

@[simp] theorem zonemap_setStore (s : StoreId) (v : LineStore) : (c.setStore s v).zonemap = c.zonemap := by
  simp [setStore]

@[simp] theorem zonemap_onStore (s : StoreId) (f : LineStore → LineStore) : (c.onStore s f).zonemap = c.zonemap := by
  simp [onStore]

@[simp] theorem clock_setStore (s : StoreId) (v : LineStore) : (c.setStore s v).clock = c.clock := by
  simp [setStore]

@[simp] theorem clock_onStore (s : StoreId) (f : LineStore → LineStore) : (c.onStore s f).clock = c.clock := by
  simp [onStore]

@[simp] theorem heads_setStore (s : StoreId) (v : LineStore) : (c.setStore s v).heads = c.heads := by
  simp [setStore]

@[simp] theorem heads_onStore (s : StoreId) (f : LineStore → LineStore) : (c.onStore s f).heads = c.heads := by
  simp [onStore]

@[simp] theorem arbiter_setStore (s : StoreId) (v : LineStore) : (c.setStore s v).arbiter = c.arbiter := by
  simp [setStore]

@[simp] theorem arbiter_onStore (s : StoreId) (f : LineStore → LineStore) : (c.onStore s f).arbiter = c.arbiter := by
  simp [onStore]

@[simp] theorem events_setStore (s : StoreId) (v : LineStore) : (c.setStore s v).events = c.events := by
  simp [setStore]

@[simp] theorem events_onStore (s : StoreId) (f : LineStore → LineStore) : (c.onStore s f).events = c.events := by
  simp [onStore]

@[simp] theorem work_setStore (s : StoreId) (v : LineStore) : (c.setStore s v).work = c.work := by
  simp [setStore]

@[simp] theorem work_onStore (s : StoreId) (f : LineStore → LineStore) : (c.onStore s f).work = c.work := by
  simp [onStore]

@[simp] theorem head_setStore (s : StoreId) (v : LineStore) : (c.setStore s v).head j = c.head j := by
  simp [setStore]

@[simp] theorem head_onStore (s : StoreId) (f : LineStore → LineStore) : (c.onStore s f).head j = c.head j := by
  simp [onStore]

@[simp] theorem holder_setStore (s : StoreId) (v : LineStore) : (c.setStore s v).holder z = c.holder z := by
  simp [setStore]

@[simp] theorem holder_onStore (s : StoreId) (f : LineStore → LineStore) : (c.onStore s f).holder z = c.holder z := by
  simp [onStore]

@[simp] theorem store_onStore_self (s : StoreId) (f : LineStore → LineStore) :
    (c.onStore s f).store s = f (c.store s) :=
  store_setStore_self ..

@[simp] theorem store_onStore_ne (s t : StoreId) (f : LineStore → LineStore) (e : t ≠ s) :
    (c.onStore s f).store t = c.store t :=
  store_setStore_ne _ _ _ _ e

@[simp] theorem setup_onStore (s : StoreId) (f : LineStore → LineStore) (p : Fin 2) :
    (c.onStore s f).setup p = c.setup p :=
  setup_setStore ..

theorem counters_get_set (k : LineCounters) (a b : LineCounter) (v : BitVec 16) :
    (k.set a v).get b = if b = a then v else k.get b := by
  cases a <;> cases b <;> rfl

theorem counter_setCounter (a b : CounterId) (v : BitVec 16) :
    (c.setCounter a v).counter b = if b = a then v else c.counter b := by
  cases a with
  | line s k =>
    cases b with
    | line t m =>
      simp only [counter, setCounter]
      by_cases e : t = s
      · subst e; simp [counters_get_set]
      · simp [e]
    | rxOk => simp [counter, setCounter]
    | rxBad => simp [counter, setCounter]
    | rxOverrun => simp [counter, setCounter]
    | glitch => simp [counter, setCounter]
  | rxOk => cases b <;> rfl
  | rxBad => cases b <;> rfl
  | rxOverrun => cases b <;> rfl
  | glitch => cases b <;> rfl

@[simp] theorem policy_setCounter (id : CounterId) (v : BitVec 16) :
    (c.setCounter id v).policy = c.policy := by cases id <;> simp [setCounter]

@[simp] theorem zonemap_setCounter (id : CounterId) (v : BitVec 16) :
    (c.setCounter id v).zonemap = c.zonemap := by cases id <;> simp [setCounter]

@[simp] theorem heads_setCounter (id : CounterId) (v : BitVec 16) :
    (c.setCounter id v).heads = c.heads := by cases id <;> simp [setCounter]

@[simp] theorem arbiter_setCounter (id : CounterId) (v : BitVec 16) :
    (c.setCounter id v).arbiter = c.arbiter := by cases id <;> simp [setCounter]

@[simp] theorem events_setCounter (id : CounterId) (v : BitVec 16) :
    (c.setCounter id v).events = c.events := by cases id <;> simp [setCounter]

@[simp] theorem work_setCounter (id : CounterId) (v : BitVec 16) :
    (c.setCounter id v).work = c.work := by cases id <;> simp [setCounter]

@[simp] theorem head_setCounter (id : CounterId) (v : BitVec 16) :
    (c.setCounter id v).head j = c.head j := by cases id <;> first | rfl | simp [setCounter]

@[simp] theorem holder_setCounter (id : CounterId) (v : BitVec 16) :
    (c.setCounter id v).holder z = c.holder z := by cases id <;> first | rfl | simp [setCounter]

end Sys2Proof.Machine.Cm8

namespace Sys2Proof.PerAxis

variable {α : Type}

@[simp] theorem get_gen (f : Axis → α) (a : Axis) : (gen f).get a = f a := by cases a <;> rfl

@[simp] theorem get_const (v : α) (a : Axis) : (const v).get a = v := by simp [const]

theorem get_set (t : PerAxis α) (a b : Axis) (v : α) :
    (t.set a v).get b = if b = a then v else t.get b := by simp [set]

/-- Two tables with the same value for every axis are equal. -/
theorem ext_get {s t : PerAxis α} (h : ∀ a, s.get a = t.get a) : s = t := by
  obtain ⟨a, b, c, d, e, f⟩ := s
  obtain ⟨a', b', c', d', e', f'⟩ := t
  have h0 := h .pan
  have h1 := h .tilt
  have h2 := h .zoom
  have h3 := h .focus
  have h4 := h .lift
  have h5 := h .travel
  simp only [get] at h0 h1 h2 h3 h4 h5
  simp [h0, h1, h2, h3, h4, h5]

end Sys2Proof.PerAxis
end

