-- ==== Sys2Proof/Laws/Zones.lean ====
section
/-! SUPPORT. Zone sets, and what giving and freeing zones does to the holders and to nothing else (R113 to
R117). -/

namespace Sys2Proof

@[simp] theorem Slot.mem_all (i : Slot) : i ∈ Slot.all := by revert i; decide

@[simp] theorem Zone.mem_all (z : Zone) : z ∈ Zone.all := by revert z; decide

theorem Slot.nodup_all : Slot.all.Nodup := by decide

@[simp] theorem Axis.mem_all (a : Axis) : a ∈ Axis.all := by cases a <;> decide

@[simp] theorem ZoneSet.mem_zones (zs : ZoneSet) (z : Zone) :
    z ∈ ZoneSet.zones zs ↔ zs.getLsbD z.val = true := by
  simp [ZoneSet.zones]

@[simp] theorem AxisMask.mem_axes (m : AxisMask) (a : Axis) :
    a ∈ AxisMask.axes m ↔ m.getLsbD a.num = true := by
  simp [AxisMask.axes]

theorem ZoneSet.one_bit : ∀ y z : Zone, (1#16 <<< y.val).getLsbD z.val = decide (z = y) := by decide

/-- Bits of a set that is built up one zone after the other. -/
theorem ZoneSet.foldl_bit (p : Zone → Bool) (l : List Zone) (zs : ZoneSet) (z : Zone) :
    (l.foldl (fun zs z => if p z then zs ||| (1#16 <<< z.val) else zs) zs).getLsbD z.val =
      (zs.getLsbD z.val || decide (z ∈ l ∧ p z = true)) := by
  induction l generalizing zs with
  | nil => simp
  | cons y l ih =>
    rw [List.foldl_cons, ih]
    have bit : (1#16 <<< y.val).getLsbD z.val = decide (z = y) := one_bit y z
    by_cases hy : p y = true
    · by_cases e : z = y
      · subst e; simp [hy]
      · rw [if_pos hy, BitVec.getLsbD_or, bit]
        simp [e]
    · by_cases e : z = y
      · subst e; simp [hy]
      · simp [hy, e]

/-- A zone is in the set that a test picks exactly when the test picks it. -/
theorem ZoneSet.getLsbD_ofPred (p : Zone → Bool) (z : Zone) :
    (ZoneSet.ofPred p).getLsbD z.val = p z := by
  rw [ZoneSet.ofPred, ZoneSet.foldl_bit]
  simp

@[simp] theorem ZoneSet.getElem_ofPred (p : Zone → Bool) (z : Zone) :
    (ZoneSet.ofPred p)[z.val] = p z := by
  rw [← BitVec.getLsbD_eq_getElem, ZoneSet.getLsbD_ofPred]

/-- Two zone sets with the same zones are equal. -/
theorem ZoneSet.ext_zones {a b : ZoneSet}
    (h : ∀ z : Zone, a.getLsbD z.val = b.getLsbD z.val) : a = b :=
  BitVec.eq_of_getLsbD_eq fun k hk => h ⟨k, hk⟩

@[simp] theorem ZoneSet.getLsbD_zero (z : Zone) : (0#16 : ZoneSet).getLsbD z.val = false := by simp

end Sys2Proof

namespace Sys2Proof.Machine.Cm8

variable (c : Cm8) (i j : Slot) (z : Zone) (zs : ZoneSet)

/-! ### The holders -/

@[simp] theorem holdsZone_iff : c.holdsZone i z = true ↔ c.holder z = some i := by simp [holdsZone]

@[simp] theorem isFree_iff : c.isFree z = true ↔ c.holder z = none := by simp [isFree]

theorem heldByOther_iff : c.heldByOther i z = true ↔ ∃ j, j ≠ i ∧ c.holder z = some j := by
  unfold heldByOther
  cases h : c.holder z with
  | none => simp
  | some o => simp

/-- A head holds a zone exactly when it is in its holdings. -/
theorem getLsbD_holdings :
    (c.holdings i).getLsbD z.val = true ↔ c.holder z = some i := by simp [holdings]

/-- Every zone of a set can be had at once when each is free or the head's own (R55, R116). -/
theorem obtainable_iff : c.obtainable i zs = true ↔
    ∀ z : Zone, zs.getLsbD z.val = true → c.holder z = none ∨ c.holder z = some i := by
  simp only [obtainable, List.all_eq_true, ZoneSet.mem_zones, Bool.not_eq_true', Bool.eq_false_iff,
    ne_eq, heldByOther_iff]
  refine forall₂_congr fun z _ => ?_
  cases h : c.holder z with
  | none => simp
  | some o => simp

/-- A set that cannot be had at once has a zone of another head. -/
theorem obtainable_false_iff : c.obtainable i zs = false ↔
    ∃ z : Zone, zs.getLsbD z.val = true ∧ ∃ j, j ≠ i ∧ c.holder z = some j := by
  rw [← Bool.not_eq_true, obtainable_iff]
  push Not
  refine exists_congr fun z => and_congr_right fun _ => ?_
  cases h : c.holder z with
  | none => simp
  | some o => simp

/-! ### giveFree (R116, R117, R124) -/

/-- What giving the free zones of a set does to each holder. -/
@[simp] theorem holder_giveFree : (c.giveFree i zs).holder z =
    if zs.getLsbD z.val = true ∧ c.holder z = none then some i else c.holder z := by
  simp [giveFree]

/-- A zone that someone holds keeps its holder. -/
theorem holder_giveFree_of_some {z : Zone} {j : Slot} (h : c.holder z = some j) :
    (c.giveFree i zs).holder z = some j := by simp [h]

/-- When the set can be had at once, the head holds all of it afterwards. -/
theorem holder_giveFree_of_obtainable (h : c.obtainable i zs = true)
    (hz : zs.getLsbD z.val = true) : (c.giveFree i zs).holder z = some i := by
  rcases (obtainable_iff c i zs).1 h z hz with e | e <;> simp [hz, e]

@[simp] theorem port_giveFree : (c.giveFree i zs).port = c.port := by simp [giveFree]

@[simp] theorem policy_giveFree : (c.giveFree i zs).policy = c.policy := by simp [giveFree]

@[simp] theorem zonemap_giveFree : (c.giveFree i zs).zonemap = c.zonemap := by simp [giveFree]

@[simp] theorem clock_giveFree : (c.giveFree i zs).clock = c.clock := by simp [giveFree]

@[simp] theorem heads_giveFree : (c.giveFree i zs).heads = c.heads := by simp [giveFree]

@[simp] theorem pair0_giveFree : (c.giveFree i zs).pair0 = c.pair0 := by simp [giveFree]

@[simp] theorem pair1_giveFree : (c.giveFree i zs).pair1 = c.pair1 := by simp [giveFree]

@[simp] theorem events_giveFree : (c.giveFree i zs).events = c.events := by simp [giveFree]

@[simp] theorem work_giveFree : (c.giveFree i zs).work = c.work := by simp [giveFree]

@[simp] theorem head_giveFree : (c.giveFree i zs).head j = c.head j := by simp [giveFree]

@[simp] theorem mask_giveFree : (c.giveFree i zs).arbiter.mask = c.arbiter.mask := by simp [giveFree]

@[simp] theorem lowest_giveFree : (c.giveFree i zs).arbiter.lowest = c.arbiter.lowest := by
  simp [giveFree]

@[simp] theorem released_giveFree : (c.giveFree i zs).arbiter.released = c.arbiter.released := by
  simp [giveFree]

/-! ### freeOutside (R115, R130) -/

/-- What freeing a head's zones outside a set does to each holder. -/
@[simp] theorem holder_freeOutside : (c.freeOutside i zs).holder z =
    if c.holder z = some i ∧ zs.getLsbD z.val = false then none else c.holder z := by
  have e : (c.freeOutside i zs).holder z = (c.withHolders fun z =>
      if c.holdsZone i z && !zs.getLsbD z.val then none else c.holder z).holder z := rfl
  rw [e, holder_withHolders]
  simp

/-- A release is owed afterwards when one was before, or when a zone was freed (R122). -/
theorem released_freeOutside : (c.freeOutside i zs).arbiter.released = true ↔
    c.arbiter.released = true ∨ ∃ z : Zone, c.holder z = some i ∧ zs.getLsbD z.val = false := by
  simp [freeOutside]

@[simp] theorem port_freeOutside : (c.freeOutside i zs).port = c.port := by
  simp [freeOutside]

@[simp] theorem policy_freeOutside : (c.freeOutside i zs).policy = c.policy := by
  simp [freeOutside]

@[simp] theorem zonemap_freeOutside : (c.freeOutside i zs).zonemap = c.zonemap := by
  simp [freeOutside]

@[simp] theorem clock_freeOutside : (c.freeOutside i zs).clock = c.clock := by
  simp [freeOutside]

@[simp] theorem heads_freeOutside : (c.freeOutside i zs).heads = c.heads := by
  simp [freeOutside]

@[simp] theorem pair0_freeOutside : (c.freeOutside i zs).pair0 = c.pair0 := by
  simp [freeOutside]

@[simp] theorem pair1_freeOutside : (c.freeOutside i zs).pair1 = c.pair1 := by
  simp [freeOutside]

@[simp] theorem events_freeOutside : (c.freeOutside i zs).events = c.events := by
  simp [freeOutside]

@[simp] theorem work_freeOutside : (c.freeOutside i zs).work = c.work := by
  simp [freeOutside]

@[simp] theorem head_freeOutside : (c.freeOutside i zs).head j = c.head j := by
  unfold head; simp

@[simp] theorem mask_freeOutside : (c.freeOutside i zs).arbiter.mask = c.arbiter.mask := by
  simp [freeOutside]

@[simp] theorem lowest_freeOutside : (c.freeOutside i zs).arbiter.lowest = c.arbiter.lowest := by
  simp [freeOutside]

/-! ### recompute (R115) -/

/-- What a holdings recomputation does to each holder: a HALTED head keeps what it has, any other head
keeps its resident zones and those of its moves. -/
theorem holder_recompute : (c.recompute i).holder z =
    if (c.head i).activity.isHalted = false ∧ c.holder z = some i ∧
        (c.residentZones i ||| c.moveZones i).getLsbD z.val = false then none
    else c.holder z := by
  unfold recompute
  cases h : (c.head i).activity.isHalted <;> simp

/-- A recomputation of one head frees no zone of another. -/
theorem holder_recompute_of_ne {j : Slot} (e : j ≠ i) {z : Zone} :
    (c.recompute i).holder z = some j ↔ c.holder z = some j := by
  rw [holder_recompute]
  split
  · rename_i h
    simp only [h.2.1, Option.some.injEq, reduceCtorEq, false_iff]
    exact fun x => e x.symm
  · rfl

/-- A recomputation gives no zone. -/
theorem holder_recompute_of_some {j : Slot} {z : Zone} (h : (c.recompute i).holder z = some j) :
    c.holder z = some j := by
  rw [holder_recompute] at h
  split at h
  · cases h
  · exact h

/-- The zones of the active and of the held move stay with their head. -/
theorem holder_recompute_keeps (hz : (c.moveZones i).getLsbD z.val = true)
    (h : c.holder z = some i) : (c.recompute i).holder z = some i := by
  rw [holder_recompute]
  simp [h, hz]

@[simp] theorem port_recompute : (c.recompute i).port = c.port := by
  unfold recompute; split <;> simp

@[simp] theorem policy_recompute : (c.recompute i).policy = c.policy := by
  unfold recompute; split <;> simp

@[simp] theorem zonemap_recompute : (c.recompute i).zonemap = c.zonemap := by
  unfold recompute; split <;> simp

@[simp] theorem clock_recompute : (c.recompute i).clock = c.clock := by
  unfold recompute; split <;> simp

@[simp] theorem heads_recompute : (c.recompute i).heads = c.heads := by
  unfold recompute; split <;> simp

@[simp] theorem pair0_recompute : (c.recompute i).pair0 = c.pair0 := by
  unfold recompute; split <;> simp

@[simp] theorem pair1_recompute : (c.recompute i).pair1 = c.pair1 := by
  unfold recompute; split <;> simp

@[simp] theorem events_recompute : (c.recompute i).events = c.events := by
  unfold recompute; split <;> simp

@[simp] theorem work_recompute : (c.recompute i).work = c.work := by
  unfold recompute; split <;> simp

@[simp] theorem head_recompute : (c.recompute i).head j = c.head j := by
  unfold head; simp

@[simp] theorem mask_recompute : (c.recompute i).arbiter.mask = c.arbiter.mask := by
  unfold recompute; split <;> simp

@[simp] theorem lowest_recompute : (c.recompute i).arbiter.lowest = c.arbiter.lowest := by
  unfold recompute; split <;> simp

end Sys2Proof.Machine.Cm8
end

