-- ==== Sys2Proof/Laws/Pass.lean ====
section
/-! SUPPORT. What grant passes can do: one statement of all that a pass, its hand-overs and the passes that
follow from them may change, and that each of them changes no more (R119 to R125). -/

namespace Sys2Proof.Machine.Cm8

/-- All that a grant pass may change: waiting heads may start or be freed, and take or free zones; of the
work owed only setpoints of the tick are skipped; events may be posted. -/
structure PassFrame (c d : Cm8) : Prop where
  port : d.port = c.port
  policy : d.policy = c.policy
  zonemap : d.zonemap = c.zonemap
  clock : d.clock = c.clock
  pair0 : d.pair0 = c.pair0
  pair1 : d.pair1 = c.pair1
  mask : d.arbiter.mask = c.arbiter.mask
  head : ∀ i, d.head i = { c.head i with activity := (d.head i).activity }
  still : ∀ i, (c.head i).activity.waiting = none → (d.head i).activity = (c.head i).activity
  holder : ∀ i z, (c.head i).activity.waiting = none → (d.holder z = some i ↔ c.holder z = some i)
  work : d.work.Sublist c.work
  owed : ∀ w, (∀ i, w ≠ .motion i) → (w ∈ d.work ↔ w ∈ c.work)

namespace PassFrame

theorem refl (c : Cm8) : PassFrame c c where
  port := rfl
  policy := rfl
  zonemap := rfl
  clock := rfl
  pair0 := rfl
  pair1 := rfl
  mask := rfl
  head _ := rfl
  still _ _ := rfl
  holder _ _ _ := Iff.rfl
  work := List.Sublist.refl _
  owed _ _ := Iff.rfl

theorem trans {a b c : Cm8} (h : PassFrame a b) (k : PassFrame b c) : PassFrame a c where
  port := k.port.trans h.port
  policy := k.policy.trans h.policy
  zonemap := k.zonemap.trans h.zonemap
  clock := k.clock.trans h.clock
  pair0 := k.pair0.trans h.pair0
  pair1 := k.pair1.trans h.pair1
  mask := k.mask.trans h.mask
  head i := by rw [k.head i, h.head i]
  still i w := by rw [k.still i (by rw [h.still i w, w]), h.still i w]
  holder i z w := by rw [k.holder i z (by rw [h.still i w, w]), h.holder i z w]
  work := k.work.trans h.work
  owed w n := (k.owed w n).trans (h.owed w n)

/-- A fold of steps that are each within the frame is within it. -/
theorem foldl {α : Type} {f : Cm8 → α → Cm8} (step : ∀ c a, PassFrame c (f c a)) (l : List α)
    (c : Cm8) : PassFrame c (l.foldl f c) := by
  induction l generalizing c with
  | nil => exact refl c
  | cons a l ih => exact (step c a).trans (ih _)

/-- A head keeps everything but its activity. -/
theorem fields {c d : Cm8} (h : PassFrame c d) (i : Slot) :
    (d.head i).map = (c.head i).map ∧ (d.head i).axes = (c.head i).axes ∧
      (d.head i).setpoint = (c.head i).setpoint ∧ (d.head i).previous = (c.head i).previous ∧
      (d.head i).queue = (c.head i).queue ∧ (d.head i).link = (c.head i).link ∧
      (d.head i).track = (c.head i).track ∧ (d.head i).shots = (c.head i).shots ∧
      (d.head i).seq = (c.head i).seq ∧ (d.head i).tally = (c.head i).tally := by
  rw [h.head i]
  simp

/-- A head that does not wait keeps its whole record. -/
theorem head_eq {c d : Cm8} (h : PassFrame c d) {i : Slot}
    (w : (c.head i).activity.waiting = none) : d.head i = c.head i := by
  rw [h.head i, h.still i w]

/-- A head that does not wait keeps every zone of a set it holds. -/
theorem holdsAll {c d : Cm8} (h : PassFrame c d) {i : Slot} {zs : ZoneSet}
    (w : (c.head i).activity.waiting = none) (k : c.HoldsAll i zs) : d.HoldsAll i zs :=
  fun z hz => (h.holder i z w).2 (k z hz)

end PassFrame

variable (c : Cm8) (i : Slot)

theorem passFrame_post (s : Option Slot) (t : Option Byte) (e : Event) : PassFrame c (c.post s t e) where
  port := by simp
  policy := by simp
  zonemap := by simp
  clock := by simp
  pair0 := by simp
  pair1 := by simp
  mask := by simp
  head _ := by simp
  still _ _ := by simp
  holder _ _ _ := by simp
  work := by simp
  owed _ _ := by simp

/-- Any change of one waiting head's activity is within the frame. -/
theorem passFrame_setActivity (a : Activity) (w : (c.head i).activity.waiting ≠ none) :
    PassFrame c (c.setActivity i a) where
  port := rfl
  policy := rfl
  zonemap := rfl
  clock := rfl
  pair0 := rfl
  pair1 := rfl
  mask := rfl
  head j := by
    by_cases e : j = i
    · subst e; simp
    · simp [e]
  still j n := by
    by_cases e : j = i
    · subst e; exact absurd n w
    · simp [e]
  holder _ _ _ := by simp
  work := by simp
  owed _ _ := by simp

theorem passFrame_skipMotion : PassFrame c (c.skipMotion i) where
  port := rfl
  policy := rfl
  zonemap := rfl
  clock := rfl
  pair0 := rfl
  pair1 := rfl
  mask := rfl
  head _ := rfl
  still _ _ := rfl
  holder _ _ _ := Iff.rfl
  work := List.erase_sublist
  owed _ n := List.mem_erase_of_ne (n i)

/-- Recomputing the holdings of a head that waits in `c`, in a part within the frame of `c`. -/
theorem passFrame_recompute {c b : Cm8} {i : Slot} (h : PassFrame c b)
    (w : (c.head i).activity.waiting ≠ none) : PassFrame c (b.recompute i) where
  port := by simp [h.port]
  policy := by simp [h.policy]
  zonemap := by simp [h.zonemap]
  clock := by simp [h.clock]
  pair0 := by simp [h.pair0]
  pair1 := by simp [h.pair1]
  mask := by simp [h.mask]
  head j := by simpa using h.head j
  still j n := by simpa using h.still j n
  holder j z n := by
    have e : j ≠ i := fun x => w (x ▸ n)
    rw [holder_recompute_of_ne b i e, h.holder j z n]
  work := by simpa using h.work
  owed v n := by simpa using h.owed v n

/-- Giving free zones to a head that waits in `c`. -/
theorem passFrame_giveFree {c b : Cm8} {i : Slot} (zs : ZoneSet) (h : PassFrame c b)
    (w : (c.head i).activity.waiting ≠ none) : PassFrame c (b.giveFree i zs) where
  port := by simp [h.port]
  policy := by simp [h.policy]
  zonemap := by simp [h.zonemap]
  clock := by simp [h.clock]
  pair0 := by simp [h.pair0]
  pair1 := by simp [h.pair1]
  mask := by simp [h.mask]
  head j := by simpa using h.head j
  still j n := by simpa using h.still j n
  holder j z n := by
    have e : i ≠ j := fun x => w (x ▸ n)
    rw [holder_giveFree]
    split
    · rename_i k
      rw [← h.holder j z n, k.2]
      simp [e]
    · exact h.holder j z n
  work := by simpa using h.work
  owed v n := by simpa using h.owed v n

theorem passFrame_dropMove (m : Move) (why : DropReason) : PassFrame c (c.dropMove i m why) := by
  unfold dropMove
  split
  · exact .refl c
  · exact passFrame_post ..

@[simp] theorem head_dropMove (j : Slot) (m : Move) (why : DropReason) :
    (c.dropMove i m why).head j = c.head j := by
  unfold dropMove
  split <;> simp

/-- A waiting head is freed. -/
theorem passFrame_toFree (w : (c.head i).activity.waiting ≠ none) : PassFrame c (c.toFree i) :=
  passFrame_setActivity c i _ w

/-- The start of the move of a waiting head is within the frame. -/
theorem passFrame_startMove {b : Cm8} (h : PassFrame c b) (m : Move) (cue : Option (BitVec 32))
    (w : (c.head i).activity.waiting ≠ none) (v : (b.head i).activity.waiting ≠ none) :
    PassFrame c (b.startMove i m cue) := by
  unfold startMove postStarted
  refine passFrame_recompute ?_ w
  refine (h.trans ?_).trans (passFrame_post ..)
  exact (passFrame_skipMotion b i).trans (passFrame_setActivity _ i _ (by simpa using v))

/-- The hand-over of one grant (R125). -/
theorem passFrame_handGrant : PassFrame c (c.handGrant i) := by
  unfold handGrant
  split
  · exact .refl c
  · rename_i w hw
    have wait : (c.head i).activity.waiting ≠ none := by
      simp only [waitingOf] at hw
      simp [hw]
    dsimp only
    split
    · exact passFrame_startMove c i (passFrame_post ..) _ _ wait (by simpa using wait)
    · refine passFrame_recompute ?_ wait
      exact ((passFrame_post ..).trans (passFrame_dropMove _ i w.move .onAir)).trans
        (passFrame_toFree _ i (by simpa using wait))

theorem passFrame_handOver (s : Cm8) (j : Slot) : PassFrame s (handOver none s j) := by
  simpa [handOver] using passFrame_handGrant s j

/-- A judgement changes holders alone, and those only of a head that waits (R124). -/
theorem judge_keeps (a : Cm8 × ZoneSet × List Slot) (h : PassFrame c a.1) :
    PassFrame c (judge a i).1 := by
  unfold judge
  dsimp only
  split
  · exact h
  · rename_i w hw
    have wait : (a.1.head i).activity.waiting ≠ none := by
      simp only [waitingOf] at hw
      simp [hw]
    split
    · refine passFrame_giveFree _ h fun n => wait ?_
      rw [h.still i n, n]
    · exact h

/-- A pass, up to the hand-overs, changes holders, and the lowest-priority slot in ROTATE mode (R122 to
R125). -/
theorem passFrame_judgePass : PassFrame c c.judgePass.1 := by
  have fold : ∀ (l : List Slot) (b : Cm8) (a : Cm8 × ZoneSet × List Slot), PassFrame b a.1 →
      PassFrame b (l.foldl judge a).1 := by
    intro l
    induction l with
    | nil => exact fun _ _ h => h
    | cons j l ih => exact fun b a h => ih b _ (judge_keeps b j a h)
  have lowered (b : Cm8) (j : Slot) (r : Bool) (h : PassFrame c b) : PassFrame c
      { b with arbiter := { b.arbiter with lowest := j, released := r } } :=
    ⟨h.port, h.policy, h.zonemap, h.clock, h.pair0, h.pair1, h.mask, h.head, h.still, h.holder,
      h.work, h.owed⟩
  have start := lowered c c.arbiter.lowest false (.refl c)
  have judged := start.trans
    (fold (candidates { c with arbiter := { c.arbiter with released := false } }) _ (_, 0#16, []) (.refl _))
  unfold judgePass
  simp only
  split
  · exact lowered _ _ _ judged
  · exact judged

theorem passFrame_settleN (n : Nat) : PassFrame c (settleN n c) := by
  induction n generalizing c with
  | zero => exact .refl c
  | succ n ih =>
    unfold settleN
    split
    · exact ((passFrame_judgePass c).trans (PassFrame.foldl passFrame_handOver _ _)).trans (ih _)
    · exact .refl c

/-- The passes that releases owe (R122). -/
theorem passFrame_settle : PassFrame c c.settle := passFrame_settleN c 9

/-- A grant pass with its hand-over and the passes that follow (R122 to R125). -/
theorem passFrame_grantPass : PassFrame c c.grantPass :=
  ((passFrame_judgePass c).trans (PassFrame.foldl passFrame_handOver _ _)).trans (passFrame_settle _)

end Sys2Proof.Machine.Cm8
end

