-- ==== Sys2Proof/Laws/Commands.lean ====
section
/-! SUPPORT. How the rows are taken: work that is not owed, the one reply of a command, and the rows that are
events inside a tick (R178 to R180; log entry 1). -/

namespace Sys2Proof.Machine

namespace Cm8

variable (c : Cm8)

/-- With no work owed there is nothing to finish. -/
theorem finish_of_nil (h : c.work = []) : c.finish = c := by
  simp [finish, h, weight, finishN]

theorem advance_of_nil (h : c.work = []) : c.advance = c := by
  simp [advance, h, weight, advanceN]

theorem closePass_of_nil (h : c.work = []) : c.closePass = c := by
  simp [closePass, h, weight, closePassN]

theorem weight_pos (w : Work) (ws : List Work) : ∃ n, weight (w :: ws) = n + 1 := by
  cases w <;> simp only [weight] <;> exact ⟨_, Nat.add_comm ..⟩

/-- Work that is neither a hand-over nor the settling of a pass is no part of a pass in progress. -/
theorem closePass_of_front (w : Work) (ws : List Work) (h : c.work = w :: ws)
    (n : w ≠ .settle) (k : w.isHandover = false) : c.closePass = c := by
  obtain ⟨m, hm⟩ := weight_pos w ws
  unfold closePass
  rw [h, hm, closePassN, h]
  cases w <;> first | rfl | simp_all [Work.isHandover]

/-- A row for the first piece of work, when it is that event: it is done, and then what comes before the
next event. -/
theorem takeEvent_front (w : Work) (ws : List Work) (isDue : Cm8 → Bool) (h : c.work = w :: ws)
    (n : w ≠ .settle) (k : w.isHandover = false) (d : isDue c = true) :
    c.takeEvent w isDue = ({ c with work := ws }.runWork w).advance.chooseIdle := by
  unfold takeEvent
  simp [c.closePass_of_front w ws h n k, h, d, takeWork]

/-- A row that is not that event, or for work that is not owed, changes nothing (log entry 9). -/
theorem takeEvent_idle (w : Work) (isDue : Cm8 → Bool) (h : c.work = []) :
    c.takeEvent w isDue = c := by
  simp [takeEvent, c.closePass_of_nil h, h]

end Cm8

/-- A row from outside on a part that owes no work. -/
theorem State.row_of_nil (s : State) (f : Cm8 → Cm8) (h : s.part.work = []) :
    s.row f = { s with part := (f s.part).chooseIdle } := by
  simp [State.row, State.onPart, s.part.finish_of_nil h]

/-- The idle arbiter after a reply has been queued. -/
theorem Cm8.chooseIdle_reply (c : Cm8) (r : Reply) :
    ({ c with port := { c.port with replies := c.port.replies ++ [r] } } : Cm8).chooseIdle =
      c.withReply r := by
  cases hs : c.port.sending with
  | some u => simp [Cm8.chooseIdle, Cm8.withReply, hs]
  | none =>
    cases hr : c.port.replies with
    | nil => simp [Cm8.chooseIdle, Cm8.withReply, Cm8.choose, hs, hr]
    | cons x xs => simp [Cm8.chooseIdle, Cm8.withReply, Cm8.choose, hs, hr]

/-- A command that finds the part ready is carried out and leaves exactly one reply (R178, R179). -/
theorem State.command_ready (s : State) (k : CommandKind) (tag : Byte) (body : List Byte)
    (run : Cm8 → Cm8 × Answer) (h : s.part.Ready) :
    s.command k tag body run = s.answered (run s.part).1 k.code tag (run s.part).2 := by
  have e : s.part.canAnswer = true := by
    exact decide_eq_true h.replies
  simp only [State.command, State.onPart, s.part.finish_of_nil h.work, Cm8.offer, h.buffer, e,
    List.isEmpty_nil, Bool.and_self, if_true, Cm8.answer, State.answered]
  rw [Cm8.chooseIdle_reply]

/-- With a full reply queue a command waits in the receive buffer (R177, R178). -/
theorem Cm8.offer_full (c : Cm8) (kind tag : Byte) (body : List Byte) (run : Cm8 → Cm8 × Answer)
    (h : 4 ≤ c.port.replies.length) (b : c.port.buffer.length < 4) :
    c.offer kind tag body run =
      { c with port := { c.port with buffer := c.port.buffer ++ [⟨kind, tag, body⟩] } } := by
  have e : c.canAnswer = false := decide_eq_false (Nat.not_lt.2 h)
  simp [Cm8.offer, e, Config.receiveBufferMax, b]

/-- A refused command leaves the part as it was, and an accepted one what its effect made (R179). -/
theorem Verdict.settle_error (c : Cm8) (why : Reason) :
    Verdict.settle c (.error why) = (c, .refused why) := rfl

theorem Verdict.settle_ok (c d : Cm8) (data : List Byte) :
    Verdict.settle c (.ok (d, data)) = (d, .accepted data) := rfl

/-- A command is found by its kind byte, and by no other (R194). -/
theorem CommandKind.ofCode_code (k : CommandKind) : CommandKind.ofCode k.code = some k := by
  cases k <;> decide

end Sys2Proof.Machine
end

