-- ==== Sys2Proof/Laws/Reception.lean ====
section
/-! SUPPORT. What the receivers do: the updates they make, and that a run of characters from a marker on
gives its frame with the last character and not before (R144, R176). -/

namespace Sys2Proof

namespace FrameFormat

variable (f : FrameFormat)

@[simp] theorem hear_marker : f.hear none (some f.marker) = (some [], .nothing) := by
  simp [hear, extend]

/-- Between frames a character other than the marker is passed over. -/
@[simp] theorem hear_other (b : Byte) (h : b ≠ f.marker) : f.hear none (some b) = (none, .nothing) := by
  simp [hear, h]

/-- Between frames a character with a character error is passed over. -/
@[simp] theorem hear_error_between : f.hear none none = (none, .nothing) := rfl

/-- A character error discards the frame in progress. -/
@[simp] theorem hear_error_within (cs : List Byte) : f.hear (some cs) none = (none, .badCharacter) := rfl

/-- A length that the format does not admit discards the frame as it arrives. -/
theorem hear_badLength (len : Byte) (h : len.toNat < f.least ∨ f.greatest < len.toNat) :
    f.hear (some []) (some len) = (none, .badLength) := by
  simp [hear, extend, h]

/-- A frame that still lacks characters after this one takes it, the marker too. -/
theorem hear_more (len b : Byte) (rest : List Byte) (h : f.least ≤ len.toNat)
    (k : len.toNat ≤ f.greatest) (n : rest.length + 1 < len.toNat + 2) :
    f.hear (some (len :: rest)) (some b) = (some (len :: (rest ++ [b])), .nothing) := by
  simp [hear, extend, Nat.not_lt.2 h, Nat.not_lt.2 k, n]

/-- The last character of a frame completes it. -/
theorem hear_last (len b : Byte) (rest : List Byte) (h : f.least ≤ len.toNat)
    (k : len.toNat ≤ f.greatest) (n : rest.length + 1 = len.toNat + 2) :
    f.hear (some (len :: rest)) (some b) = (none, .frame (f.marker :: len :: (rest ++ [b]))) := by
  simp [hear, extend, Nat.not_lt.2 h, Nat.not_lt.2 k, n]

end FrameFormat

namespace Machine.Cm8

variable (c : Cm8) (taken : Option (List Byte)) (st : StoreId) (i : Slot)

@[simp] theorem incoming_hearPort : (c.hearPort taken).port.incoming = taken := rfl

@[simp] theorem hearPort_self : c.hearPort c.port.incoming = c := rfl

@[simp] theorem hearPort_hearPort (t : Option (List Byte)) :
    (c.hearPort taken).hearPort t = c.hearPort t := rfl

@[simp] theorem head_hearPort : (c.hearPort taken).head i = c.head i := rfl

@[simp] theorem store_hearPort : (c.hearPort taken).store st = c.store st := rfl

@[simp] theorem work_hearPort : (c.hearPort taken).work = c.work := rfl

@[simp] theorem events_hearPort : (c.hearPort taken).events = c.events := rfl

@[simp] theorem clock_hearPort : (c.hearPort taken).clock = c.clock := rfl

@[simp] theorem incoming_hearLine : ((c.hearLine st taken).store st).incoming = taken := by
  simp [hearLine]

@[simp] theorem head_hearLine : (c.hearLine st taken).head i = c.head i := by simp [hearLine]

@[simp] theorem port_hearLine : (c.hearLine st taken).port = c.port := by simp [hearLine]

@[simp] theorem work_hearLine : (c.hearLine st taken).work = c.work := by simp [hearLine]

@[simp] theorem events_hearLine : (c.hearLine st taken).events = c.events := by simp [hearLine]

@[simp] theorem clock_hearLine : (c.hearLine st taken).clock = c.clock := by simp [hearLine]

@[simp] theorem receives_hearLine (t : StoreId) :
    (c.hearLine st taken).receives t = c.receives t := by
  have w : ∀ p, (c.hearLine st taken).wireMode p = c.wireMode p := fun p => by
    simp [wireMode, hearLine, onStore]
  have o : ((c.hearLine st taken).store t).outgoing = (c.store t).outgoing := by
    by_cases e : t = st
    · subst e; simp [hearLine]
    · simp [hearLine, e]
  simp [receives, w, o]

end Machine.Cm8

end Sys2Proof
end

