-- ==== Sys2Proof/Laws/Work.lean ====
section
/-! SUPPORT. What the work of a tick leaves alone: time, the port, the policy, the zone map, the mask and,
of every head, its head map, shots, forward entry, follow count and tally (log entry 1). -/

namespace Sys2Proof.Machine

/-- What the work of a tick leaves alone in a head's record. -/
structure Head.WorkKeeps (h k : Head) : Prop where
  map : k.map = h.map
  shots : k.shots = h.shots
  forward : k.forward = h.forward
  followCount : k.followCount = h.followCount
  tally : k.tally = h.tally
  tallyChanged : k.tallyChanged = h.tallyChanged
  interval : k.track.interval = h.track.interval

theorem Head.WorkKeeps.trans {a b c : Head} (h : a.WorkKeeps b) (k : b.WorkKeeps c) : a.WorkKeeps c where
  map := k.map.trans h.map
  shots := k.shots.trans h.shots
  forward := k.forward.trans h.forward
  followCount := k.followCount.trans h.followCount
  tally := k.tally.trans h.tally
  tallyChanged := k.tallyChanged.trans h.tallyChanged
  interval := k.interval.trans h.interval

namespace Cm8

/-- What the work of a tick leaves alone in the part. -/
structure WorkFrame (c d : Cm8) : Prop where
  clock : d.clock = c.clock
  port : d.port = c.port
  policy : d.policy = c.policy
  zonemap : d.zonemap = c.zonemap
  mask : d.arbiter.mask = c.arbiter.mask
  head : ∀ i, (c.head i).WorkKeeps (d.head i)

namespace WorkFrame

theorem refl (c : Cm8) : WorkFrame c c :=
  ⟨rfl, rfl, rfl, rfl, rfl, fun _ => ⟨rfl, rfl, rfl, rfl, rfl, rfl, rfl⟩⟩

theorem trans {a b c : Cm8} (h : WorkFrame a b) (k : WorkFrame b c) : WorkFrame a c where
  clock := k.clock.trans h.clock
  port := k.port.trans h.port
  policy := k.policy.trans h.policy
  zonemap := k.zonemap.trans h.zonemap
  mask := k.mask.trans h.mask
  head i := (h.head i).trans (k.head i)

theorem foldl {α : Type} {f : Cm8 → α → Cm8} (step : ∀ c a, WorkFrame c (f c a)) (l : List α)
    (c : Cm8) : WorkFrame c (l.foldl f c) := by
  induction l generalizing c with
  | nil => exact refl c
  | cons a l ih => exact (step c a).trans (ih _)

end WorkFrame

variable (c : Cm8) (i : Slot)

/-- A part with the same heads, time, port, policy, zone map and mask. -/
theorem workFrame_of_eq {d : Cm8} (clock : d.clock = c.clock) (port : d.port = c.port)
    (policy : d.policy = c.policy) (zonemap : d.zonemap = c.zonemap)
    (mask : d.arbiter.mask = c.arbiter.mask) (head : ∀ i, d.head i = c.head i) : WorkFrame c d :=
  ⟨clock, port, policy, zonemap, mask, fun i => by
    rw [head i]
    exact ⟨rfl, rfl, rfl, rfl, rfl, rfl, rfl⟩⟩

theorem PassFrame.workFrame {c d : Cm8} (h : PassFrame c d) : WorkFrame c d :=
  ⟨h.clock, h.port, h.policy, h.zonemap, h.mask, fun i => by
    rw [h.head i]
    exact ⟨rfl, rfl, rfl, rfl, rfl, rfl, rfl⟩⟩

theorem workFrame_post (s : Option Slot) (t : Option Byte) (e : Event) : WorkFrame c (c.post s t e) :=
  (passFrame_post c s t e).workFrame

theorem workFrame_onHead (f : Head → Head) (h : (c.head i).WorkKeeps (f (c.head i))) :
    WorkFrame c (c.onHead i f) where
  clock := rfl
  port := rfl
  policy := rfl
  zonemap := rfl
  mask := rfl
  head j := by
    rw [head_onHead]
    split
    · rename_i e
      rw [e]
      exact h
    · exact ⟨rfl, rfl, rfl, rfl, rfl, rfl, rfl⟩

theorem workFrame_setActivity (a : Activity) : WorkFrame c (c.setActivity i a) :=
  workFrame_onHead c i _ ⟨rfl, rfl, rfl, rfl, rfl, rfl, rfl⟩

theorem workFrame_setQueue (q : List QueueEntry) : WorkFrame c (c.setQueue i q) :=
  workFrame_onHead c i _ ⟨rfl, rfl, rfl, rfl, rfl, rfl, rfl⟩

theorem workFrame_toFree : WorkFrame c (c.toFree i) :=
  workFrame_onHead c i _ ⟨rfl, rfl, rfl, rfl, rfl, rfl, rfl⟩

theorem workFrame_refresh : WorkFrame c (c.refresh i) := by
  unfold refresh
  split
  · exact workFrame_toFree c i
  · exact .refl c

theorem workFrame_giveFree (zs : ZoneSet) : WorkFrame c (c.giveFree i zs) :=
  workFrame_of_eq c (by simp) (by simp) (by simp) (by simp) (by simp) (by simp)

theorem workFrame_freeOutside (zs : ZoneSet) : WorkFrame c (c.freeOutside i zs) :=
  workFrame_of_eq c (by simp) (by simp) (by simp) (by simp) (by simp) (by simp)

theorem workFrame_recompute : WorkFrame c (c.recompute i) :=
  workFrame_of_eq c (by simp) (by simp) (by simp) (by simp) (by simp) (by simp)

theorem workFrame_settle : WorkFrame c c.settle := (passFrame_settle c).workFrame

theorem workFrame_judgePass : WorkFrame c c.judgePass.1 := (passFrame_judgePass c).workFrame

theorem workFrame_skipQueue : WorkFrame c (c.skipQueue i) :=
  workFrame_of_eq c rfl rfl rfl rfl rfl fun _ => rfl

theorem workFrame_skipMotion : WorkFrame c (c.skipMotion i) :=
  workFrame_of_eq c rfl rfl rfl rfl rfl fun _ => rfl

theorem workFrame_onStore (st : StoreId) (f : LineStore → LineStore) : WorkFrame c (c.onStore st f) :=
  workFrame_of_eq c (by simp) (by simp) (by simp) (by simp) (by simp) (by simp)

/-- An increment of a line counter. -/
theorem workFrame_bump (st : StoreId) (k : LineCounter) : WorkFrame c (c.bump (.line st k)) := by
  have h (v : BitVec 16) : WorkFrame c (c.setCounter (.line st k) v) :=
    workFrame_onStore c st fun s => { s with counters := s.counters.set k v }
  unfold bump
  dsimp only
  split
  · split
    · exact h _
    · exact .refl c
  · split
    · exact (h _).trans (workFrame_post ..)
    · split
      · exact (h _).trans (workFrame_post ..)
      · exact h _

theorem workFrame_bumps (st : StoreId) (k : LineCounter) (n : Nat) :
    WorkFrame c (c.bumps (.line st k) n) := by
  induction n generalizing c with
  | zero => exact .refl c
  | succ n ih => exact (workFrame_bump c st k).trans (ih _)

/-! ### Motion -/

theorem workFrame_dropMove (m : Move) (why : DropReason) : WorkFrame c (c.dropMove i m why) :=
  (passFrame_dropMove c i m why).workFrame

theorem workFrame_dropHeld? (x : Option Held) (why : DropReason) :
    WorkFrame c (c.dropHeld? i x why) := by
  cases x
  · exact .refl c
  · exact workFrame_post ..

theorem workFrame_makeActive (m : Move) : WorkFrame c (c.makeActive i m) :=
  (workFrame_skipMotion c i).trans (workFrame_setActivity ..)

theorem workFrame_startMove (m : Move) (cue : Option (BitVec 32)) :
    WorkFrame c (c.startMove i m cue) :=
  ((workFrame_makeActive c i _).trans (workFrame_post ..)).trans (workFrame_recompute ..)

theorem workFrame_handGrant : WorkFrame c (c.handGrant i) := (passFrame_handGrant c i).workFrame

theorem workFrame_handOver (r : Option Slot) : WorkFrame c (handOver r c i) := by
  unfold handOver
  split
  · unfold answerRequest
    split
    · exact .refl c
    · exact workFrame_startMove ..
  · exact workFrame_handGrant c i

theorem workFrame_beginWait (w : Waiting) : WorkFrame c (c.beginWait i w) :=
  (workFrame_post ..).trans (workFrame_recompute ..)

theorem workFrame_request (p : Planned) (cue : Option (BitVec 32)) (back : QueueEntry) :
    WorkFrame c (c.request i p cue back) := by
  unfold request
  dsimp only
  split
  · exact (workFrame_startMove ..).trans (workFrame_settle _)
  · refine WorkFrame.trans ?_ (workFrame_settle _)
    have h (a : Activity) (l : List Slot) :
        WorkFrame c (l.foldl (handOver (some i)) (c.setActivity i a).judgePass.1) :=
      ((workFrame_setActivity c i a).trans (workFrame_judgePass _)).trans
        (WorkFrame.foldl (fun c j => workFrame_handOver c j (some i)) _ _)
    split
    · exact h _ _
    · exact (h _ _).trans (workFrame_beginWait ..)

theorem workFrame_handOverUntold (r : Slot) (m : Move) : WorkFrame c (handOverUntold r m c i) := by
  unfold handOverUntold
  split
  · exact (workFrame_makeActive ..).trans (workFrame_recompute ..)
  · exact workFrame_handGrant c i

theorem workFrame_waitTold (w : Waiting) : WorkFrame c (c.waitTold i w) := by
  unfold waitTold
  dsimp only
  split
  · exact ((workFrame_recompute c i).trans (workFrame_settle _)).trans (workFrame_post ..)
  · exact (workFrame_beginWait c i w).trans (workFrame_settle _)

/-- The request of a REPLACE (R55). -/
theorem workFrame_requestTold (p : Planned) (back : QueueEntry) :
    WorkFrame c (c.requestTold i p back) := by
  unfold requestTold
  dsimp only
  split
  · exact (((workFrame_makeActive c i _).trans (workFrame_recompute ..)).trans
      (workFrame_settle _)).trans (workFrame_post ..)
  · have h (a : Activity) (m : Move) (l : List Slot) :
        WorkFrame c (l.foldl (handOverUntold i m) (c.setActivity i a).judgePass.1) :=
      ((workFrame_setActivity c i a).trans (workFrame_judgePass _)).trans
        (WorkFrame.foldl (fun c j => workFrame_handOverUntold c j i m) _ _)
    split
    · exact ((h _ _ _).trans (workFrame_settle _)).trans (workFrame_post ..)
    · exact (h _ _ _).trans (workFrame_waitTold ..)

theorem workFrame_restFree : WorkFrame c (c.restFree i) :=
  ((workFrame_toFree c i).trans (workFrame_recompute ..)).trans (workFrame_settle _)

theorem workFrame_resume (x : Held) : WorkFrame c (c.resume i x) := by
  unfold resume
  split
  · exact (workFrame_post ..).trans (workFrame_restFree ..)
  · dsimp only
    exact ((workFrame_onHead c i _ ⟨rfl, rfl, rfl, rfl, rfl, rfl, rfl⟩).trans
      (workFrame_post ..)).trans (workFrame_request ..)

theorem workFrame_complete (m : Move) (held : Option Held) : WorkFrame c (c.complete i m held) := by
  have h : WorkFrame c (if m.cls = .stop then c else c.post (some i) m.tag (.moveDone m.source)) := by
    split
    · exact .refl c
    · exact workFrame_post ..
  unfold complete
  dsimp only
  cases held
  · exact h.trans (workFrame_restFree ..)
  · exact h.trans (workFrame_resume ..)

theorem workFrame_moveTick (m : Move) (held : Option Held) : WorkFrame c (c.moveTick i m held) := by
  have h : WorkFrame c (c.onHead i fun h =>
      { h.evaluate { m with k := m.k + 1 } with
        activity := .moving { m with k := m.k + 1 } held }) :=
    workFrame_onHead c i _ ⟨rfl, rfl, rfl, rfl, rfl, rfl, rfl⟩
  unfold moveTick
  dsimp only
  split
  · exact (h.trans (workFrame_skipQueue ..)).trans (workFrame_complete ..)
  · exact h

theorem workFrame_jogTravel (p q : Int) (n : Nat) : WorkFrame c (jogTravel i p q n c).1 := by
  induction n generalizing c with
  | zero => exact .refl c
  | succ n ih =>
    unfold jogTravel
    split
    · exact .refl c
    · split
      · exact (workFrame_giveFree ..).trans (ih _)
      · exact .refl c

theorem workFrame_jogClaim (p q : Int) : WorkFrame c (c.jogClaim i p q).1 := by
  unfold jogClaim
  split
  · exact workFrame_jogTravel ..
  · exact .refl c

theorem workFrame_jogStep (j : Jog) : WorkFrame c (c.jogStep i j).1 := by
  unfold jogStep
  dsimp only
  refine WorkFrame.trans ?_ (workFrame_onHead _ i _ ⟨rfl, rfl, rfl, rfl, rfl, rfl, rfl⟩)
  exact workFrame_jogClaim ..

theorem workFrame_jogTick (j : Jog) : WorkFrame c (c.jogTick i j) := by
  unfold jogTick
  dsimp only
  split
  · exact (((workFrame_jogStep c i _).trans (workFrame_toFree ..)).trans
      (workFrame_recompute ..)).trans (workFrame_settle _)
  · exact (workFrame_jogStep c i _).trans (workFrame_setActivity ..)

theorem workFrame_motionStep : WorkFrame c (c.motionStep i) := by
  unfold motionStep
  split
  · exact workFrame_moveTick ..
  · exact (workFrame_skipQueue c i).trans (workFrame_jogTick ..)
  · exact .refl c

/-! ### The queue, softening and the wait timer -/

theorem workFrame_takeEntry : WorkFrame c (c.takeEntry i) :=
  workFrame_onHead c i _ ⟨rfl, rfl, rfl, rfl, rfl, rfl, rfl⟩

theorem workFrame_takeOver (m : Move) (held : Option Held) : WorkFrame c (c.takeOver i m held) :=
  (((workFrame_giveFree c i _).trans (workFrame_setActivity ..)).trans
    (workFrame_recompute ..)).trans (workFrame_settle _)

theorem workFrame_overrideWith (m : Move) : WorkFrame c (c.overrideWith i m) := by
  unfold overrideWith postStarted
  refine (WorkFrame.trans ?_ (workFrame_takeOver ..)).trans (workFrame_post ..)
  unfold dropDisplaced
  split
  · exact (workFrame_dropMove ..).trans (workFrame_dropHeld? ..)
  · exact workFrame_dropMove ..
  · exact .refl c

theorem workFrame_queueStep : WorkFrame c (c.queueStep i) := by
  unfold queueStep
  split
  · exact .refl c
  · rename_i e _
    split
    · unfold startEntry
      dsimp only
      split
      · exact ((workFrame_takeEntry c i).trans (workFrame_post ..)).trans (workFrame_toFree ..)
      · exact (workFrame_takeEntry c i).trans (workFrame_request ..)
    · unfold cuedReplace
      dsimp only
      split
      · exact ((workFrame_takeEntry c i).trans (workFrame_post ..)).trans (workFrame_refresh ..)
      · split
        · exact (workFrame_takeEntry c i).trans (workFrame_overrideWith ..)
        · exact ((workFrame_takeEntry c i).trans (workFrame_post ..)).trans (workFrame_refresh ..)

theorem workFrame_softenFails (m : Move) (held : Option Held) (why : DropReason) :
    WorkFrame c (c.softenFails i m held why) :=
  ((workFrame_dropMove c i m why).trans (workFrame_dropHeld? ..)).trans (workFrame_takeOver ..)

theorem workFrame_softenStep : WorkFrame c (c.softenStep i) := by
  unfold softenStep
  split
  · split
    · split
      · exact workFrame_softenFails ..
      · split
        · exact (workFrame_takeOver ..).trans (workFrame_post ..)
        · exact workFrame_softenFails ..
    · exact .refl c
  · exact .refl c

theorem workFrame_timerStep : WorkFrame c (c.timerStep i) := by
  unfold timerStep
  split
  · exact .refl c
  · split
    · exact workFrame_setActivity ..
    · split
      · exact (workFrame_dropMove ..).trans (workFrame_restFree ..)
      · exact workFrame_setActivity ..

/-! ### Halts, links and schedules -/

theorem workFrame_flush : WorkFrame c (c.flush i) :=
  (WorkFrame.foldl (fun c _ => workFrame_post c ..) _ _).trans (workFrame_setQueue ..)

theorem workFrame_dropRecords (a : Activity) : WorkFrame c (c.dropRecords i a) := by
  unfold dropRecords
  split
  · exact (workFrame_dropMove ..).trans (workFrame_dropHeld? ..)
  · exact workFrame_dropMove ..
  · exact .refl c

theorem workFrame_enterHalted (cause : HaltCause) : WorkFrame c (c.enterHalted i cause) :=
  (((workFrame_setActivity c i (.halted cause)).trans
    (workFrame_dropRecords _ i (c.head i).activity)).trans (workFrame_flush ..)).trans
      (workFrame_post ..)

theorem workFrame_haltRequest (cause : HaltCause) : WorkFrame c (c.haltRequest i cause) := by
  unfold haltRequest
  split
  · split
    · exact workFrame_enterHalted ..
    · exact .refl c
  · exact .refl c
  · exact workFrame_enterHalted ..

theorem workFrame_pageStep : WorkFrame c (c.pageStep i) := by
  unfold pageStep
  split
  · exact .refl c
  · split <;> exact workFrame_onHead c i _ ⟨rfl, rfl, rfl, rfl, rfl, rfl, rfl⟩

theorem workFrame_lossStep : WorkFrame c (c.lossStep i) := by
  unfold lossStep
  split
  · unfold loseLink
    exact ((workFrame_haltRequest c i _).trans
      (workFrame_onHead _ i _ ⟨rfl, rfl, rfl, rfl, rfl, rfl, rfl⟩)).trans (workFrame_post ..)
  · split
    · exact workFrame_onHead c i _ ⟨rfl, rfl, rfl, rfl, rfl, rfl, rfl⟩
    · exact .refl c

theorem workFrame_linkHalts (mask : AxisMask) : WorkFrame c (c.linkHalts i mask) := by
  have h : WorkFrame c (if lacksAxis (c.head i) mask then c.haltRequest i .mismatch else c) := by
    split
    · exact workFrame_haltRequest ..
    · exact .refl c
  unfold linkHalts
  dsimp only
  split
  · exact workFrame_setActivity ..
  · split
    · exact h.trans (workFrame_haltRequest ..)
    · exact h

theorem workFrame_enterLinked : WorkFrame c (c.enterLinked i) := by
  unfold enterLinked
  dsimp only
  have h := (workFrame_onHead c i (fun _ => linkHead (c.head i) ((c.head i).link.headMask.getD 0#6))
    ⟨rfl, rfl, rfl, rfl, rfl, rfl, rfl⟩).trans
      (workFrame_post _ (some i) none (.headLinked ((c.head i).link.headMask.getD 0#6)))
  refine WorkFrame.trans ?_ (workFrame_linkHalts ..)
  split
  · exact h
  · exact h.trans (workFrame_post ..)

theorem workFrame_enrolPlaced : WorkFrame c (c.enrolPlaced i) := by
  unfold enrolPlaced
  dsimp only
  split
  · split
    · exact workFrame_enterLinked ..
    · exact workFrame_onHead c i _ ⟨rfl, rfl, rfl, rfl, rfl, rfl, rfl⟩
  · exact .refl c

theorem workFrame_placeEnrol (st : StoreId) (room : Int) : WorkFrame c (c.placeEnrol st room).1 := by
  unfold placeEnrol
  split
  · exact .refl c
  · split
    · exact .refl c
    · split
      · exact ((workFrame_onStore ..).trans (workFrame_onStore ..)).trans (workFrame_enrolPlaced ..)
      · exact .refl c

theorem workFrame_placeSetpoints (st : StoreId) : WorkFrame c (c.placeSetpoints st) :=
  WorkFrame.foldl (fun c j => (workFrame_onStore c st _).trans
    (workFrame_onHead _ j _ ⟨rfl, rfl, rfl, rfl, rfl, rfl, rfl⟩)) _ _

theorem workFrame_placePass (st : StoreId) (room : Int) : WorkFrame c (c.placePass st room) :=
  ((workFrame_onStore c st _).trans (workFrame_onStore ..)).trans (workFrame_bumps ..)

theorem workFrame_cutReception (before : LineStore) (st : StoreId) (receiving relined : Bool) :
    WorkFrame c (cutReception before c st receiving relined) := by
  unfold cutReception
  split
  · exact (workFrame_onStore c st _).trans (workFrame_bump ..)
  · exact .refl c

theorem workFrame_formSchedule (st : StoreId) (sent : Nat) (receiving relined : Bool) :
    WorkFrame c (c.formSchedule st sent receiving relined) :=
  (((workFrame_placeSetpoints c st).trans (workFrame_placeEnrol ..)).trans
    (workFrame_placePass ..)).trans (workFrame_cutReception ..)

theorem workFrame_work (ws : List Work) : WorkFrame c { c with work := ws } :=
  workFrame_of_eq c rfl rfl rfl rfl rfl fun _ => rfl

/-! ### All work -/

/-- Every piece of a tick's work stays within the frame. -/
theorem workFrame_runWork (w : Work) : WorkFrame c (c.runWork w) := by
  cases w with
  | motion i => exact workFrame_motionStep c i
  | queue i => exact workFrame_queueStep c i
  | soften i => exact workFrame_softenStep c i
  | timer i => exact workFrame_timerStep c i
  | pass => exact (workFrame_judgePass c).trans (workFrame_work _ _)
  | handover i => exact workFrame_handGrant c i
  | settle => exact workFrame_settle c
  | page i => exact workFrame_pageStep c i
  | link i => exact workFrame_lossStep c i
  | schedule st sent receiving relined => exact workFrame_formSchedule ..
  | announce e => exact workFrame_post ..

theorem workFrame_runFront : WorkFrame c c.runFront := by
  unfold runFront
  split
  · exact .refl c
  · exact (workFrame_work c _).trans (workFrame_runWork _ _)

theorem workFrame_advance : WorkFrame c c.advance := by
  have h (n : Nat) : ∀ c : Cm8, WorkFrame c (advanceN n c) := by
    induction n with
    | zero => exact WorkFrame.refl
    | succ n ih =>
      intro c
      unfold advanceN
      split
      · exact .refl c
      · split
        · exact .refl c
        · exact (workFrame_runFront c).trans (ih _)
  exact h _ c

/-! ### Finishing what is owed, with the choices of an idle arbiter -/

/-- What finishing the work of a tick leaves alone: as `WorkFrame`, but an idle port may begin to send. -/
structure FinishFrame (c d : Cm8) : Prop where
  clock : d.clock = c.clock
  policy : d.policy = c.policy
  zonemap : d.zonemap = c.zonemap
  mask : d.arbiter.mask = c.arbiter.mask
  settings : d.port.settings = c.port.settings
  incoming : d.port.incoming = c.port.incoming
  buffer : d.port.buffer = c.port.buffer
  head : ∀ i, (c.head i).WorkKeeps (d.head i)

theorem FinishFrame.refl (c : Cm8) : FinishFrame c c :=
  ⟨rfl, rfl, rfl, rfl, rfl, rfl, rfl, fun _ => ⟨rfl, rfl, rfl, rfl, rfl, rfl, rfl⟩⟩

theorem FinishFrame.trans {a b c : Cm8} (h : FinishFrame a b) (k : FinishFrame b c) : FinishFrame a c where
  clock := k.clock.trans h.clock
  policy := k.policy.trans h.policy
  zonemap := k.zonemap.trans h.zonemap
  mask := k.mask.trans h.mask
  settings := k.settings.trans h.settings
  incoming := k.incoming.trans h.incoming
  buffer := k.buffer.trans h.buffer
  head i := (h.head i).trans (k.head i)

theorem WorkFrame.finishFrame {c d : Cm8} (h : WorkFrame c d) : FinishFrame c d :=
  ⟨h.clock, h.policy, h.zonemap, h.mask, by rw [h.port], by rw [h.port], by rw [h.port], h.head⟩

/-- A choice of the arbiter touches the port's replies, the event queue and one upstream report slot alone. -/
theorem finishFrame_choose : FinishFrame c c.choose := by
  unfold choose
  split
  · exact ⟨rfl, rfl, rfl, rfl, rfl, rfl, rfl, fun _ => ⟨rfl, rfl, rfl, rfl, rfl, rfl, rfl⟩⟩
  · split
    · exact ⟨rfl, rfl, rfl, rfl, rfl, rfl, rfl, fun _ => ⟨rfl, rfl, rfl, rfl, rfl, rfl, rfl⟩⟩
    · split
      · rename_i j r _
        have h := workFrame_onHead c j (fun h => { h with track := { h.track with upstream := none } })
          ⟨rfl, rfl, rfl, rfl, rfl, rfl, rfl⟩
        exact ⟨rfl, rfl, rfl, rfl, rfl, rfl, rfl, h.head⟩
      · exact ⟨rfl, rfl, rfl, rfl, rfl, rfl, rfl, fun _ => ⟨rfl, rfl, rfl, rfl, rfl, rfl, rfl⟩⟩

theorem finishFrame_chooseIdle : FinishFrame c c.chooseIdle := by
  unfold chooseIdle
  split
  · exact .refl c
  · exact finishFrame_choose c

/-- What a tick owes can be finished without touching time, the policy, a head's tables or what the port
receives. -/
theorem finishFrame_finish : FinishFrame c c.finish := by
  have h (n : Nat) : ∀ c : Cm8, FinishFrame c (finishN n c) := by
    induction n with
    | zero => exact FinishFrame.refl
    | succ n ih =>
      intro c
      unfold finishN
      split
      · exact .refl c
      · exact ((workFrame_runFront c).trans (workFrame_advance _)).finishFrame.trans
          ((finishFrame_chooseIdle _).trans (ih _))
  exact h _ c

end Cm8

/-! ### The order of the work -/

/-- Bringing a piece ahead only changes the order of the work. -/
theorem bringAhead_perm (done rest : List Work) (w : Work) :
    ((bringAhead done rest w).1 ++ (bringAhead done rest w).2).Perm (done ++ rest) := by
  unfold bringAhead
  dsimp only
  split
  · rw [List.append_assoc]
    exact (List.filter_append_perm _ rest).append_left done
  · exact .refl _

end Sys2Proof.Machine
end

