-- ==== Sys2Proof/Tests/Slice0.lean ====
section
/-! SUPPORT. Tests of the model. Expected values are hand calculations from the rule that each comment
names, or the worked examples of the spec; every test is one command on a small state. -/

namespace Sys2Proof.Tests

set_option Elab.async false

open Sys2Proof Sys2Proof.Machine

/-! ### Well-formedness: an ill-formed term for each check -/

theorem test_wf_port_body : (Instr.shotSet 0#8 (List.replicate 248 0#8)).wf = false ∧
    (Instr.shotSet 0#8 (List.replicate 247 0#8)).wf = true := by decide +kernel

theorem test_wf_line_body : (Instr.report ⟨0, .a⟩ 1#8 (List.replicate 59 0#8)).wf = false ∧
    (Instr.page ⟨0, .a⟩ 1#8 (List.replicate 58 0#8)).wf = true := by decide +kernel

def quiet : TickInputs := ⟨0#8, ⟨0, false⟩, ⟨0, false⟩, ⟨0, false⟩, ⟨0, false⟩, []⟩

theorem test_wf_line_input :
    (Instr.bresenhamTick { quiet with line1B := ⟨64, false⟩ }).wf = false ∧
      (Instr.syncEdge 0 { quiet with line0A := ⟨64, true⟩ }).wf = false ∧
      (Instr.bresenhamTick quiet).wf = true := by decide +kernel

theorem test_wf_unknown_kind : (Instr.unknownKind 0x10#8 0#8 []).wf = false ∧
    (Instr.unknownKind 0x00#8 0#8 []).wf = true := by decide +kernel

/-- No row of the table has bits, so no word spells a command (98_reader.md). -/
theorem test_no_words : decodeTableWord 16 0 = none ∧
    State.reset.withFetchWord 16 0 = State.reset := by decide +kernel

/-! ### Frames -/

/-- The CRC of the characters "123456789" (R144, R176). -/
theorem test_crc : crc16 [0x31, 0x32, 0x33, 0x34, 0x35, 0x36, 0x37, 0x38, 0x39] = 0x29B1#16 := by
  decide +kernel

/-- R177: the address tells a command frame from a direct frame; R176: a length that does not fit. -/
theorem test_port_arrival :
    portArrival 5 (PortFrame.encode ⟨0#8, 0x39#8, 7#8, []⟩) = .commandFrame 5 0x39#8 7#8 [] ∧
      portArrival 5 (PortFrame.encode ⟨8#8, 0#8, 0#8, [1#8]⟩) = .directFrame 7 [1#8] ∧
      portArrival 5 (PortFrame.encode ⟨9#8, 0#8, 0#8, []⟩) = .portBadFrame .address ∧
      portArrival 5 [0xC5#8, 2#8, 0#8, 0#8, 0#8, 0#8] = .portBadFrame .length := by decide +kernel

/-- R193: three bytes of two's complement, high byte first. -/
theorem test_positions : encPos (-2) = [0xFF, 0xFF, 0xFE] ∧ encPos 65536 = [1, 0, 0] ∧
    be3 0x80#8 0#8 0#8 = -8388608 := by decide +kernel

/-! ### Small states -/

/-- What a row makes of a part with nothing waiting. -/
def after (i : Instr) (c : Cm8) : Cm8 :=
  match exec i ⟨c, []⟩ with
  | .next s => s.part
  | _ => c

/-- The answer that the port sends after a row. -/
def answer (i : Instr) (c : Cm8) : Option Answer :=
  match (after i c).port.sending with
  | some (.reply r) => some r.answer
  | _ => none

/-- A LINKED head on PAN and TRAVEL at pair 0 A, address 1, that has reported position 0. -/
def driven (a : Activity) : Head where
  map := ⟨0, .a, 1#8, 0x21#6⟩
  axes := .const .reset
  followCount := 3
  shots := .replicate 64 none
  forward := ⟨0#8, 0⟩
  tally := false
  tallyChanged := false
  queue := []
  activity := a
  resumptions := 0#16
  setpoint := .const 0
  previous := .const 0
  seq := 0#8
  link := { Link.reset with state := .linked, reported := true, headMask := some 0x21#6 }
  track := { Tracker.reset with measured := some (.const 0) }

/-- The part with one driven head, at slot 0. -/
def part (a : Activity) : Cm8 := Cm8.reset.setHead 0 (driven a)

/-- An inline target of 64 counts of PAN. -/
def pan64 : PerAxis Int := (PerAxis.const 0).set .pan 64

/-- A move from 0 to 64 counts of PAN. -/
def move (d k : Nat) : Move :=
  ⟨.planned, some .inline, some 7#8, some .ease, d, k, .const 0, .const 0, pan64, 0#16,
    ⟨false, false, false, false⟩⟩

/-- A queue entry for the same targets. -/
def entry (rule : StartRule) (cue : Option (BitVec 32)) : QueueEntry :=
  ⟨.inline [(.pan, 64)], rule, cue, none, none, 7#8⟩

/-- A waiting move that needs zone 3. -/
def waiting (timer : Nat) : Waiting :=
  ⟨{ move 10 0 with zones := 8#16 }, none, 1, 1, entry .after none, timer, false⟩

/-- One TRAVEL range of slot 0 over zone 3. -/
def zoneEntry3 : ZoneEntry := ⟨0, 3, ⟨-100, 100⟩⟩

/-! ### Time -/

/-- R31: the third tick of code 6 falls at floor(3 · 10^8 · 1001 / 60000) = 5 005 000. -/
theorem test_bresenham_tick :
    (after (.bresenhamTick quiet) Cm8.reset).clock.lastTick = some 1668333 ∧
      (after (.bresenhamTick quiet) { Cm8.reset with
        clock := { Timebase.reset with index := 2, remainder := 40000 } }).clock.lastTick =
          some 5005000 := by decide +kernel

/-- R16 and R17: a tally that changes sets the flag at the tick. -/
theorem test_tally : ((after (.bresenhamTick { quiet with tally := 1#8 }) (part .idle)).head 0).tally = true ∧
    ((after (.bresenhamTick { quiet with tally := 1#8 }) (part .idle)).head 0).tallyChanged = true ∧
    ((after (.bresenhamTick quiet) (part .idle)).head 0).tallyChanged = false := by decide +kernel

def lockedAt (r : Nat) : Cm8 :=
  { Cm8.reset with
    clock := { Timebase.reset with state := .locked, phase := some r, lastTick := some r } }

/-- R33: a difference of 4 units moves P̂ by 1, one of 3 leaves it. -/
theorem test_accepted_edge :
    (after (.syncEdge 1668337 quiet) (lockedAt 0)).clock.period = 1668334 ∧
      (after (.syncEdge 1668336 quiet) (lockedAt 0)).clock.period = 1668333 := by decide +kernel

/-- R34: the window of P̂ = 1 668 333 is 104 270 units to each side. -/
theorem test_glitch :
    (after (.syncEdge 1772604 quiet) (lockedAt 0)).clock.glitch = 1#16 ∧
      (after (.syncEdge 1772603 quiet) (lockedAt 0)).clock.glitch = 0#16 := by decide +kernel

/-- R35: the expiry comes 1 876 874 units after the phase reference, and R36: the next tick P̂ later. -/
theorem test_loss_and_freewheel :
    (after (.lossExpiry quiet) (lockedAt 0)).clock.lastTick = some 1876874 ∧
      (after (.freewheelTick quiet) (after (.lossExpiry quiet) (lockedAt 0))).clock.lastTick =
        some 3545207 := by decide +kernel

/-- The relock of the chapter's worked example: a locking edge at 25 173 348 makes a tick. -/
theorem test_relock :
    let c := { Cm8.reset with
      clock := { Timebase.reset with
        state := .freewheel, run := 3, lastEdge := some 23505011, lastTick := some 23896904,
        frame := 14#32 } }
    (after (.syncEdge 25173348 quiet) c).clock.state = .locked ∧
      (after (.syncEdge 25173348 quiet) c).clock.frame = 15#32 := by decide +kernel

/-- R39: a slew of −2 makes F go back by one at the next tick, and a set gives its value. -/
theorem test_time_change :
    (after (.bresenhamTick quiet)
      (after (.timeSlew 0#8 [0xFF, 0xFF, 0xFF, 0xFE]) Cm8.reset)).clock.frame = 0xFFFFFFFF#32 ∧
    (after (.bresenhamTick quiet)
      (after (.timeSet 0#8 [0, 0, 1, 2]) Cm8.reset)).clock.frame = 258#32 := by decide +kernel

/-- R41: the rows of its table. -/
theorem test_cues : cueCome 71399#32 71400#32 = false ∧ cueCome 71403#32 71400#32 = true ∧
    cueCome 4294967290#32 5#32 = false ∧ cueCome 3000000000#32 71400#32 = false := by decide +kernel

/-- R42: rate code 2 is 25 frames in a second. -/
theorem test_clock_set : (after (.clockSet 50 0#8 [2]) Cm8.reset).clock.period = 4000000 ∧
    (after (.clockSet 50 0#8 [2]) Cm8.reset).clock.reference = 50 ∧
    answer (.clockSet 50 0#8 [8]) Cm8.reset = some (.refused .range) := by decide +kernel

/-- R43: state, code, P̂ = 0x0019_74ED, F, run, no change, GLITCH. -/
theorem test_clock_get : answer (.clockGet 0#8 []) Cm8.reset = some (.accepted
    [0, 6, 0, 0x19, 0x74, 0xED, 0, 0, 0, 0, 0, 0, 0, 0, 0, 0, 0, 0]) := by decide +kernel

/-! ### Heads, axes and shots -/

/-- R3, R4: an accepted record restarts the slot in PROBE; a bad address is refused. -/
theorem test_headmap_set :
    ((after (.headmapSet 0#8 [7, 1, 0, 15, 0x20]) Cm8.reset).head 7).link.state = .probe ∧
      answer (.headmapSet 0#8 [7, 1, 0, 16, 0x20]) Cm8.reset = some (.refused .range) ∧
      answer (.headmapSet 0#8 [0, 1, 0, 1, 0]) (part .idle) = some (.refused .busy) := by
  decide +kernel

/-- R5. -/
theorem test_headmap_get :
    answer (.headmapGet 0#8 [0]) (part .idle) = some (.accepted [0, 0, 1, 0x21, 3]) := by
  decide +kernel

/-- R10: every value is written; a setpoint left outside is refused. -/
theorem test_axis_set :
    (((after (.axisSet 0#8 [0, 0, 0xFF, 0xFF, 0xF6, 0, 0, 10, 0, 9, 0, 8, 0, 7, 0, 6, 5])
      (part .idle)).head 0).axes.get .pan).comm = ⟨-10, 10⟩ ∧
    answer (.axisSet 0#8 [0, 0, 0, 0, 1, 0, 0, 10, 0, 9, 0, 8, 0, 7, 0, 6, 5]) (part .idle) =
      some (.refused .range) := by decide +kernel

/-- R11: each bound is clamped into the commissioned interval. -/
theorem test_axis_restrict :
    let c := after (.axisSet 0#8 [0, 0, 0xFF, 0xFF, 0xF6, 0, 0, 10, 0, 9, 0, 8, 0, 7, 0, 6, 5])
      (part .idle)
    (((after (.axisRestrict 0#8 [0, 0, 1, 0xFF, 0, 0, 0, 0, 5]) { c with port := Cm8.reset.port }).head
      0).axes.get .pan).restriction = some ⟨-10, 5⟩ := by decide +kernel

/-- R14: the layers of an axis at power-on. -/
theorem test_axis_get : answer (.axisGet 0#8 [0, 0]) Cm8.reset = some (.accepted
    [0x80, 0, 0, 0x7F, 0xFF, 0xFF, 1, 0, 0, 4, 0, 128, 16, 0, 3, 0, 0, 0, 0, 0, 0, 0, 0, 0, 0, 0, 0,
      0, 0, 0, 0, 0x80, 0, 0, 0x7F, 0xFF, 0xFF]) := by decide +kernel

/-- R8: a trim is written on a halted head, and refused on a driven one. -/
theorem test_trim_set :
    (((after (.trimSet 0#8 [0, 1, 0, 0, 3, 0xE8]) (part (.halted .command))).head 0).axes.get
      .pan).trim = 1000 ∧
    answer (.trimSet 0#8 [0, 1, 0, 0, 3, 0xE8]) (part .idle) = some (.refused .busy) := by
  decide +kernel

/-- R20, R21. -/
theorem test_shot_set :
    ((after (.shotSet 0#8 [0, 63, 0, 25, 1, 1, 5, 0, 0, 9]) (part .idle)).head 0).shots[63] =
      some ⟨25, .swift, [(.travel, 9)]⟩ ∧
    answer (.shotSet 0#8 [0, 63, 0, 25, 1, 1, 1, 0, 0, 9]) (part .idle) = some (.refused .range) := by
  decide +kernel

def withShot : Cm8 := Cm8.reset.setHead 0 { driven .idle with
  shots := (Vector.replicate 64 none).set 2 (some ⟨25, .ease, [(.pan, 64), (.tilt, 1)]⟩) }

/-- R23: the axis in the mask is marked with bit 7. -/
theorem test_shot_get : answer (.shotGet 0#8 [0, 2]) withShot =
    some (.accepted [1, 0, 25, 0, 2, 0x80, 0, 0, 64, 1, 0, 0, 1]) := by decide +kernel

/-- R22. -/
theorem test_shot_erase : answer (.shotErase 0#8 [0, 0xFF]) withShot = some (.accepted [1]) ∧
    ((after (.shotErase 0#8 [0, 2]) withShot).head 0).shots[2] = none := by decide +kernel

/-! ### Floor zones -/

/-- R110: entry 31 is the last; an entry past it is refused. -/
theorem test_zonemap_set :
    (after (.zonemapSet 0#8 [31, 1, 0, 3, 0xFF, 0xFF, 0x9C, 0, 0, 100]) Cm8.reset).zonemap[31] =
      some zoneEntry3 ∧
    answer (.zonemapSet 0#8 [31, 2, 0xFF, 0xFF]) Cm8.reset = some (.refused .range) := by
  decide +kernel

def mapped (c : Cm8) : Cm8 := { c with zonemap := (Vector.replicate 32 none).set 0 (some zoneEntry3) }

/-- R111. -/
theorem test_zonemap_get : answer (.zonemapGet 0#8 [0, 2]) (mapped Cm8.reset) = some (.accepted
    [0, 3, 0xFF, 0xFF, 0x9C, 0, 0, 100, 0xFF, 0, 0, 0, 0, 0, 0, 0]) := by decide +kernel

/-- R111, R112: clearing the map frees the floor of an idle head. -/
theorem test_zonemap_clear :
    let c := (mapped (part .idle)).giveFree 0 8#16
    (after (.zonemapClear 0#8 []) c).holder 3 = none ∧
      (after (.zonemapClear 0#8 []) c).zonemap[0] = none := by decide +kernel

/-- R130: a halted head's floor is freed and named in the reply. -/
theorem test_release_zones :
    let c := (mapped (part (.halted .command))).giveFree 0 8#16
    (after (.releaseZones 0#8 [0]) c).holder 3 = none ∧
      answer (.releaseZones 0#8 [0]) c = some (.accepted [0, 8]) := by decide +kernel

/-- R127, R126. -/
theorem test_mask_and_lowest : (after (.zoneMask 0#8 [0x81]) Cm8.reset).arbiter.mask = 0x81#8 ∧
    answer (.zoneLowest 0#8 [5, 1]) Cm8.reset = some (.accepted [5]) ∧
    (after (.zoneLowest 0#8 [5, 1]) Cm8.reset).policy.rotation = .rotate := by decide +kernel

/-- R131: one head waits, tag 7, zone 3, two ticks. -/
theorem test_zone_status : answer (.zoneStatus 0#8 [1]) (part (.waitZone (waiting 2))) =
    some (.accepted [7, 0, 0, 0, 250, 1, 0, 7, 0, 8, 0, 2, 0]) := by decide +kernel

/-! ### Settings -/

/-- R186, R185. -/
theorem test_forward_and_policy :
    ((after (.forwardSet 0#8 [3, 0xFE, 2]) Cm8.reset).head 3).forward = ⟨0xFE#8, 2⟩ ∧
      answer (.forwardSet 0#8 [3, 1, 2]) Cm8.reset = some (.refused .range) ∧
      (after (.policySet 0#8 [1, 0, 9, 3, 0xFF]) Cm8.reset).policy = ⟨.block, 9, 1023, .fixed⟩ ∧
      answer (.policySet 0#8 [1, 0, 9, 4, 0]) Cm8.reset = some (.refused .range) := by decide +kernel

/-- R147, R135: 14 745 600 / (1 · 10) · 1001 / 60000 characters in a tick. -/
theorem test_line_set : answer (.lineSet 0#8 [1, 0, 0, 0, 0, 1, 0, 2]) Cm8.reset =
    some (.accepted [0x60, 0x18]) ∧
    answer (.lineSet 0#8 [1, 0, 0, 0, 0, 1, 0, 1]) Cm8.reset = some (.refused .range) := by
  decide +kernel

/-- R150: the setup of pair 0 at power-on; C = floor(14 745 600 · 1001 / (64 · 11 · 60000)) = 349. -/
theorem test_line_get : answer (.lineGet 0#8 [0]) Cm8.reset = some (.accepted
    ([0, 0, 63, 1, 1, 0, 10, 1, 93, 1, 1, 93, 0, 0, 0, 7] ++ List.replicate 12 0 ++
      List.replicate 19 0)) := by decide +kernel

/-- R206: bit 0 of the kind mask names no kind. -/
theorem test_event_set :
    (after (.eventSet 0#8 [1, 0, 0, 0, 0, 0, 0, 0, 2, 0, 0]) Cm8.reset).events.kinds = 2#64 ∧
      answer (.eventSet 0#8 [1, 0, 0, 0, 0, 0, 0, 0, 1, 0, 0]) Cm8.reset = some (.refused .range) := by
  decide +kernel

/-- R183: the settings take effect when the reply has gone out. -/
theorem test_port_set :
    (after (.portSet 0#8 [0, 15, 2]) Cm8.reset).port.settings = ⟨127, .none⟩ ∧
      (after (.upstreamFrameSent 9 false) (after (.portSet 0#8 [0, 15, 2]) Cm8.reset)).port.settings =
        ⟨15, .odd⟩ := by decide +kernel

/-! ### The program port -/

/-- R176, R177. -/
theorem test_port_counters : (after .portCharacterGapTimeout Cm8.reset).port.rxBad = 1#16 ∧
    (after (.portBadFrame .crc) Cm8.reset).port.rxBad = 1#16 ∧
    (after (.commandFrame 0 0x39#8 1#8 []) Cm8.reset).port.rxOk = 1#16 := by decide +kernel

/-- R179: a kind that names no command. -/
theorem test_unknown_kind :
    answer (.unknownKind 0xAA#8 1#8 []) Cm8.reset = some (.refused .unknown) ∧
      answer (.commandFrame 0 0xAA#8 1#8 [1]) Cm8.reset = some (.refused .unknown) := by
  decide +kernel

/-- R143: a slot that is not LINKED gets no direct frame. -/
theorem test_direct_frame :
    ((after (.directFrame 0 [1]) Cm8.reset).store ⟨0, .a⟩).counters.passDrop = 1#16 ∧
      ((after (.directFrame 0 [1, 2]) (Cm8.reset.setHead 0
        { driven .idle with forward := ⟨2#8, 0⟩ })).store ⟨0, .a⟩).pass = [⟨0, [1, 2]⟩] := by
  decide +kernel

/-! ### Head lines and enrolment -/

/-- R139, R146. -/
theorem test_line_frame_sent :
    let c := Cm8.reset.place ⟨0, .a⟩ [⟨1, .probe, []⟩]
    ((after (.lineFrameSent ⟨0, .a⟩) c).store ⟨0, .a⟩).counters.sent = 1#16 ∧
      ((after (.lineFrameSent ⟨0, .a⟩) c).store ⟨0, .a⟩).outgoing = [] := by decide +kernel

/-- R144, R145: line B of a DUPLEX pair does not receive. -/
theorem test_line_faults :
    ((after (.lineCharacterGapTimeout ⟨0, .a⟩) Cm8.reset).store ⟨0, .a⟩).counters.bad = 1#16 ∧
      ((after (.lineBadFrame ⟨0, .b⟩ .crc) Cm8.reset).store ⟨0, .b⟩).counters.bad = 0#16 := by
  decide +kernel

def probing : Cm8 := Cm8.reset.setHead 0 { driven .offline with
  link := { Link.reset with state := .probe, pending := .probe }, track := .reset }

/-- R153, R155: page 0 of a head with PAN alone opens the exchange. -/
theorem test_page : ((after (.page ⟨0, .a⟩ 1#8 [0, 1, 1, 1]) probing).head 0).link.state = .exchange ∧
    ((after (.page ⟨0, .a⟩ 1#8 [0, 1, 0, 1]) probing).head 0).link.state = .probe := by decide +kernel

/-- R156: the page timer reaches 16. -/
theorem test_page_timeout :
    let c := { probing.onHead 0 fun h => { h with
      link := { h.link with state := .exchange, pages := 1, pageTimer := some 15 } } with
      work := [.page 0] }
    ((after (.pageTimeout 0) c).head 0).link.state = .probe := by decide +kernel

/-- R160: the loss tick counter reaches the link loss ticks, 10 at power-on. -/
theorem test_link_loss :
    let c := { (part .idle).onHead 0 fun h => { h with link := { h.link with loss := 9 } } with
      work := [.link 0] }
    ((after (.linkLoss 0) c).head 0).activity = .halted .lost ∧
      ((after (.linkLoss 0) c).head 0).link.lostFlag = true := by decide +kernel

/-- The schedule of a LINKED slot: SETPOINT with sequence number 1 and positions (R93, R139, R193). -/
theorem test_schedule : ((after (.bresenhamTick quiet) (part .idle)).store ⟨0, .a⟩).outgoing =
    [⟨1, .setpoint, [1, 1, 0, 0, 0, 0, 0, 0]⟩] := by decide +kernel

/-! ### Reports -/

def follower (run : Nat) : Head :=
  { driven .idle with
    track := { Tracker.reset with
      history := [⟨45, 0x21#6, some ((PerAxis.const 0).set .pan 121500)⟩], run := run } }

/-- The worked example of chapter 10, report G less its decimation: e = 6 500 makes the run 3 and halts
the head; one count within the limit of 4 096 clears the run. -/
theorem test_report :
    ((after (.report ⟨0, .a⟩ 1#8 ([45, 0] ++ encPos 115000 ++ encPos 0))
      (Cm8.reset.setHead 0 (follower 2))).head 0).activity = .halted .follow ∧
    ((after (.report ⟨0, .a⟩ 1#8 ([45, 0] ++ encPos 117404 ++ encPos 0))
      (Cm8.reset.setHead 0 (follower 2))).head 0).track.run = 0 := by decide +kernel

/-- R166: an echo outside the history is stale. -/
theorem test_stale_report :
    ((after (.report ⟨0, .a⟩ 1#8 ([44, 0] ++ encPos 0 ++ encPos 0))
      (Cm8.reset.setHead 0 (follower 2))).store ⟨0, .a⟩).counters.stale = 1#16 := by decide +kernel

/-! ### Calls and motion -/

/-- R98, worked by hand: 64 counts with Vmax 256 and Amax 4 need D with 4 · D² ≥ 6 · 64, so D = 10. -/
theorem test_recall_inline :
    answer (.recallInline 7#8 ([0, 1, 0] ++ [1, 0, 0, 0, 64])) (part .idle) =
      some (.accepted [1, 0, 10]) ∧
    answer (.recallInline 7#8 ([0, 0, 0] ++ [1, 0, 0, 0, 64])) (part .idle) =
      some (.accepted [0, 1]) := by decide +kernel

/-- R25, R47: a shot that is invalid, and one that asks for 25 ticks. -/
theorem test_recall :
    answer (.recallShot 7#8 [0, 1, 2, 0]) (part .idle) = some (.refused .noShot) ∧
      answer (.recallShot 7#8 [0, 1, 2, 0]) withShot = some (.accepted [1, 0, 25]) := by decide +kernel

/-- R86, R106: velocity 100 on PAN steps by Amax = 4 at the first tick. -/
theorem test_jog :
    ((after (.bresenhamTick quiet) { after (.jog 0#8 [0, 1, 0, 0, 0, 100]) (part .idle) with
      port := Cm8.reset.port }).head 0).setpoint.pan = 4 ∧
    answer (.jog 0#8 [0, 1, 1, 0, 0, 100]) (part .idle) = some (.refused .range) := by decide +kernel

/-- R87: the twelfth tick without a refresh; velocity 6 comes down by Amax = 4. -/
theorem test_jog_timeout :
    ((after (.jogRefreshTimeout 0) { part (.jogging ⟨pan64, (PerAxis.const 0).set .pan 6, 11⟩) with
      work := [.motion 0] }).head 0).activity =
        .jogging ⟨.const 0, (PerAxis.const 0).set .pan 2, 12⟩ := by decide +kernel

/-- R68, R100: tick 5 of 10 is halfway; tick 10 is the target, and the head is free. -/
theorem test_move :
    ((after (.bresenhamTick quiet) (part (.moving (move 10 4) none))).head 0).setpoint.pan = 32 ∧
    ((after (.moveCompletion 0) { part (.moving (move 10 9) none) with work := [.motion 0] }).head
      0).setpoint.pan = 64 ∧
    ((after (.moveCompletion 0) { part (.moving (move 10 9) none) with work := [.motion 0] }).head
      0).activity = .idle := by decide +kernel

/-- R53: an eligible entry starts; R57: a cued REPLACE acts, LATE when F is past its cue. -/
theorem test_queue :
    let c (e : QueueEntry) := { (part .idle).setQueue 0 [e] with work := [.queue 0] }
    (((after (.queueEntryStart 0) (c (entry .after none))).head 0).activity.active.map (·.d)) =
      some 10 ∧
    (((after (.cuedReplaceActs 0) (c (entry .cuedReplace (some 0xFFFFFFFF#32)))).head
      0).activity.active.map (·.flags.late)) = some true := by decide +kernel

/-- R120: 250 ticks at power-on. -/
theorem test_zone_wait_timeout :
    ((after (.zoneWaitTimeout 0) { part (.waitZone (waiting 249)) with work := [.timer 0] }).head
      0).activity = .idle := by decide +kernel

/-- R125: the grant handed over starts the move. -/
theorem test_zone_granted :
    let c := { (part (.waitZone (waiting 2))).giveFree 0 8#16 with work := [.handover 0, .settle] }
    (((after (.zoneGranted 0) c).head 0).activity.active.map (·.d)) = some 10 ∧
      (after (.zoneGranted 0) c).holder 3 = some 0 := by decide +kernel

/-- R78: STOP of an idle head answers with its state; R79: STOP ALL counts it; R83: HALT ALL halts it. -/
theorem test_stop_and_halt : answer (.stop 0#8 [0]) (part .waitCue) = some (.accepted [1]) ∧
    answer (.stopAll 0#8 []) (part .idle) = some (.accepted [1]) ∧
    answer (.halt 0#8 [0xFF]) (part .idle) = some (.accepted [1]) ∧
    answer (.halt 0#8 [1]) (part .idle) = some (.refused .noHead) := by decide +kernel

/-- R103: v0 = 8 with Amax 4 stops in two ticks, 8 counts on. -/
theorem test_stop_move :
    let h := { driven (.moving (move 40 5) none) with
      setpoint := (PerAxis.const 0).set .pan 20, previous := (PerAxis.const 0).set .pan 12 }
    (((after (.stop 0#8 [0]) (Cm8.reset.setHead 0 h)).head 0).activity.active.map fun m =>
      (m.d, m.target.pan)) = some (2, 28) := by decide +kernel

/-- R84: the head is freed at its measured position, here 0 and 0. -/
theorem test_clear : answer (.clear 0#8 [0]) (part (.halted .follow)) =
    some (.accepted [1, 0, 0, 0, 0, 0, 0]) ∧
    answer (.clear 0#8 [0]) (part (.halted .mismatch)) = some (.refused .mismatch) := by decide +kernel

/-- R187: reading clears the two latched flags. -/
theorem test_head_status :
    let c := (part .idle).onHead 0 fun h => { h with tallyChanged := true }
    ((after (.headStatus 0#8 [0]) c).head 0).tallyChanged = false ∧
      ((answer (.headStatus 0#8 [0]) c).map fun a => match a with
        | .accepted l => l.take 3
        | _ => []) = some [3, 0x8C, 0x21] := by decide +kernel

/-- R184: a driven head is halted with cause RESET, counted once. -/
theorem test_reset_soft : answer (.resetSoft 0#8 []) (part .idle) = some (.accepted [1]) ∧
    ((after (.resetSoft 0#8 []) (part .idle)).head 0).activity = .halted .reset := by decide +kernel

/-- R29: power-on forgets everything. -/
theorem test_power_on : after .powerOnReset (part .idle) = Cm8.reset := by decide +kernel

/-! ### Events and counters: the worked example of section 12.2 -/

def numbered (n : Nat) : EventRecord := ⟨.zoneWait (BitVec.ofNat 16 n), 0#32, none, none, 0⟩

/-- A queue of 32 records with dropped count 4. -/
def full (mode : QueueMode) : EventUnit :=
  { Cm8.reset.events with mode := mode, queue := List.replicate 32 (numbered 1), dropped := 4 }

/-- R202. -/
theorem test_event_queue : ((full .keep).enqueue (numbered 2)).dropped = 5 ∧
    ((full .keep).enqueue (numbered 2)).queue.length = 32 ∧
    ((full .overwrite).enqueue (numbered 2)).queue.getLast? = some { numbered 2 with dropped := 5 } := by
  decide +kernel

/-- R203, R204. -/
theorem test_counter_marks :
    let c (v : BitVec 16) := Cm8.reset.setCounter .rxBad v
    ((c 0x7FFF#16).bump .rxBad).events.queue.map (·.event) = [.counter .rxBad false] ∧
      ((c 0xFFFE#16).bump .rxBad).events.queue.map (·.event) = [.counter .rxBad true] ∧
      ((c 0xFFFF#16).bump .rxBad).counter .rxBad = 0xFFFF#16 := by decide +kernel

/-! ### Characters, pages, and a pass that comes early -/

/-- What a sequence of characters makes of a state at reset. -/
def heard (chars : List Byte) : State :=
  (chars.map some).foldl (State.portCharacter 5) State.reset

/-- R176: the hunt passes a character over, and a marker inside a frame is a character of it. -/
theorem test_port_receiver :
    let f := PortFrame.encode ⟨0#8, 0x39#8, 0xC5#8, []⟩
    (heard (7#8 :: f)).pending = [.commandFrame 5 0x39#8 0xC5#8 []] ∧
      (heard (7#8 :: f)).part.port.incoming = none ∧
      (heard (f.take 4)).portGap.pending = [.portCharacterGapTimeout] ∧
      (heard [0xC5#8, 2#8]).pending = [.portBadFrame .length] := by decide +kernel

/-- R128: the pass of a tick may come before the queue work of another head; then that head's request meets
the holders that it left. -/
theorem test_early_pass :
    let c := { part (.waitZone (waiting 2)) with work := [.queue 1, .pass] }
    let d := after (.zoneGranted 0) c
    d.holder 3 = some 0 ∧ (d.head 0).activity.code = 4#8 ∧
      (d.head 0).activity.waiting = none := by decide +kernel

/-- R155: a new page 0 after the last page has been accepted sends the slot back to PROBE; before, it begins
the exchange again. -/
theorem test_page_after_last :
    let l (pages : Nat) : Link := { Link.reset with
      state := .exchange, headMask := some 1#6, toggle := some false, pages := pages }
    ((l 2).takePage [0, 1, 1, 1]).state = .probe ∧
      ((l 1).takePage [0, 1, 1, 1]).state = .exchange := by decide +kernel

/-! ### Orders of work and of records -/

/-- R128: a piece that a tick asks for comes ahead, after what comes before it by rule (R51, R122), and all
else keeps its place. -/
theorem test_order_of_work :
    let ws : List Work := [.timer 0, .motion 0, .motion 1, .queue 0, .queue 1, .pass]
    arrange [.queue 1] ws = [.motion 1, .queue 1, .timer 0, .motion 0, .queue 0, .pass] ∧
      arrange [.pass, .link 0] ws = [.timer 0, .pass, .motion 0, .motion 1, .queue 0, .queue 1] := by
  decide +kernel

/-- The part with one waiting head, which needs zone 4 and holds the zones given. -/
def beside (a : Activity) (zs : ZoneSet) : Cm8 :=
  ((part a).setHead 1 (driven (.waitZone { waiting 2 with
    move := { move 10 0 with zones := 16#16 } }))).giveFree 1 zs

/-- A planned move that needs zone 3. -/
def planned3 : Planned := ⟨{ move 10 0 with zones := 8#16 }, 1, 1⟩

/-- R55: the record of a REPLACE stands after those of the grants of its pass, also of a head later in pass
order. -/
theorem test_replace_told_last : ((beside .idle 0#16).requestTold 0 planned3
    (entry .after none)).events.queue.map (fun r => (r.slot, r.event.code)) =
      [(some 1, 0x08), (some 1, 0x01), (some 0, 0x01)] := by decide +kernel

/-! ### Witnesses: states and operands that meet the hypotheses of each statement -/

/-- The state with a part and no command waiting. -/
def on (c : Cm8) : State := ⟨c, []⟩

/-- The part while a tick still owes work. -/
def owing (c : Cm8) (w : List Work) : Cm8 := { c with work := w }

theorem ready_reset : Cm8.reset.Ready := ⟨rfl, rfl, by decide⟩

theorem ready_part (a : Activity) : (part a).Ready := ⟨rfl, rfl, by show 0 < 4; decide⟩

theorem ready_set (i : Slot) (h : Head) : (Cm8.reset.setHead i h).Ready :=
  ⟨rfl, rfl, by show 0 < 4; decide⟩

/-- The activities of a part with one driven head. -/
theorem part_activity (a : Activity) (i : Slot) :
    ((part a).head i).activity = if i = 0 then a else .offline := by
  unfold part Cm8.head Cm8.setHead
  fin_cases i <;> rfl

/-- The heads of a part are driven as it says, or OFFLINE. -/
theorem part_cases (a : Activity) (i : Slot) :
    ((part a).head i).activity = a ∨ ((part a).head i).activity = .offline := by
  rw [part_activity]
  by_cases h : i = 0 <;> simp [h]

theorem free_kinds (a : Activity) (h : a = .idle ∨ a = .offline) :
    a.active = none ∧ a.waiting = none ∧ ∀ j, a ≠ .jogging j := by
  rcases h with rfl | rfl <;> exact ⟨rfl, rfl, fun j e => by cases e⟩

/-- A planning that succeeds with a move that passes a test. -/
def plans (x : Except DropReason Planned) (f : Planned → Bool) : Bool :=
  match x with
  | .ok p => f p
  | .error _ => false

theorem plans_ok {x : Except DropReason Planned} {f : Planned → Bool} (h : plans x f = true) :
    ∃ p, x = .ok p ∧ f p = true := by
  cases x with
  | ok p => exact ⟨p, rfl, h⟩
  | error _ => cases h

theorem witness_StepTakesCommandsInOrder :
    (∃ (i : Instr) (rest : List Instr) (s : State), s.pending = i :: rest) ∧
      ∃ (s : State) (u : Upstream), s.pending = [] ∧ s.part.work = [] ∧
        s.part.port.sending = some u :=
  ⟨⟨.powerOnReset, [], ⟨Cm8.reset, [.powerOnReset]⟩, rfl⟩,
    on { Cm8.reset with port := { Cm8.reset.port with sending := some (.event (numbered 1)) } },
    _, rfl, rfl, rfl⟩

theorem witness_StepKeepsStoresBounded : ∃ s t : State, s.part.Bounded ∧ step s = .next t := by
  have quiet : ∀ i, ((part .idle).head i).track.interval = none := by decide +kernel
  refine ⟨⟨part .idle, [.powerOnReset]⟩, on Cm8.reset, ⟨by decide, by decide, by decide, by decide,
    ?_, by decide +kernel, by decide +kernel, by decide +kernel, ?_⟩, rfl⟩
  · rintro ⟨p, l⟩
    fin_cases p <;> cases l <;> decide
  · intro i x h
    exact absurd ((quiet i).symm.trans h) nofun

/-- A head that moves over zone 3 and holds it. -/
def overZone3 (a : Activity) : Cm8 := (part a).giveFree 0 8#16

theorem safe_moving : (overZone3 (.moving { move 10 5 with zones := 8#16 } none)).FloorSafe where
  active i m held h _ := by
    have e := part_activity (.moving { move 10 5 with zones := 8#16 } none) i
    change ((part _).head i).activity = _ at h
    rw [e] at h
    split at h
    · rename_i i0
      subst i0
      cases h
      intro z
      revert z
      decide +kernel
    · cases h
  held i m x h := by
    have e := part_activity (.moving { move 10 5 with zones := 8#16 } none) i
    change ((part _).head i).activity = _ at h
    rw [e] at h
    split at h <;> cases h
  granted i w h := by cases h
  front := rfl

theorem witness_StepKeepsFloorSafe : ∃ s t : State, s.part.FloorSafe ∧ step s = .next t :=
  ⟨⟨overZone3 (.moving { move 10 5 with zones := 8#16 } none), [.powerOnReset]⟩, on Cm8.reset,
    safe_moving, rfl⟩

theorem witness_StepKeepsBresenhamExact :
    ∃ s t : State, s.part.BresenhamExact ∧ step s = .next t :=
  ⟨⟨{ Cm8.reset with clock := { Timebase.reset with index := 2, remainder := 40000 } },
    [.powerOnReset]⟩, on Cm8.reset, by unfold Cm8.BresenhamExact; decide +kernel, rfl⟩

/-- Two heads that move over zones 3 and 4. -/
def twoMoving : Cm8 :=
  ((part (.moving { move 10 5 with zones := 8#16 } none)).setHead 1
    (driven (.moving { move 10 5 with zones := 16#16 } none))).withHolders
      fun z => if z = 3 then some 0 else if z = 4 then some 1 else none

theorem twoMoving_activity (i : Slot) : (twoMoving.head i).activity =
    if i = 0 then .moving { move 10 5 with zones := 8#16 } none
    else if i = 1 then .moving { move 10 5 with zones := 16#16 } none else .offline := by
  revert i
  decide +kernel

theorem witness_MovingHeadsShareNoZone : ∃ (c : Cm8) (i j : Slot) (m n : Move) (x y : Option Held),
    c.FloorSafe ∧ i ≠ j ∧ (c.head i).activity = .moving m x ∧ (c.head j).activity = .moving n y ∧
      m.cls ≠ .stop ∧ n.cls ≠ .stop := by
  refine ⟨twoMoving, 0, 1, _, _, none, none, ⟨?_, ?_, ?_, rfl⟩, by decide, twoMoving_activity 0,
    twoMoving_activity 1, by decide, by decide⟩
  · intro i m held h _
    rw [twoMoving_activity] at h
    split at h
    · rename_i e
      subst e
      cases h
      intro z
      revert z
      decide +kernel
    · split at h
      · rename_i e
        subst e
        cases h
        intro z
        revert z
        decide +kernel
      · cases h
  · intro i m x h
    rw [twoMoving_activity] at h
    split at h
    · cases h
    · split at h <;> cases h
  · intro i w h
    cases h

theorem witness_PortFrameReadsBack :
    (∃ f : PortFrame, f.address.toNat ≤ 8 ∧ f.body.length ≤ 247 ∧ f.address = 0#8) ∧
      ∃ f : PortFrame, f.address.toNat ≤ 8 ∧ f.body.length ≤ 247 ∧
        f.address = BitVec.ofNat 8 ((7 : Slot).val + 1) :=
  ⟨⟨⟨0#8, 0#8, 0#8, List.replicate 247 0#8⟩, by decide, by decide +kernel, rfl⟩,
    ⟨8#8, 0#8, 0#8, List.replicate 247 0#8⟩, by decide, by decide +kernel, by decide⟩

/-- The receiver between frames; the least and the greatest length, and the ones beside them; a wrong CRC and
an address above 8. -/
theorem witness_PortFrameReadsBack_receiver : (∃ s : State, s.part.port.incoming = none) ∧
    (∀ n ∈ [3, 250], ∃ (len : Byte) (rest : List Byte), len.toNat = n ∧ 3 ≤ len.toNat ∧
      len.toNat ≤ 250 ∧ rest.length = len.toNat + 2) ∧
    (∃ (len : Byte) (rest : List Byte), 3 ≤ len.toNat ∧ len.toNat ≤ 250 ∧
      rest.length = len.toNat + 2 ∧ rest.drop len.toNat ≠ encW (crc16 (len :: rest.take len.toNat))) ∧
    (∀ n ∈ [2, 251], ∃ len : Byte, len.toNat = n ∧ (len.toNat < 3 ∨ 250 < len.toNat)) ∧
    ∃ (len : Byte) (rest : List Byte), 3 ≤ len.toNat ∧ len.toNat ≤ 250 ∧
      rest.length = len.toNat + 2 ∧ rest.drop len.toNat = encW (crc16 (len :: rest.take len.toNat)) ∧
      ∃ a more, rest = a :: more ∧ a.toNat = 9 := by
  refine ⟨⟨State.reset, rfl⟩, ?_, ⟨3#8, List.replicate 5 0#8, by decide, by decide, by decide,
    by decide +kernel⟩, ?_, ⟨3#8, [9, 0, 0] ++ encW (crc16 [3, 9, 0, 0]), by decide,
    by decide, by decide +kernel, by decide +kernel, _, _, rfl, by decide⟩⟩
  · intro n hn
    simp only [List.mem_cons, List.not_mem_nil, or_false] at hn
    rcases hn with rfl | rfl
    · exact ⟨3#8, List.replicate 5 0#8, by decide, by decide, by decide, by decide⟩
    · exact ⟨250#8, List.replicate 252 0#8, by decide, by decide, by decide, List.length_replicate ..⟩
  · intro n hn
    simp only [List.mem_cons, List.not_mem_nil, or_false] at hn
    rcases hn with rfl | rfl
    · exact ⟨2#8, by decide⟩
    · exact ⟨251#8, by decide⟩

theorem witness_HeadLineFieldsReadBack : (∃ body : List Byte, body.length ≤ 58 ∧ body ≠ []) ∧
    (∃ p : Int, -8388608 ≤ p ∧ p ≤ 8388607 ∧ p < 0) ∧
    ∃ p : Int, -8388608 ≤ p ∧ p ≤ 8388607 ∧ ¬ p < 0 :=
  ⟨⟨List.replicate 58 0#8, by decide +kernel, by decide +kernel⟩, ⟨-8388608, by decide⟩,
    8388607, by decide⟩

/-- A line that receives, between frames and inside one, and one that does not. -/
theorem witness_HeadLineFieldsReadBack_receiver :
    (∃ (s : State) (st : StoreId), s.part.work = [] ∧ s.part.receives st = true ∧
      (s.part.store st).incoming = none) ∧
    (∃ (s : State) (st : StoreId) (cs : List Byte), s.part.work = [] ∧ s.part.receives st = true ∧
      (s.part.store st).incoming = some cs) ∧
    ∃ (s : State) (st : StoreId), s.part.work = [] ∧ s.part.receives st = false :=
  ⟨⟨State.reset, ⟨0, .a⟩, rfl, rfl, rfl⟩,
    ⟨on (Cm8.reset.setStore ⟨1, .a⟩ { LineStore.reset with incoming := some [2#8] }), ⟨1, .a⟩, [2#8],
      rfl, rfl, rfl⟩,
    State.reset, ⟨0, .b⟩, rfl, rfl⟩

theorem witness_BresenhamTickCounts : ∃ s : State, s.part.clock.state = .unlocked :=
  ⟨State.reset, rfl⟩

/-- Both ends of the window, and the first instants outside it. -/
theorem witness_LockedEdgeTicksOrGlitches : ∃ (s : State) (r : Nat), s.part.clock.state = .locked ∧
    s.part.clock.phase = some r ∧
    (∀ instant ∈ [1564063, 1772603],
      (s.part.clock.period : Int) - (s.part.clock.period / 16 : Nat) ≤ (instant : Int) - r ∧
        (instant : Int) - r ≤ s.part.clock.period + (s.part.clock.period / 16 : Nat)) ∧
    ∀ instant ∈ [1564062, 1772604],
      ((instant : Int) - r < s.part.clock.period - (s.part.clock.period / 16 : Nat) ∨
        s.part.clock.period + (s.part.clock.period / 16 : Nat) < (instant : Int) - r) :=
  ⟨on (lockedAt 0), 0, rfl, rfl, by decide +kernel, by decide +kernel⟩

/-- In UNLOCKED: no edge yet; an interval outside and inside the window; the fourth edge with a tick and
without one. -/
theorem witness_SearchingEdgeBuildsLock : ∃ k : Timebase, k.state ≠ .locked ∧ k.lastEdge = none ∧
    ∃ e l l' : Timebase, e.state ≠ .locked ∧ e.lastEdge = some 0 ∧
      ((1772604 : Nat) : Int) - 0 > e.period + (e.period / 16 : Nat) ∧
      ((1772603 : Nat) : Int) - 0 ≤ e.period + (e.period / 16 : Nat) ∧ e.run + 1 < 4 ∧
      l.state ≠ .locked ∧ ¬ l.run + 1 < 4 ∧ l.lastTick = some 834167 ∧
      ((l.period / 2 : Nat) : Int) ≤ ((1668333 : Nat) : Int) - 834167 ∧
      l'.state ≠ .locked ∧ ¬ l'.run + 1 < 4 ∧ l'.lastTick = some 834168 ∧
      ¬ ((l'.period / 2 : Nat) : Int) ≤ ((1668333 : Nat) : Int) - 834168 :=
  ⟨Timebase.reset, by decide, rfl, { Timebase.reset with lastEdge := some 0, run := 2 },
    { Timebase.reset with lastEdge := some 0, run := 3, lastTick := some 834167 },
    { Timebase.reset with lastEdge := some 0, run := 3, lastTick := some 834168 }, by decide, rfl,
    by decide +kernel, by decide +kernel, by decide, by decide, by decide, rfl, by decide +kernel,
    by decide, by decide, rfl, by decide +kernel⟩

theorem witness_FreewheelKeepsTime :
    (∃ (s : State) (r : Nat), s.part.clock.state = .locked ∧ s.part.clock.phase = some r) ∧
      ∃ (s : State) (l : Nat), s.part.clock.state = .freewheel ∧ s.part.clock.lastTick = some l :=
  ⟨⟨on (lockedAt 0), 0, rfl, rfl⟩, on { Cm8.reset with
    clock := { Timebase.reset with state := .freewheel, lastTick := some 5 } }, 5, rfl, rfl⟩

theorem witness_TimeChangeWaitsForTick : ∃ s : State, s.part.Ready ∧
    (∃ body : List Byte, body.length ≠ 4) ∧ (∃ c : Cm8, c.clock.change = none) ∧
    (∃ c : Cm8, c.clock.change = some (.set 5#32)) ∧
    ∃ c : Cm8, c.clock.change = some (.slew 0x80000000#32) :=
  ⟨State.reset, ready_reset, ⟨[1, 2, 3], by decide⟩, ⟨Cm8.reset, rfl⟩,
    ⟨Cm8.reset.setChange (.set 5#32), rfl⟩, Cm8.reset.setChange (.slew 0x80000000#32), rfl⟩

theorem witness_CueComesInHalfCircle : ∃ f cue : BitVec 32, f = cue := ⟨0#32, 0#32, rfl⟩

/-- The fastest rate code, with one head IDLE and the others OFFLINE; a body that is not empty; the period
estimate at reset and the least one that four bytes cannot hold. -/
theorem witness_ClockCommands : (∃ (s : State) (rate : Fin 8), s.part.Ready ∧
    (∀ i : Slot, (s.part.head i).activity = .offline ∨ (s.part.head i).activity = .idle ∨
      ∃ w, (s.part.head i).activity = .halted w) ∧
    { s.part with clock := { s.part.clock with rate := rate } }.linesFit = true) ∧
    (∃ body : List Byte, body ≠ []) ∧
    (∃ (s : State) (period : BitVec 32), s.part.Ready ∧ s.part.clock.period < 4294967296 ∧
      period.toNat = s.part.clock.period) ∧
    ∃ (s : State) (period : BitVec 32), s.part.Ready ∧ 4294967296 ≤ s.part.clock.period ∧
      period = Config.unfitPeriod s.part.clock.period :=
  ⟨⟨on (part .idle), 7, ready_part _, fun i =>
    (part_cases .idle i).elim (fun e => .inr (.inl e)) .inl, by decide +kernel⟩, ⟨[0#8], by decide⟩,
    ⟨State.reset, 1668333#32, ready_reset, by decide, by decide⟩,
    on { Cm8.reset with clock := { Timebase.reset with period := 4294967296 } },
    Config.unfitPeriod 4294967296, ⟨rfl, rfl, by show 0 < 4; decide⟩, by decide, rfl⟩

theorem witness_EveryCommandAnsweredOnce : ∃ (s : State) (k : CommandKind) (body : List Byte),
    s.part.Ready ∧ k ≠ .clear ∧ (runKind k 0#8 body s.part).2 = .refused .noHead :=
  ⟨State.reset, .stop, [0], ready_reset, by decide, by decide +kernel⟩

theorem witness_BadCommandsRefused : (∃ body : List Byte, body.length ≠ 1 ∧ body.length ≠ 0) ∧
    ∃ (s : State) (kind : Byte), s.part.Ready ∧ ∀ k : CommandKind, k.code ≠ kind :=
  ⟨⟨[0, 0], by decide⟩, State.reset, 0#8, ready_reset, by intro k; cases k <;> decide⟩

theorem witness_HeadTablesRead : (∃ (s : State) (b : Byte) (i : Slot), s.part.Ready ∧ b = slotByte i) ∧
    (∃ b : Byte, 8 ≤ b.toNat) ∧ (∃ d : Byte, 6 ≤ d.toNat) ∧
    ∃ e : AxisEntry, e.restriction = some ⟨-5, 5⟩ ∧ e.headRange = some ⟨-4, 4⟩ :=
  ⟨⟨State.reset, 7#8, 7, ready_reset, by decide⟩, ⟨8#8, by decide⟩, ⟨6#8, by decide⟩,
    { AxisEntry.reset with restriction := some ⟨-5, 5⟩, headRange := some ⟨-4, 4⟩ }, rfl, rfl⟩

/-- A part whose pair 0 is SPLIT, with one HALTED head on it. -/
def splitPart : Cm8 := (part (.halted .command)).setPair 0
  { Pair.reset with
    setup := { LineSetup.reset with mode := .split },
    inForce := { LineSetup.reset with mode := .split } }

theorem witness_HeadmapSetRestartsSlot : ∃ (s : State) (i : Slot) (m : HeadMap), s.part.Ready ∧
    1 ≤ m.address.toNat ∧ m.address.toNat ≤ 15 ∧
    (s.part.head i).link.state = .linked ∧ (s.part.head i).activity = .halted .command ∧
    (m.mask ≠ 0#6 ∧ m.line = .b ∧ (s.part.pair m.pair).setup.mode = .split ∧
      ∀ j : Slot, j ≠ i → ((s.part.onHead i fun h => { h with map := m }).head j).map.mask ≠ 0#6 →
        (s.part.onHead i fun h => { h with map := m }).lineOf j =
          (s.part.onHead i fun h => { h with map := m }).lineOf i →
        ((s.part.onHead i fun h => { h with map := m }).head j).map.address ≠ m.address) ∧
    (s.part.onHead i fun h => { h with map := m }).linesFit = true :=
  ⟨on splitPart, 0, ⟨0, .b, 15#8, 0x3F#6⟩, ⟨rfl, rfl, by show 0 < 4; decide⟩, by decide, by decide, by decide +kernel,
    by decide +kernel, by decide +kernel, by decide +kernel⟩

theorem witness_AxisCommandsWriteLayers : ∃ (s : State) (i : Slot) (a : Axis) (e : AxisEntry) (n : Byte),
    s.part.Ready ∧ 1 ≤ n.toNat ∧ n.toNat ≤ 8 ∧ (s.part.head i).activity = .idle ∧
      (s.part.head i).configured a = true ∧
      e = { (s.part.head i).axes.get a with comm := ⟨0, 0⟩, restriction := some ⟨0, 0⟩ } ∧
      (e.working.lo ≤ (s.part.head i).setpoint.get a ∧ (s.part.head i).setpoint.get a ≤ e.working.hi) ∧
      e.working.lo ≤ e.working.hi ∧ (1#8).getLsbD 0 = true ∧ (2#8).getLsbD 0 = false :=
  ⟨on (part .idle), 0, .pan, _, 8#8, ready_part _, by decide, by decide, by decide +kernel,
    by decide +kernel, rfl, by decide +kernel, by decide +kernel, by decide, by decide⟩

theorem witness_TrimSetWritesTrims : ∃ (s : State) (i : Slot) (l : List (Axis × Int)), s.part.Ready ∧
    1 ≤ l.length ∧ l.length ≤ 6 ∧ (l.map Prod.fst).Nodup ∧
    (∀ t ∈ l, -1048576 ≤ t.2 ∧ t.2 ≤ 1048575) ∧
    ((s.part.head i).activity.isHalted = true ∨ (s.part.head i).link.state ≠ .linked) :=
  ⟨State.reset, 7, [(.travel, -1048576), (.pan, 1048575), (.tilt, 0), (.zoom, 0), (.focus, 0), (.lift, 0)],
    ready_reset, by decide, by decide, by decide, by decide, by decide +kernel⟩

theorem fits2 (m : AxisMask) (h : m = 0x21#6) :
    TargetsFit m [(.pan, -8388608), (.travel, 8388607)] := by
  subst h
  exact ⟨by decide, by decide, by decide, by decide⟩

theorem witness_ShotSetReplacesRecord : ∃ (s : State) (i : Slot) (l : List (Axis × Int)) (d1 d0 : Byte),
    s.part.Ready ∧ 1 ≤ be2 d1 d0 ∧ be2 d1 d0 ≤ 4095 ∧ TargetsFit (s.part.head i).map.mask l :=
  ⟨on (part .idle), 0, _, 15#8, 255#8, ready_part _, by decide, by decide,
    fits2 _ (by decide +kernel)⟩

theorem witness_ShotReadsAndErasures : (∃ s : State, s.part.Ready) ∧ (∃ b : Byte, 8 ≤ b.toNat) ∧
    (∃ k : Byte, 64 ≤ k.toNat ∧ k.toNat ≤ 254) ∧ ∃ k : Byte, 64 ≤ k.toNat ∧ k.toNat = 254 :=
  ⟨⟨State.reset, ready_reset⟩, ⟨8#8, by decide⟩, ⟨64#8, by decide⟩, 254#8, by decide⟩

/-- Sixteen entries at index 16, and one at index 31. -/
theorem witness_ZonemapCommandsWriteMap : ∃ s : State, s.part.Ready ∧
    (∀ i : Slot, (s.part.head i).activity.active = none ∧ (s.part.head i).activity.waiting = none ∧
      ∀ j, (s.part.head i).activity ≠ .jogging j) ∧
    (∀ t ∈ [((16 : Fin 32), List.replicate 16 (some zoneEntry3)), (31, [none])],
      1 ≤ t.2.length ∧ t.2.length ≤ 16 ∧ t.1.val + t.2.length ≤ 32 ∧
      ∀ e, some e ∈ t.2 → e.range.lo ≤ e.range.hi ∧ fitsPosition e.range.lo = true ∧
        fitsPosition e.range.hi = true) := by
  refine ⟨on (part .idle), ready_part _, fun i => ?_, ?_⟩
  · exact free_kinds _ (part_cases .idle i)
  · intro t ht
    simp only [List.mem_cons, List.not_mem_nil, or_false] at ht
    rcases ht with rfl | rfl
    · refine ⟨by decide, by decide, by decide, fun e he => ?_⟩
      cases List.eq_of_mem_replicate he
      decide
    · exact ⟨by decide, by decide, by decide, fun e he => by cases List.mem_singleton.1 he⟩

theorem witness_ZoneReadsChangeNothing : (∃ s : State, s.part.Ready) ∧
    (∃ (start : Fin 32) (n : Nat), 1 ≤ n ∧ n ≤ 16 ∧ start.val + n ≤ 32) ∧
    ∃ sel : Byte, 2 ≤ sel.toNat :=
  ⟨⟨State.reset, ready_reset⟩, ⟨31, 1, by decide⟩, 2#8, by decide⟩

theorem witness_ArbiterCommandsRunPass : (∃ (s : State) (i : Slot), s.part.Ready ∧
      ∃ w, (s.part.head i).activity = .halted w) ∧
    (∃ (s : State) (i : Slot), s.part.Ready ∧ (s.part.head i).activity.isHalted = false) ∧
    ∃ b d : Byte, 8 ≤ b.toNat ∧ 2 ≤ d.toNat :=
  ⟨⟨on (part (.halted .follow)), 0, ready_part _, .follow, part_activity _ 0⟩,
    ⟨State.reset, 0, ready_reset, by decide +kernel⟩, 8#8, 2#8, by decide⟩

/-- A waiting head whose zone is free, and one whose zone another head holds. -/
theorem witness_PassJudgesInOrder : (∃ (c : Cm8) (w : Waiting), (c.head 0).activity = .waitZone w ∧
      ∀ z : Zone, w.move.zones.getLsbD z.val = true → c.holder z = some 0 ∨
        (c.holder z = none ∧ (0#16).getLsbD z.val = false)) ∧
    ∃ (c : Cm8) (w : Waiting), (c.head 0).activity = .waitZone w ∧
      ∃ z : Zone, w.move.zones.getLsbD z.val = true ∧ c.holder z = some 1 :=
  ⟨⟨part (.waitZone (waiting 0)), _, part_activity _ 0, by decide +kernel⟩,
    (part (.waitZone (waiting 0))).giveFree 1 8#16, waiting 0, by decide +kernel, 3,
    by decide +kernel⟩

/-- The part with one waiting head, under either rotation. -/
def waitingUnder (r : Rotation) : Cm8 :=
  { part (.waitZone (waiting 0)) with policy := { Cm8.reset.policy with rotation := r } }

/-- A pass that grants, in either rotation, and one without a candidate. -/
theorem witness_PassJudgesInOrder_rotation :
    (∀ r, (waitingUnder r).policy.rotation = r ∧ ((waitingUnder r).candidates.foldl Cm8.judge
      ({ waitingUnder r with arbiter := { (waitingUnder r).arbiter with released := false } },
        0#16, [])).2.2 = [] ++ [0]) ∧
    ∃ c : Cm8, (c.candidates.foldl Cm8.judge
      ({ c with arbiter := { c.arbiter with released := false } }, 0#16, [])).2.2 = [] :=
  ⟨fun r => ⟨rfl, by cases r <;> decide +kernel⟩, Cm8.reset, by decide +kernel⟩

theorem witness_RecomputationKeepsNeededZones :
    (∃ (c : Cm8) (z : Zone), (c.head 0).activity.isHalted = false ∧ c.holder z = some 0 ∧
      (c.residentZones 0 ||| c.moveZones 0).getLsbD z.val = false) ∧
    (∃ c : Cm8, (c.head 0).link.state = .linked ∧ (c.head 0).activity = .idle ∧
      ∃ z : Zone, (c.residentZones 0).getLsbD z.val = true ∧ c.holder z = some 1) ∧
    ∃ c : Cm8, (c.head 0).link.state = .linked ∧ (c.head 0).activity = .waitCue ∧
      ∀ z : Zone, (c.residentZones 0).getLsbD z.val = true → c.holder z = none ∨ c.holder z = some 0 :=
  ⟨⟨overZone3 .idle, 3, by decide +kernel⟩,
    ⟨(mapped (part .idle)).giveFree 1 8#16, by decide +kernel, by decide +kernel, 3, by decide +kernel⟩,
    mapped (part .waitCue), by decide +kernel⟩

theorem witness_ForwardAndPolicyWritten : (∃ s : State, s.part.Ready) ∧
    (∃ m : Byte, m.getLsbD 0 = false) ∧ (∃ m : Byte, m.getLsbD 0 = true) ∧ (∃ b : Byte, 8 ≤ b.toNat) ∧
    (∃ p m1 m0 w1 w0 : Byte, p.toNat ≤ 1 ∧ 1 ≤ be2 m1 m0 ∧ be2 m1 m0 ≤ 4095 ∧ 1 ≤ be2 w1 w0 ∧
      be2 w1 w0 ≤ 1023) ∧
    ∃ p m1 m0 w1 w0 : Byte, ¬ (p.toNat ≤ 1 ∧ 1 ≤ be2 m1 m0 ∧ be2 m1 m0 ≤ 4095 ∧ 1 ≤ be2 w1 w0 ∧
      be2 w1 w0 ≤ 1023) :=
  ⟨⟨State.reset, ready_reset⟩, ⟨0xFE#8, by decide⟩, ⟨1#8, by decide⟩, ⟨8#8, by decide⟩,
    ⟨1#8, 15#8, 255#8, 3#8, 255#8, by decide⟩, 0#8, 16#8, 0#8, 0#8, 1#8, by decide⟩

theorem witness_EventAndPortSettings : (∃ s : State, s.part.Ready) ∧
    (∃ kinds : BitVec 64, ∀ b : Fin 64, kinds.getLsbD b.val = true →
      b.val ∈ [1, 2, 3, 4, 5, 6, 7, 8, 0x10, 0x11, 0x12, 0x13, 0x14, 0x20, 0x21, 0x30, 0x31]) ∧
    (∃ q : Byte, ¬ q.toNat ≤ 1) ∧ (∃ d1 d0 : Byte, be2 d1 d0 ≤ 4095) ∧
    (∃ d1 d0 : Byte, 4095 < be2 d1 d0) ∧ ∃ b : Byte, 3 ≤ b.toNat :=
  ⟨⟨State.reset, ready_reset⟩, ⟨everyKind, by decide +kernel⟩, ⟨2#8, by decide⟩,
    ⟨15#8, 255#8, by decide⟩, ⟨16#8, 0#8, by decide⟩, 3#8, by decide⟩

/-- Pair 0 with one HALTED head goes to SPLIT, at the smallest divisor and link loss ticks. -/
theorem witness_LineSetWritesSetup : ∃ (s : State) (p : Fin 2) (r : LineSetup), s.part.Ready ∧
    r.divisor ≤ 4095 ∧ 2 ≤ r.lossTicks ∧
    (s.part.head 0).isConfigured = true ∧ (s.part.head 0).map.pair = p ∧
    (s.part.head 0).link.state = .linked ∧ (s.part.head 0).activity = .halted .command ∧
    (∀ i : Slot, (s.part.head i).isConfigured = true → ∀ j : Slot, j ≠ i →
      (s.part.head j).isConfigured = true →
      (s.part.writeSetup p r).lineOf j = (s.part.writeSetup p r).lineOf i →
      (s.part.head j).map.address ≠ (s.part.head i).map.address) ∧
    (s.part.writeSetup p r).linesFit = true :=
  ⟨on (part (.halted .command)), 0, ⟨.split, 0, .none, false, true, 2⟩, ready_part _, by decide,
    by decide, by decide +kernel, by decide +kernel, by decide +kernel, by decide +kernel,
    by decide +kernel, by decide +kernel⟩

theorem witness_LineGetReads : (∃ s : State, s.part.Ready) ∧ ∃ b : Byte, 2 ≤ b.toNat :=
  ⟨⟨State.reset, ready_reset⟩, 2#8, by decide⟩

theorem witness_LineGetReads_capacity :
    (∃ c : Cm8, (c.pair 0).setup.mode = .duplex ∧ c.linesFit = true) ∧
    ∃ c : Cm8, (c.pair 0).setup.mode = .split ∧ c.linesFit = true :=
  ⟨⟨part .idle, rfl, by decide +kernel⟩, splitPart, rfl, by decide +kernel⟩

/-- Both ends of a DUPLEX pair, and a SPLIT line that is sending. -/
theorem witness_LineRowsCount : (∃ (s : State) (st : StoreId) (f : LineFrame) (rest : List LineFrame),
      s.part.work = [] ∧ (s.part.store st).outgoing = f :: rest) ∧
    (∃ (s : State) (st : StoreId), s.part.work = [] ∧ (s.part.store st).outgoing = []) ∧
    (∃ s : State, s.part.work = [] ∧ (s.part.pair 0).inForce.mode = .duplex) ∧
    ∃ (s : State) (st : StoreId), s.part.work = [] ∧ (s.part.pair st.pair).inForce.mode = .split ∧
      (s.part.store st).outgoing ≠ [] :=
  ⟨⟨on (Cm8.reset.place ⟨0, .a⟩ [⟨1, .probe, []⟩]), ⟨0, .a⟩, _, _, rfl, rfl⟩,
    ⟨State.reset, ⟨1, .b⟩, rfl, rfl⟩, ⟨State.reset, rfl, rfl⟩,
    on (splitPart.place ⟨0, .b⟩ [⟨1, .probe, []⟩]), ⟨0, .b⟩, rfl, rfl, by decide +kernel⟩

/-- The longest direct frame that the Forward Filter lets pass, and one of a slot that is not LINKED. -/
theorem witness_DirectFrameFiltered : (∃ (c : Cm8) (body : List Byte), c.work = [] ∧
      (c.head 0).link.state = .linked ∧ body.length ≤ 48 ∧
      (∃ cls rest, body = cls :: rest ∧ cls ≠ 0#8 ∧ cls.toNat ≤ 7 ∧
        (c.head 0).forward.classes.getLsbD cls.toNat = true) ∧
      6 + body.length ≤ c.sendBudget (c.lineOf 0) ∧ (c.store (c.lineOf 0)).pass.length < 8) ∧
    ∃ c : Cm8, c.work = [] ∧ (c.head 0).link.state ≠ .linked :=
  ⟨⟨Cm8.reset.setHead 0 { driven .idle with forward := ⟨0xFE#8, 0⟩ }, 7#8 :: List.replicate 47 0#8,
    rfl, by decide +kernel, by decide +kernel, ⟨7#8, _, rfl, by decide, by decide, by decide +kernel⟩,
    by decide +kernel, by decide +kernel⟩, Cm8.reset, rfl, by decide +kernel⟩

theorem witness_ScheduleFillsLine : (∃ (c : Cm8) (i : Slot), (c.head i).activity ≠ .offline ∧
      (∀ w, (c.head i).activity ≠ .halted w) ∧ (c.head i).track.history.length < 16) ∧
    (∃ (c : Cm8) (i : Slot), ¬ ((c.head i).activity ≠ .offline ∧
      ∀ w, (c.head i).activity ≠ .halted w) ∧ ¬ (c.head i).track.history.length < 16) ∧
    ∃ f rest, (takePass (fun _ => true) 100 6 [⟨0, []⟩, ⟨0, [1]⟩]).left = f :: rest :=
  ⟨⟨part .idle, 0, by decide +kernel, by rw [part_activity]; nofun, by decide +kernel⟩,
    ⟨Cm8.reset.setHead 0 { driven (.halted .lost) with
      track := { Tracker.reset with history := List.replicate 16 ⟨0#8, 0#6, none⟩ } }, 0,
      fun h => h.2 .lost (by decide +kernel), by decide +kernel⟩, _, _, rfl⟩

/-- The part with one slot whose acknowledgement of a page is pending, its head on PAN alone. -/
def acking (page : Byte) (pages : Nat) : Cm8 := probing.onHead 0 fun h => { h with
  link := { h.link with
    state := .exchange, pending := .pageAck page true true, pages := pages, headMask := some 1#6 } }

/-- No enrolment frame pending; a PROBE and a PAGE_ACK that fit, and a PROBE that does not; the last page
and the one before it. -/
theorem witness_ScheduleFillsLine_enrolment :
    (∃ (c : Cm8) (st : StoreId), ∀ i : Slot,
      ¬ (i ∈ c.slotsOn st ∧ (c.head i).link.pending ≠ .none)) ∧
    (∃ (c : Cm8) (st : StoreId), (c.store st).roundRobin + 1 + 0 = 0 ∧ (0 : Slot) ∈ c.slotsOn st ∧
      (c.head 0).link.pending = .probe ∧ ((10 : Nat) : Int) ≤ c.sendBudget st ∧
      (9 : Int) < ((10 : Nat) : Int)) ∧
    (∃ c : Cm8, (c.head 0).link.headMask = some 1#6 ∧
      (c.head 0).link.pending = .pageAck 1#8 true true ∧ (1#8).toNat = (AxisMask.axes 1#6).length ∧
      (c.head 0).link.pages = (AxisMask.axes 1#6).length + 1) ∧
    ∃ c : Cm8, (c.head 0).link.headMask = some 1#6 ∧
      (c.head 0).link.pending = .pageAck 0#8 true true ∧
      ¬ (0#8).toNat = (AxisMask.axes 1#6).length :=
  ⟨⟨part .idle, ⟨0, .a⟩, by decide +kernel⟩,
    ⟨probing, ⟨0, .a⟩, by decide +kernel, by decide +kernel, by decide +kernel, by decide +kernel,
      by decide⟩,
    ⟨acking 1#8 2, by decide +kernel⟩, acking 0#8 1, by decide +kernel⟩

/-- A slot that answers; each clause of what a page does. -/
theorem witness_PagesBuildTheExchange : (∃ (s : State) (st : StoreId), s.part.work = [] ∧
      s.part.receives st = true ∧ s.part.slotAt st 1#8 = some 0) ∧
    (∃ (l : Link) (mask : AxisMask) (more : Byte), l.state = .probe ∧
      more.getLsbD 0 = decide (mask ≠ 0#6)) ∧
    (∃ (l : Link) (mask : AxisMask) (k : Nat) (a : Axis) (more : Byte), l.state = .exchange ∧
      l.headMask = some mask ∧ l.toggle = some (!true) ∧ l.pages = k + 1 ∧ mask.axes[k]? = some a ∧
      more.getLsbD 0 = decide (k + 1 < mask.axes.length)) ∧
    (∃ l : Link, l.state = .exchange ∧ l.toggle = some true) ∧
    (∃ (l : Link) (page : Byte), l.state = .exchange ∧ l.toggle = some (!true) ∧ page ≠ 0#8 ∧
      page.toNat ≠ l.pages) ∧ (∃ l : Link, l.state = .off) ∧ ∃ l : Link, l.state = .linked :=
  ⟨⟨on probing, ⟨0, .a⟩, rfl, by decide +kernel, by decide +kernel⟩,
    ⟨{ Link.reset with state := .probe }, 0#6, 0#8, rfl, by decide⟩,
    ⟨{ Link.reset with state := .exchange, headMask := some 0x21#6, toggle := some false, pages := 2 },
      0x21#6, 1, .travel, 0#8, rfl, rfl, rfl, rfl, by decide, by decide⟩,
    ⟨{ Link.reset with state := .exchange, toggle := some true }, rfl, rfl⟩,
    ⟨{ Link.reset with state := .exchange, toggle := some false, pages := 2 }, 1#8, rfl, rfl,
      by decide, by decide⟩, ⟨Link.reset, rfl⟩, { Link.reset with state := .linked }, rfl⟩

/-- A new page 0 before the last page has been accepted, and any new page after it. -/
theorem witness_PagesBuildTheExchange_last : (∃ l : Link, l.state = .exchange ∧
      l.toggle = some (!true) ∧ l.headMask = some 1#6 ∧ l.pages ≤ (AxisMask.axes 1#6).length) ∧
    ∃ l : Link, l.state = .exchange ∧ l.toggle = some (!true) ∧ l.headMask = some 1#6 ∧
      l.pages = (AxisMask.axes 1#6).length + 1 :=
  ⟨⟨{ Link.reset with state := .exchange, headMask := some 1#6, toggle := some false, pages := 1 },
      rfl, rfl, rfl, by decide⟩,
    { Link.reset with state := .exchange, headMask := some 1#6, toggle := some false, pages := 2 },
      rfl, rfl, rfl, by decide⟩

/-- A head about to be linked, whose head says that it has the axes of a mask. -/
def linking (a : Activity) (mask : AxisMask) (r : Span) : Cm8 := Cm8.reset.setHead 0 { driven a with
  link := { Link.reset with state := .exchange, headMask := some mask, gathered := .const (some r) } }

theorem witness_EntryIntoLinked :
    (∃ c : Cm8, (c.head 0).link.headMask = some 1#6 ∧ (c.head 0).activity = .offline ∧
      ∃ a, (c.head 0).configured a = true ∧ (1#6).getLsbD a.num = false) ∧
    (∃ c : Cm8, (c.head 0).link.headMask = some 0x21#6 ∧ (c.head 0).activity = .offline ∧
      (¬ ∃ a, (c.head 0).configured a = true ∧ (0x21#6).getLsbD a.num = false) ∧
      ∃ a, (c.head 0).configured a = true ∧
        (((c.enterLinked 0).head 0).axes.get a).working.hi <
          (((c.enterLinked 0).head 0).axes.get a).working.lo) ∧
    ∃ c : Cm8, (c.head 0).link.headMask = some 0x21#6 ∧
      ¬ ∃ a, (c.head 0).configured a = true ∧ (0x21#6).getLsbD a.num = false :=
  ⟨⟨linking .offline 1#6 ⟨0, 0⟩, by decide +kernel, by decide +kernel, .travel, by decide +kernel⟩,
    ⟨linking .offline 0x21#6 ⟨8388608, 8388609⟩, by decide +kernel, by decide +kernel,
      by rintro ⟨a, h⟩; revert h; cases a <;> decide +kernel, .pan, by decide +kernel⟩,
    linking (.halted .mismatch) 0x21#6 ⟨0, 0⟩, by decide +kernel,
      by rintro ⟨a, h⟩; revert h; cases a <;> decide +kernel⟩

theorem witness_LinkTimersRunOut : (∃ (s : State) (i : Slot) (ws : List Work),
      s.part.work = .link i :: ws ∧ (s.part.head i).link.state = .linked ∧
      (s.part.pair (s.part.head i).map.pair).setup.lossTicks ≤ (s.part.head i).link.loss + 1) ∧
    ∃ (s : State) (i : Slot) (t : Nat) (ws : List Work), s.part.work = .page i :: ws ∧
      (s.part.head i).link.pageTimer = some t ∧ 16 ≤ t + 1 :=
  ⟨⟨on (owing ((part .idle).onHead 0 fun h => { h with link := { h.link with loss := 9 } }) [.link 0]),
    0, [], rfl, by decide +kernel, by decide +kernel⟩,
    on (owing (probing.onHead 0 fun h => { h with link := { h.link with pageTimer := some 15 } })
      [.page 0]), 0, 15, [], rfl, by decide +kernel, by decide⟩

def queued (buffer replies : Nat) : Cm8 :=
  { Cm8.reset with
    port := { Cm8.reset.port with
      buffer := List.replicate buffer ⟨0#8, 0#8, []⟩,
      replies := List.replicate replies ⟨0#8, 0#8, .accepted []⟩ } }

theorem witness_PortFramesCounted :
    (∃ c : Cm8, c.work = [] ∧ c.port.buffer.length < 4 ∧ 4 ≤ c.port.replies.length) ∧
    (∃ c : Cm8, c.work = [] ∧ 4 ≤ c.port.buffer.length) ∧
    (∃ c : Cm8, c.work = [] ∧ c.port.buffer = [] ∧ c.port.replies.length < 4) ∧
    ∃ k : CommandKind, k.code = 0x7F#8 :=
  ⟨⟨queued 3 4, rfl, by decide, by decide⟩, ⟨queued 4 4, rfl, by decide⟩,
    ⟨queued 0 3, rfl, rfl, by decide⟩, .resetSoft, rfl⟩

theorem witness_UpstreamFramesInOrder : (∃ (s : State) (n : PortSettings) (data : List Byte),
      s.part.work = [] ∧ s.part.port.buffer = [] ∧
      s.part.port.sending = some (.reply ⟨0x41#8, 0#8, .acceptedSettings n data⟩) ∧
      n ≠ s.part.port.settings) ∧
    (∃ (s : State) (e : EventRecord), s.part.work = [] ∧ s.part.port.buffer = [] ∧
      s.part.port.sending = some (.event e)) ∧
    (∃ c : Cm8, c.port.replies ≠ []) ∧
    (∃ (c : Cm8) (e : EventRecord), c.port.replies = [] ∧ c.events.queue = [e]) ∧
    (∃ (c : Cm8) (r : ForwardedReport), c.port.replies = [] ∧ c.events.queue = [] ∧
      (c.head (c.port.lastServed + 1 + 7)).track.upstream = some r ∧
      ∀ m : Fin 8, m < 7 → (c.head (c.port.lastServed + 1 + m)).track.upstream = none) ∧
    ∃ c : Cm8, c.port.replies = [] ∧ c.events.queue = [] ∧
      ∀ i : Slot, (c.head i).track.upstream = none :=
  ⟨⟨on { Cm8.reset with port := { Cm8.reset.port with
      sending := some (.reply ⟨0x41#8, 0#8, .acceptedSettings ⟨15, .odd⟩ []⟩) } }, _, _, rfl, rfl, rfl,
      by decide⟩,
    ⟨on { Cm8.reset with port := { Cm8.reset.port with sending := some (.event (numbered 1)) } }, _,
      rfl, rfl, rfl⟩,
    ⟨queued 0 1, by decide⟩,
    ⟨{ Cm8.reset with events := { Cm8.reset.events with queue := [numbered 1] } }, _, rfl, rfl⟩,
    ⟨Cm8.reset.setHead 7 { driven .idle with track := { Tracker.reset with
      upstream := some ⟨0#32, 0#8, false, false, false, false, 0#6, .const 0⟩ } },
      ⟨0#32, 0#8, false, false, false, false, 0#6, .const 0⟩, rfl, rfl, by decide +kernel,
      by decide +kernel⟩,
    Cm8.reset, rfl, rfl, by decide +kernel⟩

/-- The part while it sends an event record. -/
def sendingEvent (c : Cm8) : Cm8 :=
  { c with port := { c.port with sending := some (.event (numbered 1)) } }

/-- A command waiting with a reply place free and with none; a frame being received, by the operand and by the
receiver. -/
theorem witness_UpstreamFramesInOrder_waiting :
    (∃ (s : State) (f : CommandFrame) (u : Upstream), s.part.work = [] ∧
      s.part.port.sending = some u ∧ s.part.port.buffer = [f] ∧
      s.part.choose.port.replies.length < 4) ∧
    (∃ (s : State) (u : Upstream), s.part.work = [] ∧ s.part.port.sending = some u ∧
      s.part.port.buffer ≠ [] ∧ 4 ≤ s.part.choose.port.replies.length) ∧
    ∃ (s : State) (n : PortSettings), s.part.work = [] ∧
      s.part.port.sending = some (.reply ⟨0x41#8, 0#8, .acceptedSettings n []⟩) ∧
      n ≠ s.part.port.settings ∧ (false = true ∨ s.part.port.incoming.isSome = true) :=
  ⟨⟨on (sendingEvent (queued 1 4)), _, _, rfl, rfl, rfl, by decide +kernel⟩,
    ⟨on (sendingEvent (queued 1 5)), _, rfl, rfl, by decide +kernel, by decide +kernel⟩,
    on { Cm8.reset with port := { Cm8.reset.port with
      sending := some (.reply ⟨0x41#8, 0#8, .acceptedSettings ⟨15, .odd⟩ []⟩),
      incoming := some [3#8] } }, ⟨15, .odd⟩, rfl, rfl, by decide, .inr rfl⟩

theorem witness_EventQueueKeepsThirtyTwo : (∃ (c : Cm8) (e : Event), c.events.enabled e = true) ∧
    (∃ (c : Cm8) (e : Event), c.events.enabled e = false) ∧
    (∃ u : EventUnit, u.queue.length < 32 ∧ u.queue.length = 31) ∧
    (full .keep).queue.length = 32 ∧ (full .keep).mode = .keep ∧
    (full .overwrite).queue.length = 32 ∧ (full .overwrite).mode = .overwrite ∧
    (∃ o rest, (full .overwrite).queue = o :: rest) ∧
    ∃ (c : Cm8) (o : EventRecord), c.port.replies = [] ∧ c.events.queue = [o] :=
  ⟨⟨Cm8.reset, .syncLost, by decide⟩,
    ⟨{ Cm8.reset with events := { Cm8.reset.events with kinds := 0#64 } }, .syncLost, by decide⟩,
    ⟨{ Cm8.reset.events with queue := List.replicate 31 (numbered 1) }, by decide, by decide⟩,
    by decide, rfl, by decide, rfl, ⟨_, _, rfl⟩,
    { Cm8.reset with events := { Cm8.reset.events with queue := [numbered 1] } }, _, rfl, rfl⟩

theorem witness_CounterStepsAndMarks : (∃ c : Cm8, c.counter .rxBad = 0#16) ∧
    (∃ c : Cm8, c.counter .rxBad = 0x7FFF#16) ∧ (∃ c : Cm8, c.counter .rxBad = 0xFFFE#16) ∧
    (∃ c : Cm8, c.counter .rxBad = 0xFFFF#16 ∧ c.events.counterMode = .saturate) ∧
    (∃ c : Cm8, c.counter .rxBad = 0xFFFF#16 ∧ c.events.counterMode = .wrap) ∧
    ∃ a b : CounterId, a ≠ b :=
  ⟨⟨Cm8.reset, rfl⟩, ⟨Cm8.reset.setCounter .rxBad 0x7FFF#16, rfl⟩,
    ⟨Cm8.reset.setCounter .rxBad 0xFFFE#16, rfl⟩, ⟨Cm8.reset.setCounter .rxBad 0xFFFF#16, rfl, rfl⟩,
    ⟨{ Cm8.reset with
      events := { Cm8.reset.events with counterMode := .wrap } }.setCounter .rxBad 0xFFFF#16, rfl, rfl⟩,
    .rxOk, .rxBad, by decide⟩

theorem witness_ReportTaken : (∃ (s : State) (st : StoreId) (body : List Byte) (i : Slot) (r : Report),
      s.part.work = [] ∧ s.part.receives st = true ∧ s.part.slotAt st 1#8 = some i ∧
      readReport (s.part.head i).map.mask body = some r ∧ (s.part.head i).link.state = .linked) ∧
    (∃ (s : State) (st : StoreId) (body : List Byte) (i : Slot) (r : Report),
      s.part.work = [] ∧ s.part.receives st = true ∧ s.part.slotAt st 1#8 = some i ∧
      readReport (s.part.head i).map.mask body = some r ∧ (s.part.head i).link.state ≠ .linked) ∧
    ∃ (c : Cm8) (r : Report), r.servoFault = true ∧ (c.head 0).activity ≠ .offline :=
  ⟨⟨on (part .idle), ⟨0, .a⟩, [45, 0, 0, 0, 0, 0, 0, 0], 0, ⟨45#8, false, false, .const 0⟩, rfl,
      by decide +kernel, by decide +kernel, by decide +kernel, by decide +kernel⟩,
    ⟨on probing, ⟨0, .a⟩, [45, 0, 0, 0, 0, 0, 0, 0], 0, ⟨45#8, false, false, .const 0⟩, rfl,
      by decide +kernel, by decide +kernel, by decide +kernel, by decide +kernel⟩,
    part .idle, ⟨0#8, true, false, .const 0⟩, rfl, by decide +kernel⟩

/-- The first report of an OFFLINE head carries the servo fault; and one of a head that is not HALTED. -/
theorem witness_ReportTaken_servoFault :
    (∃ (c : Cm8) (r : Report), r.servoFault = true ∧ (c.head 0).activity = .offline ∧
      (c.head 0).link.reported = false) ∧
    ∃ (c : Cm8) (r : Report), r.servoFault = true ∧ (c.head 0).activity ≠ .offline ∧
      (c.head 0).activity.isHalted = false :=
  ⟨⟨Cm8.reset.setHead 0 { driven .offline with link := { (driven .offline).link with reported := false } },
      ⟨0#8, true, false, .const 0⟩, rfl, by decide +kernel, by decide +kernel⟩,
    part .idle, ⟨0#8, true, false, .const 0⟩, rfl, by decide +kernel, by decide +kernel⟩

/-- Inside its limits on free floor, on the floor of another head, and outside its limits. -/
theorem witness_FirstReportPlacesHead :
    (∃ c : Cm8, (c.head 0).activity = .offline ∧ (c.head 0).queue = [] ∧
      (∀ a, (c.head 0).configured a = true →
        ((c.head 0).axes.get a).working.contains (0 - ((c.head 0).axes.get a).trim) = true) ∧
      c.holder 3 = none) ∧
    (∃ c : Cm8, (c.head 0).activity = .offline ∧
      (c.mappedZones 0 fun e => e.range.contains 0).getLsbD (3 : Zone).val = true ∧
      c.holder 3 = some 1) ∧
    ∃ c : Cm8, (c.head 0).activity = .offline ∧ (c.head 0).configured .pan = true ∧
      ((c.head 0).axes.get .pan).working.contains
        (8388608 - ((c.head 0).axes.get .pan).trim) = false :=
  ⟨⟨mapped (part .offline), by decide +kernel, by decide +kernel,
      by intro a; cases a <;> decide +kernel, by decide +kernel⟩,
    ⟨(mapped (part .offline)).giveFree 1 8#16, by decide +kernel⟩,
    part .offline, by decide +kernel⟩

theorem witness_TrackerFollowsAndForwards :
    (∃ (c : Cm8) (r : Report) (e : HistoryEntry) (want : PerAxis Int), r.localControl = false ∧
      ((c.head 0).track.history.find? fun x => x.seq = r.echo) = some e ∧ e.positions = some want ∧
      e.mask = (c.head 0).map.mask ∧ (c.head 0).activity ≠ .offline ∧
      (c.head 0).activity.isHalted = false ∧
      ((c.head 0).axes.get .pan).followLimit < (want.get .pan - r.measured.get .pan).natAbs ∧
      (c.head 0).followCount ≤ min ((c.head 0).track.run + 1) 8) ∧
    (∃ (c : Cm8) (r : Report), r.localControl = false ∧ ∀ x ∈ (c.head 0).track.history, x.seq ≠ r.echo) ∧
    (∃ e : HistoryEntry, e.positions = none) ∧
    (∃ h : Head, h.forward.decimation = 0) ∧
    (∃ h : Head, h.track.decimation + 1 < h.forward.decimation) ∧
    ∃ h : Head, h.forward.decimation ≠ 0 ∧ h.forward.decimation ≤ h.track.decimation + 1 :=
  ⟨⟨Cm8.reset.setHead 0 (follower 2), ⟨45#8, false, false, (PerAxis.const 0).set .pan 117403⟩,
      ⟨45#8, 0x21#6, some ((PerAxis.const 0).set .pan 121500)⟩, (PerAxis.const 0).set .pan 121500,
      rfl, by decide +kernel, rfl, by decide +kernel, by decide +kernel, by decide +kernel,
      by decide +kernel, by decide +kernel⟩,
    ⟨Cm8.reset.setHead 0 (follower 2), ⟨44#8, false, false, .const 0⟩, rfl, by decide +kernel⟩,
    ⟨⟨0#8, 0#6, none⟩, rfl⟩, ⟨driven .idle, rfl⟩,
    ⟨{ driven .idle with forward := ⟨0#8, 2⟩ }, by decide⟩,
    { driven .idle with forward := ⟨0#8, 1⟩ }, by decide⟩

/-- A head that has had a report in this interval. -/
def overrun (forwarded : Bool) : Cm8 := Cm8.reset.setHead 0 { follower 1 with
  track := { (follower 1).track with interval := some ⟨2, forwarded⟩ } }

/-- Local control set, matched and stale; an overrun with and without a place in the upstream slot, stale,
beyond the follow limit, and within it. -/
theorem witness_TrackerFollowsAndForwards_overrun :
    (∃ (c : Cm8) (r : Report), r.localControl = true ∧ ∃ x ∈ (c.head 0).track.history, x.seq = r.echo) ∧
    (∃ (c : Cm8) (r : Report), r.localControl = true ∧ ∀ x ∈ (c.head 0).track.history, x.seq ≠ r.echo) ∧
    ∀ forwarded, ((overrun forwarded).head 0).track.interval = some ⟨2, forwarded⟩ ∧
      ((overrun forwarded).head 0).activity = .idle ∧
      (∀ x ∈ ((overrun forwarded).head 0).track.history, x.seq ≠ 44#8) ∧
      ∃ (e : HistoryEntry) (want : PerAxis Int),
        (((overrun forwarded).head 0).track.history.find? fun x => x.seq = 45#8) = some e ∧
        e.positions = some want ∧ e.mask = ((overrun forwarded).head 0).map.mask ∧
        (((overrun forwarded).head 0).axes.get .pan).followLimit < (want.get .pan - 117403).natAbs ∧
        ∀ a, (want.get a - want.get a).natAbs ≤ (((overrun forwarded).head 0).axes.get a).followLimit :=
  ⟨⟨Cm8.reset.setHead 0 (follower 2), ⟨45#8, false, true, .const 0⟩, rfl, by decide +kernel⟩,
    ⟨Cm8.reset.setHead 0 (follower 2), ⟨44#8, false, true, .const 0⟩, rfl, by decide +kernel⟩,
    fun forwarded => ⟨by cases forwarded <;> rfl, by cases forwarded <;> decide +kernel,
      by cases forwarded <;> decide +kernel, ⟨45#8, 0x21#6, some ((PerAxis.const 0).set .pan 121500)⟩,
      (PerAxis.const 0).set .pan 121500, by cases forwarded <;> decide +kernel, rfl,
      by cases forwarded <;> decide +kernel, by cases forwarded <;> decide +kernel,
      fun a => by simp⟩⟩

/-- An inline call for PAN 64, with no optional field. -/
def call64 (cue : Option (BitVec 32)) : Call := ⟨.inline [(.pan, 64)], cue, none, none, 7#8⟩

theorem fits64 (m : AxisMask) (h : m = 0x21#6) (mode : CallMode) (cue : Option (BitVec 32))
    (n : mode = .priority → cue = none) : (call64 cue).Fits m mode := by
  subst h
  refine ⟨nofun, n, fun ts e => ?_⟩
  cases e
  exact ⟨by decide, by decide, by decide, by decide⟩

/-- Seven entries and eight; a cue that has come and one that has not. -/
theorem witness_QueuedCallsJoinQueue :
    (∃ (s : State) (x : Call), s.part.Ready ∧ (s.part.head 0).callable = true ∧
      x.Fits (s.part.head 0).map.mask .append ∧ (s.part.head 0).queue.length < 8) ∧
    (∃ (s : State) (x : Call), s.part.Ready ∧ (s.part.head 0).callable = true ∧
      x.Fits (s.part.head 0).map.mask .append ∧ 8 ≤ (s.part.head 0).queue.length) ∧
    ∃ (s : State) (x : Call), s.part.Ready ∧ (s.part.head 0).callable = true ∧
      (∀ j, (s.part.head 0).activity ≠ .jogging j) ∧ x.cue = some 5#32 ∧
      x.Fits (s.part.head 0).map.mask .replace :=
  ⟨⟨on (Cm8.reset.setHead 0 { driven .idle with queue := List.replicate 7 (entry .after none) }),
      call64 none, ready_set .., by decide +kernel, fits64 _ (by decide +kernel) _ _ nofun,
      by decide +kernel⟩,
    ⟨on (Cm8.reset.setHead 0 { driven .idle with queue := List.replicate 8 (entry .after none) }),
      call64 none, ready_set .., by decide +kernel, fits64 _ (by decide +kernel) _ _ nofun,
      by decide +kernel⟩,
    on (part .idle), call64 (some 5#32), ready_part _, by decide +kernel,
      fun j e => Activity.noConfusion ((part_activity .idle 0).symm.trans e), rfl,
      fits64 _ (by decide +kernel) _ _ nofun⟩

/-- Over a move, with the floor free and with it held by another head; and from rest. -/
theorem witness_ReplaceStartsAtOnce : ∃ x : Call, x.cue = none ∧
    (∃ (s : State) (m : Move) (p : Planned), s.part.Ready ∧ (s.part.head 0).link.state = .linked ∧
      (s.part.head 0).activity = .moving m none ∧ m.cls ≠ .stop ∧
      x.Fits (s.part.head 0).map.mask .replace ∧
      s.part.planSource 0 ((s.part.head 0).blendStart m) .planned x.source x.duration x.profile x.tag =
        .ok p ∧ ∀ z : Zone, p.move.zones.getLsbD z.val = true →
          s.part.holder z = none ∨ s.part.holder z = some 0) ∧
    (∃ (s : State) (m : Move) (p : Planned), s.part.Ready ∧ (s.part.head 0).link.state = .linked ∧
      (s.part.head 0).activity = .moving m none ∧ m.cls ≠ .stop ∧
      x.Fits (s.part.head 0).map.mask .replace ∧
      s.part.planSource 0 ((s.part.head 0).blendStart m) .planned x.source x.duration x.profile x.tag =
        .ok p ∧ p.move.zones.getLsbD (3 : Zone).val = true ∧ s.part.holder 3 = some 1) ∧
    ∃ (s : State) (p : Planned), s.part.Ready ∧ (s.part.head 0).link.state = .linked ∧
      (s.part.head 0).activity = .idle ∧
      s.part.planSource 0 (s.part.head 0).restStart .planned x.source x.duration x.profile x.tag =
        .ok p ∧ p.move.zones = 0#16 := by
  refine ⟨call64 none, rfl, ?_, ?_, ?_⟩
  · obtain ⟨p, e, t⟩ := plans_ok (x := (part (.moving (move 10 4) none)).planSource 0
      (((part (.moving (move 10 4) none)).head 0).blendStart (move 10 4)) .planned
      (.inline [(.pan, 64)]) none none 7#8) (f := fun p => p.move.zones = 0#16) (by decide +kernel)
    refine ⟨on (part (.moving (move 10 4) none)), _, p, ready_part _, by decide +kernel,
      part_activity _ 0, by decide, fits64 _ (by decide +kernel) _ _ nofun, e, fun z h => ?_⟩
    rw [of_decide_eq_true t] at h
    simp at h
  · obtain ⟨p, e, t⟩ := plans_ok
      (x := ((mapped (part (.moving (move 10 4) none))).giveFree 1 8#16).planSource 0
        ((((mapped (part (.moving (move 10 4) none))).giveFree 1 8#16).head 0).blendStart (move 10 4))
        .planned (.inline [(.pan, 64)]) none none 7#8)
      (f := fun p => p.move.zones.getLsbD 3) (by decide +kernel)
    exact ⟨on ((mapped (part (.moving (move 10 4) none))).giveFree 1 8#16), _, p,
      ⟨rfl, rfl, by show 0 < 4; decide⟩, by decide +kernel, by decide +kernel, by decide,
      fits64 _ (by decide +kernel) _ _ nofun, e, t, by decide +kernel⟩
  · obtain ⟨p, e, t⟩ := plans_ok (x := (part .idle).planSource 0 ((part .idle).head 0).restStart
      .planned (.inline [(.pan, 64)]) none none 7#8) (f := fun p => p.move.zones = 0#16)
      (by decide +kernel)
    exact ⟨on (part .idle), p, ready_part _, by decide +kernel, part_activity _ 0, e,
      of_decide_eq_true t⟩

/-- Over a PLANNED move, and over a waiting move with seven entries in the queue. -/
theorem witness_PriorityHoldsMove : ∃ x : Call,
    (∃ (s : State) (p : Planned) (m : Move), s.part.Ready ∧ (s.part.head 0).callable = true ∧
      (s.part.head 0).activity = .moving m none ∧ m.cls = .planned ∧
      x.Fits (s.part.head 0).map.mask .priority ∧
      s.part.planSource 0 (s.part.overStart 0) .priority x.source x.duration x.profile x.tag = .ok p ∧
      p.move.zones = 0#16) ∧
    ∃ (s : State) (p : Planned) (w : Waiting), s.part.Ready ∧ (s.part.head 0).callable = true ∧
      (s.part.head 0).activity = .waitZone w ∧ (s.part.head 0).queue.length < 8 ∧
      x.Fits (s.part.head 0).map.mask .priority ∧
      s.part.planSource 0 (s.part.overStart 0) .priority x.source x.duration x.profile x.tag = .ok p ∧
      p.move.zones = 0#16 := by
  refine ⟨call64 none, ?_, ?_⟩
  · obtain ⟨p, e, t⟩ := plans_ok (x := (part (.moving (move 10 4) none)).planSource 0
      ((part (.moving (move 10 4) none)).overStart 0) .priority (.inline [(.pan, 64)]) none none 7#8)
      (f := fun p => p.move.zones = 0#16) (by decide +kernel)
    exact ⟨on (part (.moving (move 10 4) none)), p, _, ready_part _, by decide +kernel,
      part_activity _ 0, rfl, fits64 _ (by decide +kernel) _ _ fun _ => rfl, e, of_decide_eq_true t⟩
  · obtain ⟨p, e, t⟩ := plans_ok (x := (Cm8.reset.setHead 0 { driven (.waitZone (waiting 0)) with
      queue := List.replicate 7 (entry .after none) }).planSource 0
        ((Cm8.reset.setHead 0 { driven (.waitZone (waiting 0)) with
          queue := List.replicate 7 (entry .after none) }).overStart 0) .priority
        (.inline [(.pan, 64)]) none none 7#8) (f := fun p => p.move.zones = 0#16) (by decide +kernel)
    exact ⟨on (Cm8.reset.setHead 0 { driven (.waitZone (waiting 0)) with
      queue := List.replicate 7 (entry .after none) }), p, waiting 0, ready_set .., by decide +kernel,
      by decide +kernel, by decide +kernel, fits64 _ (by decide +kernel) _ _ fun _ => rfl, e,
      of_decide_eq_true t⟩

theorem witness_QueueEntriesStart :
    (∃ (s : State) (e : QueueEntry), s.part.work = [.queue 0] ∧ (s.part.head 0).queue = [e] ∧
      e.rule = .after ∧ (s.part.head 0).activity = .idle ∧
      (∀ cue, e.cue = some cue → cueCome s.part.clock.frame cue = true) ∧
      ∃ p, ({ s.part with work := [] }.setQueue 0 []).planEntry 0 ((part .idle).head 0).restStart e =
        .ok p) ∧
    (∃ (s : State) (e : QueueEntry), s.part.work = [.queue 0] ∧ (s.part.head 0).queue = [e] ∧
      e.rule = .after ∧ (s.part.head 0).activity = .waitCue ∧ e.cue = some 0#32 ∧
      cueCome s.part.clock.frame 0#32 = true) ∧
    ∃ (s : State) (e : QueueEntry), s.part.work = [.queue 0] ∧ (s.part.head 0).queue = [e] ∧
      e.rule = .cuedReplace ∧ e.cue = some 0#32 ∧ cueCome s.part.clock.frame 0#32 = true ∧
      ∃ m held, (s.part.head 0).activity = .moving m held ∧ m.cls ≠ .stop := by
  refine ⟨?_, ?_, ?_⟩
  · obtain ⟨p, e, -⟩ := plans_ok
      (x := ({ owing ((part .idle).setQueue 0 [entry .after none]) [.queue 0] with
        work := [] }.setQueue 0 []).planEntry 0 ((part .idle).head 0).restStart (entry .after none))
      (f := fun _ => true) (by decide +kernel)
    exact ⟨on (owing ((part .idle).setQueue 0 [entry .after none]) [.queue 0]), entry .after none, rfl,
      by decide +kernel, rfl, by decide +kernel, nofun, p, e⟩
  · exact ⟨on (owing ((part .waitCue).setQueue 0 [entry .after (some 0#32)]) [.queue 0]),
      entry .after (some 0#32), rfl,
      by decide +kernel, rfl, by decide +kernel, rfl, by decide +kernel⟩
  · exact ⟨on (owing ((part (.moving (move 10 4) none)).setQueue 0 [entry .cuedReplace (some 0#32)])
      [.queue 0]), entry .cuedReplace (some 0#32), rfl, by decide +kernel, rfl, rfl, by decide +kernel,
      move 10 4, none,
      by decide +kernel, by decide⟩

theorem witness_MoveCompletionEndsMove : (∃ (s : State) (m : Move), s.part.work = [.motion 0] ∧
      (s.part.head 0).activity = .moving m none ∧ m.d ≤ m.k + 1) ∧
    ∃ (c : Cm8) (m : Move), (c.head 0).activity = .moving m none ∧ m.d = m.k + 1 ∧
      (∀ a, (c.head 0).configured a = true →
        ((c.head 0).axes.get a).working.contains (m.target.get a) = true) ∧
      ((c.head 0).axes.get .pan).working.lo ≤ ((c.head 0).axes.get .pan).working.hi :=
  ⟨⟨on (owing (part (.moving (move 1 0) none)) [.motion 0]), _, rfl, part_activity _ 0, by decide⟩,
    part (.moving (move 10 9) none), _, part_activity _ 0, rfl,
    by intro a; cases a <;> decide +kernel, by decide +kernel⟩

/-- A held move to PAN 64, with five ticks to run, that needs no zone. -/
def heldMove (p : Profile) : Held := ⟨pan64, 5, some p, some .inline, some 7#8, 0#16⟩

/-- The part with one on-air head, under an on-air policy. -/
def onAir (a : Activity) (p : OnAirPolicy) : Cm8 :=
  { Cm8.reset.setHead 0 { driven a with tally := true } with
    policy := { Cm8.reset.policy with onAir := p } }

/-- A resumption off air, one that is softened, and one that the policy blocks. -/
theorem witness_MoveCompletionEndsMove_held : (∃ (m : Move) (x : Held), m.d ≤ m.k + 1 ∧
      x = heldMove .ease) ∧
    (∃ (c : Cm8) (x : Held) (p : Planned), ¬ (x.profile = some .swift ∧ (c.head 0).tally = true) ∧
      c.planResume 0 x = .ok p ∧ p.move.zones = 0#16 ∧ p.move.profile = some .ease) ∧
    (∃ (c : Cm8) (x : Held) (p : Planned), x.profile = some .swift ∧ (c.head 0).tally = true ∧
      c.planResume 0 x = .ok p) ∧
    ∃ (c : Cm8) (x : Held), x.profile = some .swift ∧ (c.head 0).tally = true ∧
      c.policy.onAir = .block := by
  refine ⟨⟨move 10 9, heldMove .ease, by decide, rfl⟩, ?_, ?_, ⟨onAir .idle .block, heldMove .swift,
    rfl, by decide +kernel, rfl⟩⟩
  · obtain ⟨p, e, t⟩ := plans_ok (x := (part .idle).planResume 0 (heldMove .ease))
      (f := fun p => p.move.zones = 0#16 ∧ p.move.profile = some .ease) (by decide +kernel)
    exact ⟨_, _, p, by decide +kernel, e, (of_decide_eq_true t).1, (of_decide_eq_true t).2⟩
  · obtain ⟨p, e, -⟩ := plans_ok (x := (onAir .idle .soften).planResume 0 (heldMove .swift))
      (f := fun _ => true) (by decide +kernel)
    exact ⟨_, _, p, rfl, by decide +kernel, e⟩

theorem witness_PathIsRoundedCubic : (∃ (m : Move) (k : Nat), 1 ≤ k ∧ k ≤ m.d ∧ k = m.d) ∧
    ∃ (delta v0 : Int) (d : Nat), delta.natAbs < 2 ^ 25 ∧ v0.natAbs < 2 ^ 25 ∧ d < 2 ^ 12 :=
  ⟨⟨move 10 4, 10, by decide⟩, 33554431, -33554431, 4095, by decide⟩

theorem witness_DurationIsLeast : ∃ (h : Head) (k : Nat) (ask : Ask),
    (∀ a, 1 ≤ (h.axes.get a).vmax ∧ 1 ≤ (h.axes.get a).amax) ∧ k ≤ 4095 ∧ h.tally = true ∧
      h.configured .pan = true ∧ ask.named.get .pan = some 64 ∧ h.chooseD 25 h.restStart ask ≤ k :=
  ⟨{ driven .idle with tally := true }, 25,
    ⟨.planned, none, none, none, 1, (PerAxis.const none).set .pan (some 64), false⟩,
    by intro a; cases a <;> decide, by decide, rfl, by decide, by decide, by decide +kernel⟩

/-- A SWIFT move of PAN at its fifth tick. -/
def swiftMove : Move := { move 10 5 with profile := some .swift }

/-- Both ways of the on-air policy, and a call off air. -/
theorem witness_DurationIsLeast_onAir :
    (∀ p, ∃ (c : Cm8) (r : Reading), (c.head 0).read (.inline [(.pan, 64)]) none (some .swift) = some r ∧
      r.profile = .swift ∧ (c.head 0).tally = true ∧ c.policy.onAir = p) ∧
    (∃ (c : Cm8) (p : Planned), (c.head 0).tally = true ∧
      c.planSource 0 (c.head 0).restStart .planned (.inline [(.pan, 64)]) none (some .swift) 7#8 = .ok p) ∧
    ∃ (c : Cm8) (p : Planned), (c.head 0).tally = false ∧
      c.planSource 0 (c.head 0).restStart .planned (.inline [(.pan, 64)]) none (some .swift) 7#8 = .ok p := by
  refine ⟨fun p => ⟨onAir .idle p, ⟨.inline, 1, .swift, [(.pan, 64)]⟩, rfl, rfl,
    by cases p <;> decide +kernel, rfl⟩, ?_, ?_⟩
  · obtain ⟨p, e, -⟩ := plans_ok (x := (onAir .idle .soften).planSource 0
      ((onAir .idle .soften).head 0).restStart .planned (.inline [(.pan, 64)]) none (some .swift) 7#8)
      (f := fun _ => true) (by decide +kernel)
    exact ⟨_, p, by decide +kernel, e⟩
  · obtain ⟨p, e, -⟩ := plans_ok (x := (part .idle).planSource 0 ((part .idle).head 0).restStart
      .planned (.inline [(.pan, 64)]) none (some .swift) 7#8) (f := fun _ => true) (by decide +kernel)
    exact ⟨_, p, by decide +kernel, e⟩

theorem soften_ok {x : Option Move} {f : Move → Bool} (h : x.any f = true) :
    ∃ n, x = some n ∧ f n = true := by
  cases x with
  | some n => exact ⟨n, rfl, h⟩
  | none => cases h

/-- A softening that plans over free floor and over the floor of another head, one whose duration is over
4095, and a move that is not SWIFT. -/
theorem witness_DurationIsLeast_softening :
    (∃ (c : Cm8) (n : Move), (c.head 0).activity = .moving swiftMove none ∧
      c.planSoften 0 swiftMove = some n ∧ n.zones = 0#16) ∧
    (∃ (c : Cm8) (n : Move), (c.head 0).activity = .moving swiftMove none ∧
      c.planSoften 0 swiftMove = some n ∧ n.zones.getLsbD (3 : Zone).val = true ∧ c.holder 3 = some 1) ∧
    (∃ (c : Cm8) (m : Move), (c.head 0).activity = .moving m none ∧ m.profile = some .swift ∧
      c.planSoften 0 m = none) ∧
    ∃ (c : Cm8) (m : Move), (c.head 0).activity = .moving m none ∧ m.profile ≠ some .swift := by
  refine ⟨?_, ?_, ⟨part (.moving { swiftMove with target := (PerAxis.const 0).set .pan 8388607 } none), _,
    part_activity _ 0, rfl, by decide +kernel⟩, part (.moving (move 10 5) none), _, part_activity _ 0,
    by decide⟩
  · obtain ⟨n, e, t⟩ := soften_ok (x := (part (.moving swiftMove none)).planSoften 0 swiftMove)
      (f := fun n => n.zones = 0#16) (by decide +kernel)
    exact ⟨_, n, part_activity _ 0, e, of_decide_eq_true t⟩
  · obtain ⟨n, e, t⟩ := soften_ok
      (x := ((mapped (part (.moving swiftMove none))).giveFree 1 8#16).planSoften 0 swiftMove)
      (f := fun n => n.zones.getLsbD 3) (by decide +kernel)
    exact ⟨(mapped (part (.moving swiftMove none))).giveFree 1 8#16, n, by decide +kernel, e, t,
      by decide +kernel⟩

theorem witness_JogRunsOnRefresh :
    (∃ (s : State) (l : List (Axis × Int)), s.part.Ready ∧ l.length ≤ 6 ∧
      (l.map fun t => t.1.num).Pairwise (· < ·) ∧
      (∀ t ∈ l, (s.part.head 0).configured t.1 = true ∧ -65535 ≤ t.2 ∧ t.2 ≤ 65535) ∧
      (s.part.head 0).link.state = .linked ∧ (s.part.head 0).queue = [] ∧
      (s.part.head 0).activity = .idle) ∧
    (∃ (s : State) (j : Jog), s.part.Ready ∧ (s.part.head 0).queue = [] ∧
      (s.part.head 0).activity = .jogging j) ∧
    (∃ (s : State) (j : Jog), s.part.work = [.motion 0] ∧ (s.part.head 0).activity = .jogging j ∧
      j.refresh = 11) ∧
    (∃ g v a : Int, (g - v).natAbs ≤ a.natAbs) ∧ (∃ g v a : Int, a < g - v) ∧ ∃ g v a : Int, a < v - g :=
  ⟨⟨on (part .idle), [(.pan, -65535), (.travel, 65535)], ready_part _, by decide, by decide,
      by decide +kernel, by decide +kernel, by decide +kernel, part_activity _ 0⟩,
    ⟨on (part (.jogging ⟨.const 0, .const 0, 5⟩)), _, ready_part _, by decide +kernel,
      part_activity _ 0⟩,
    ⟨on (owing (part (.jogging ⟨.const 0, pan64, 11⟩)) [.motion 0]), _, rfl, part_activity _ 0, rfl⟩,
    ⟨0, 0, 0, by decide⟩, ⟨5, 0, 4, by decide⟩, 0, 5, 4, by decide⟩

/-- A head at TRAVEL 0 whose one range, over zone 3, begins at 1. -/
def ahead (a : Activity) : Cm8 :=
  { part a with zonemap := (Vector.replicate 32 none).set 0 (some ⟨0, 3, ⟨1, 100⟩⟩) }

/-- A jog of TRAVEL towards the range. -/
def jogAhead : Jog := ⟨(PerAxis.const 0).set .travel 4, .const 0, 0⟩

/-- A TRAVEL step onto free floor and one that the floor of another head stops; a jog that goes on and one
that ends. -/
theorem witness_JogRunsOnRefresh_travel :
    (∃ c : Cm8, (c.head 0).hasTravel = true ∧
      (∀ e ∈ c.entriesOf 0, e.range.contains ((c.head 0).setpoint.get .travel) = true →
        c.holder e.zone = some 0) ∧ c.holder 3 = none ∧
      (c.jogStep 0 jogAhead).1.holder 3 = some 0) ∧
    (∃ c : Cm8, (c.head 0).hasTravel = true ∧
      (∀ e ∈ c.entriesOf 0, e.range.contains ((c.head 0).setpoint.get .travel) = true →
        c.holder e.zone = some 0) ∧ c.holder 3 = some 1 ∧
      ((c.jogStep 0 jogAhead).1.head 0).setpoint.get .travel ≠ (jogAxis (c.head 0) jogAhead .travel).1) ∧
    (∃ c : Cm8, (c.head 0).configured .travel = true ∧
      (c.jogStep 0 jogAhead.refreshed).2.velocity.get .travel ≠ 0) ∧
    ∃ (c : Cm8) (j : Jog), ∀ a, (c.head 0).configured a = true →
      (c.jogStep 0 j.refreshed).2.commanded.get a = 0 ∧
      (c.jogStep 0 j.refreshed).2.velocity.get a = 0 :=
  ⟨⟨ahead (.jogging jogAhead), by decide +kernel, by decide +kernel, by decide +kernel,
      by decide +kernel⟩,
    ⟨(ahead (.jogging jogAhead)).giveFree 1 8#16, by decide +kernel, by decide +kernel,
      by decide +kernel, by decide +kernel⟩,
    ⟨ahead (.jogging jogAhead), by decide +kernel, by decide +kernel⟩,
    part .idle, ⟨.const 0, .const 0, 0⟩, by intro a; cases a <;> decide +kernel⟩

/-- A callable head in each state that STOP acts on. -/
theorem witness_StopActsByState :
    ∀ a ∈ [Activity.idle, .waitCue, .waitZone (waiting 0), .moving (move 10 4) none,
      .moving { move 10 4 with cls := .stop } none, .jogging ⟨.const 0, .const 0, 0⟩],
    ∃ s : State, s.part.Ready ∧ (s.part.head 0).callable = true ∧ (s.part.head 0).activity = a := by
  intro a ha
  refine ⟨on (part a), ready_part a, ?_, part_activity a 0⟩
  simp only [List.mem_cons, List.not_mem_nil, or_false] at ha
  rcases ha with rfl | rfl | rfl | rfl | rfl | rfl <;> decide +kernel

/-- A stop move before a range that another head holds, and one with no range of another head. -/
theorem witness_StopActsByState_stopMove : ∀ other ∈ [0#16, 8#16],
    let c := (ahead (.moving (move 10 4) none)).giveFree 1 other
    (∀ a, (c.head 0).configured a = true →
      ((c.head 0).working a).contains (((c.head 0).blendStart (move 10 4)).p0.get a) = true) ∧
    (∀ e ∈ c.entriesOf 0, c.heldByOther 0 e.zone = true →
      e.range.contains (((c.head 0).blendStart (move 10 4)).p0.get .travel) = false) ∧
    (c.head 0).hasTravel = true ∧ c.entriesOf 0 ≠ [] ∧
    ((∀ e ∈ c.entriesOf 0, c.heldByOther 0 e.zone = false) ↔ other = 0#16) ∧
    ∀ a, 1 ≤ ((c.head 0).axes.get a).amax := by
  intro other ho
  simp only [List.mem_cons, List.not_mem_nil, or_false] at ho
  rcases ho with rfl | rfl <;>
    exact ⟨by intro a; cases a <;> decide +kernel, by decide +kernel, by decide +kernel,
      by decide +kernel, by decide +kernel, by intro a; cases a <;> decide +kernel⟩

theorem witness_StopAllAndHaltCount : ∃ s : State, s.part.Ready ∧ (s.part.head 0).callable = true ∧
    (!(s.part.head 0).activity.isOffline && !(s.part.head 0).activity.isHalted) = true ∧
    (s.part.head 1).activity.isHalted = true ∧ (s.part.head 2).activity = .offline :=
  ⟨on ((part .idle).setHead 1 (driven (.halted .lost))), ⟨rfl, rfl, by show 0 < 4; decide⟩,
    by decide +kernel, by decide +kernel, by decide +kernel, by decide +kernel⟩

/-- A callable head in each state that STOP ALL acts on. -/
theorem witness_StopAllAndHaltCount_states :
    ∀ a ∈ [Activity.idle, .waitZone (waiting 0), .moving (move 10 4) none,
      .moving { move 10 4 with cls := .stop } none, .jogging ⟨.const 0, .const 0, 0⟩],
    ∃ s : State, s.part.Ready ∧ (s.part.head 0).callable = true ∧ (s.part.head 0).activity = a ∧
      (!(s.part.head 1).activity.isOffline && !(s.part.head 1).activity.isHalted) = false := by
  intro a ha
  refine ⟨on (part a), ready_part a, ?_, part_activity a 0, ?_⟩ <;>
    simp only [List.mem_cons, List.not_mem_nil, or_false] at ha <;>
    rcases ha with rfl | rfl | rfl | rfl | rfl <;> decide +kernel

theorem witness_ClearFreesHaltedHead : (∃ s : State, s.part.Ready ∧
      (s.part.head 0).link.state = .linked ∧ (s.part.head 0).link.reported = true ∧
      (s.part.head 0).queue = [] ∧ (s.part.head 0).activity.isHalted = false) ∧
    (∃ s : State, s.part.Ready ∧ (s.part.head 0).activity = .halted .mismatch) ∧
    ∃ (s : State) (t : PerAxis Int), s.part.Ready ∧ (s.part.head 0).link.state = .linked ∧
      (s.part.head 0).link.reported = true ∧ (s.part.head 0).queue = [] ∧
      (s.part.head 0).activity = .halted .follow ∧ (s.part.head 0).track.measured = some t ∧
      (∀ a, (s.part.head 0).configured a = true → ((s.part.head 0).axes.get a).working.contains
        (t.get a - ((s.part.head 0).axes.get a).trim) = true) ∧
      (∀ z : Zone, ((s.part.onHead 0 fun h => h.adopt t).residentZones 0).getLsbD z.val = true →
        (s.part.onHead 0 fun h => h.adopt t).holder z = none ∨
          (s.part.onHead 0 fun h => h.adopt t).holder z = some 0) :=
  ⟨⟨on (part .idle), ready_part _, by decide +kernel⟩,
    ⟨on (part (.halted .mismatch)), ready_part _, part_activity _ 0⟩,
    on (mapped (part (.halted .follow))), .const 0, ⟨rfl, rfl, by show 0 < 4; decide⟩,
    by decide +kernel, by decide +kernel, by decide +kernel, by decide +kernel, by decide +kernel,
    by intro a; cases a <;> decide +kernel, by decide +kernel⟩

/-- A slot that is not LINKED and one that has not reported; a head outside its limits; a head on floor that
another head holds. -/
theorem witness_ClearFreesHaltedHead_refusals :
    (∃ s : State, s.part.Ready ∧ (s.part.head 0).link.state ≠ .linked) ∧
    (∃ s : State, s.part.Ready ∧ (s.part.head 0).link.state = .linked ∧
      (s.part.head 0).link.reported = false) ∧
    (∃ (s : State) (t : PerAxis Int), s.part.Ready ∧ (s.part.head 0).link.state = .linked ∧
      (s.part.head 0).link.reported = true ∧ (s.part.head 0).activity = .halted .range ∧
      (s.part.head 0).track.measured = some t ∧ (s.part.head 0).configured .pan = true ∧
      ((s.part.head 0).axes.get .pan).working.contains
        (t.get .pan - ((s.part.head 0).axes.get .pan).trim) = false) ∧
    ∃ (s : State) (t : PerAxis Int), s.part.Ready ∧ (s.part.head 0).link.state = .linked ∧
      (s.part.head 0).link.reported = true ∧ (s.part.head 0).activity = .halted .conflict ∧
      (s.part.head 0).track.measured = some t ∧
      (∀ a, (s.part.head 0).configured a = true → ((s.part.head 0).axes.get a).working.contains
        (t.get a - ((s.part.head 0).axes.get a).trim) = true) ∧
      (s.part.residentZones 0).getLsbD (3 : Zone).val = true ∧ s.part.holder 3 = some 1 :=
  ⟨⟨State.reset, ready_reset, by decide +kernel⟩,
    ⟨on (Cm8.reset.setHead 0 { driven (.halted .command) with
      link := { Link.reset with state := .linked } }), ready_set .., by decide +kernel,
      by decide +kernel⟩,
    ⟨on (Cm8.reset.setHead 0 { driven (.halted .range) with
      axes := .const { AxisEntry.reset with comm := ⟨5, 6⟩ } }), .const 0, ready_set ..,
      by decide +kernel⟩,
    on ((mapped (part (.halted .conflict))).giveFree 1 8#16), .const 0,
    ⟨rfl, rfl, by show 0 < 4; decide⟩, by decide +kernel, by decide +kernel, by decide +kernel,
    by decide +kernel, by intro a; cases a <;> decide +kernel, by decide +kernel, by decide +kernel⟩

theorem witness_HeadStatusClearsFlags : (∃ s : State, s.part.Ready) ∧ ∃ b : Byte, 8 ≤ b.toNat :=
  ⟨⟨State.reset, ready_reset⟩, 8#8, by decide⟩

theorem witness_ResetSoftClearsWork : ∃ s : State, s.part.Ready ∧
    (s.part.head 0).link.state = .linked ∧ (s.part.head 0).activity = .idle :=
  ⟨on (part .idle), ready_part _, by decide +kernel, part_activity _ 0⟩

/-- A wait one tick short of its timeout, and a grant off air and one with a cue. -/
theorem witness_WaitsEndByTimeoutOrGrant : (∃ (s : State) (w : Waiting), s.part.work = [.timer 0] ∧
      (s.part.head 0).activity = .waitZone w ∧ w.fresh = false ∧
      s.part.policy.waitTimeout ≤ w.timer + 1 ∧ w.move.cls ≠ .stop) ∧
    ∃ (s : State) (w : Waiting), s.part.work = [.handover 0, .settle] ∧
      (s.part.head 0).activity = .waitZone w ∧ (s.part.head 0).tally = false :=
  ⟨⟨on (owing (part (.waitZone (waiting 249))) [.timer 0]), _, rfl, part_activity _ 0, rfl, by decide,
      by decide⟩,
    on (owing (part (.waitZone (waiting 2))) [.handover 0, .settle]), _, rfl, part_activity _ 0,
      by decide +kernel⟩

/-- A grant on air: a SWIFT move under either policy, and an EASE move. -/
theorem witness_WaitsEndByTimeoutOrGrant_onAir :
    (∀ p, ∃ (s : State) (w : Waiting), s.part.work = [.handover 0, .settle] ∧
      (s.part.head 0).activity = .waitZone w ∧ (s.part.head 0).tally = true ∧
      w.move.profile = some .swift ∧ w.move.cls ≠ .stop ∧ s.part.policy.onAir = p) ∧
    ∃ (s : State) (w : Waiting), s.part.work = [.handover 0, .settle] ∧
      (s.part.head 0).activity = .waitZone w ∧ (s.part.head 0).tally = true ∧
      w.move.profile ≠ some .swift :=
  ⟨fun p => ⟨on (owing (onAir (.waitZone { waiting 2 with move := { swiftMove with zones := 8#16 } }) p)
      [.handover 0, .settle]), _, rfl, by cases p <;> rfl, by cases p <;> decide +kernel, rfl,
      by decide, rfl⟩,
    on (owing (onAir (.waitZone (waiting 2)) .block) [.handover 0, .settle]), _, rfl, rfl,
    by decide +kernel, by decide⟩

/-- A tick that owes the queue work of another head before its pass, which grants. -/
theorem witness_WaitsEndByTimeoutOrGrant_early : ∃ s : State,
    s.part.work = [.queue 1, .pass] ∧ .pass ∈ s.part.work ∧ .settle ∉ s.part.work ∧
    (∀ j, .timer j ∉ s.part.work ∧ .handover j ∉ s.part.work) ∧
    ({ s.part with work := s.part.work.erase .pass }.judgePass.2 = [0]) :=
  ⟨on (owing (part (.waitZone (waiting 2))) [.queue 1, .pass]), rfl, by decide, by decide,
    by decide, by decide +kernel⟩

/-! ### Witnesses of clauses about work, passes and plannings -/


/-- The least position on every axis; and its body. -/
theorem witness_HeadLineFieldsReadBack_report : ∃ (mask : AxisMask) (r : Report), mask = 0x3F#6 ∧
    r.servoFault = true ∧ (∀ a, mask.getLsbD a.num = true → fitsPosition (r.measured.get a) = true) :=
  ⟨0x3F#6, ⟨255#8, true, false, .const (-8388608)⟩, rfl, rfl,
    by intro a; cases a <;> decide +kernel⟩

/-- A piece asked for that is there and one that is not; no work, work that its own row does, and work that
the next row does. -/
theorem witness_BresenhamTickCounts_order :
    (∃ (turn : Turn) (ws : List Work), workOf turn ∈ ws) ∧
    (∃ (turn : Turn) (ws : List Work), workOf turn ∉ ws) ∧ (∃ c : Cm8, c.work = []) ∧
    (∃ (c : Cm8) (w : Work) (ws : List Work), c.work = w :: ws ∧ c.due w = true) ∧
    ∃ (c : Cm8) (w : Work) (ws : List Work), c.work = w :: ws ∧ c.due w = false :=
  ⟨⟨.link 7, [.link 7], by decide⟩, ⟨.link 7, [], by decide⟩, ⟨Cm8.reset, rfl⟩,
    ⟨owing Cm8.reset [.handover 0], _, _, rfl, rfl⟩, owing Cm8.reset [.pass], _, _, rfl, rfl⟩

/-- A due piece of each kind, at the least count that makes it due. -/
theorem witness_BresenhamTickCounts_due :
    ∀ t ∈ [(Work.motion 0, part (.moving (move 10 9) none)),
      (.motion 0, part (.jogging ⟨.const 0, .const 0, 11⟩)),
      (.queue 0, (part .idle).setQueue 0 [entry .after none]),
      (.queue 0, (part (.moving (move 10 4) none)).setQueue 0 [entry .cuedReplace (some 0#32)]),
      (.timer 0, part (.waitZone (waiting 249))),
      (.handover 0, part (.waitZone (waiting 0))),
      (.page 0, probing.onHead 0 fun h => { h with link := { h.link with pageTimer := some 15 } }),
      (.link 0, (part .idle).onHead 0 fun h => { h with link := { h.link with loss := 9 } })],
    ∃ s : State, s.part.work = [t.1] ∧ s.part = owing t.2 [t.1] ∧ s.part.due t.1 = true := by
  intro t ht
  refine ⟨on (owing t.2 [t.1]), rfl, rfl, ?_⟩
  revert t
  decide +kernel

/-- A piece of each kind that is not due, one tick short of it. -/
theorem witness_BresenhamTickCounts_running :
    (∃ (c : Cm8) (m : Move), (c.head 0).activity = .moving m none ∧ m.k + 1 < m.d) ∧
    (∃ (c : Cm8) (j : Jog), (c.head 0).activity = .jogging j) ∧
    (∃ c : Cm8, (c.head 0).activity.active = none ∧ (c.head 0).activity.waiting = none ∧
      (∀ j, (c.head 0).activity ≠ .jogging j) ∧ c.due (.queue 0) = false ∧
      (c.head 0).link.pageTimer = none) ∧
    (∀ fresh, ∃ (c : Cm8) (w : Waiting), (c.head 0).activity = .waitZone w ∧ w.fresh = fresh ∧
      w.timer + 1 < c.policy.waitTimeout) ∧
    (∃ (c : Cm8) (n : Nat), (c.head 0).link.pageTimer = some n ∧ n + 1 < 16) ∧
    (∃ c : Cm8, (c.head 0).link.state = .linked ∧
      (c.head 0).link.loss + 1 < (c.pair (c.head 0).map.pair).setup.lossTicks) ∧
    ∃ c : Cm8, (c.head 0).link.state ≠ .linked :=
  ⟨⟨part (.moving (move 10 8) none), _, part_activity _ 0, by decide⟩,
    ⟨part (.jogging ⟨.const 0, .const 0, 10⟩), _, part_activity _ 0⟩,
    ⟨part .idle, by decide +kernel, by decide +kernel,
      fun j e => Activity.noConfusion ((part_activity .idle 0).symm.trans e), by decide +kernel,
      by decide +kernel⟩,
    fun fresh => ⟨part (.waitZone { waiting 248 with fresh := fresh }), _, part_activity _ 0, rfl,
      by cases fresh <;> decide +kernel⟩,
    ⟨probing.onHead 0 fun h => { h with link := { h.link with pageTimer := some 14 } }, 14,
      by decide +kernel, by decide⟩,
    ⟨(part .idle).onHead 0 fun h => { h with link := { h.link with loss := 8 } },
      by decide +kernel, by decide +kernel⟩,
    Cm8.reset, by decide +kernel⟩

/-- A zone freed by a change of the map, and none. -/
theorem witness_ZonemapCommandsWriteMap_pass :
    (∃ c : Cm8, ([0, 1, 2, 3, 4, 5, 6, 7].foldl Cm8.rezoneHead (c, 0)).1.arbiter.released = true) ∧
    ∃ c : Cm8, ([0, 1, 2, 3, 4, 5, 6, 7].foldl Cm8.rezoneHead (c, 0)).1.arbiter.released = false :=
  ⟨⟨overZone3 .idle, by decide +kernel⟩, part .idle, by decide +kernel⟩

theorem witness_ArbiterCommandsRunPass_released : ∀ r, ∃ c : Cm8, c.arbiter.released = r :=
  fun r => ⟨{ Cm8.reset with arbiter := { Cm8.reset.arbiter with released := r } }, rfl⟩

/-- A slot that is not LINKED, and a LINKED head that moves. -/
theorem witness_RecomputationKeepsNeededZones_passedOver :
    (∃ c : Cm8, (c.head 0).link.state ≠ .linked) ∧
    ∃ c : Cm8, (c.head 0).link.state = .linked ∧ (c.head 0).activity ≠ .idle ∧
      (c.head 0).activity ≠ .waitCue :=
  ⟨⟨Cm8.reset, by decide +kernel⟩, part (.moving (move 10 4) none), by decide +kernel⟩

/-- The slots that are here; a SPLIT line that turns round within a frame, by a LINE SET and without. -/
theorem witness_ScheduleFillsLine_cut :
    (∃ (c : Cm8) (st : StoreId) (here : Slot → Bool), here 0 = true ∧
      ∀ i : Slot, here i = true ↔ (c.head i).link.state = .linked ∧ i ∈ c.slotsOn st) ∧
    ∀ relined, ∃ (before : LineStore) (c : Cm8) (st : StoreId),
      (c.pair st.pair).inForce.mode = .split ∧ before.outgoing = [] ∧
      (false = true ∨ before.incoming.isSome = true) ∧ (c.store st).outgoing ≠ [] ∧
      (relined = false ↔ relined ≠ true) :=
  ⟨⟨part .idle, ⟨0, .a⟩, fun i => decide (i = 0), rfl, by decide +kernel⟩,
    fun relined => ⟨{ LineStore.reset with incoming := some [2#8] },
      splitPart.place ⟨0, .b⟩ [⟨1, .probe, []⟩], ⟨0, .b⟩, rfl, rfl, .inr rfl, by decide +kernel,
      by cases relined <;> decide⟩⟩

/-- In PROBE a page 0 whose more flag does not go with its mask; in EXCHANGE a next page with no fields; a
body of one byte. -/
theorem witness_PagesBuildTheExchange_failures :
    (∃ (l : Link) (page : Byte) (rest : List Byte), l.state = .probe ∧ page = 0#8 ∧
      ¬ ∃ (more : Byte) (mask : AxisMask),
        rest = [more, mask.setWidth 8] ∧ more.getLsbD 0 = decide (mask ≠ 0#6)) ∧
    (∃ (l : Link) (page toggle : Byte) (rest : List Byte) (old : AxisMask), l.state = .exchange ∧
      l.headMask = some old ∧ l.toggle ≠ some (toggle.getLsbD 0) ∧ page ≠ 0#8 ∧
      page.toNat = l.pages ∧ ¬ ∃ (more : Byte) (a : Axis) (lo hi : Int),
        rest = [more, axisByte a] ++ encPos lo ++ encPos hi) ∧
    ∃ short : List Byte, short.length < 2 ∧ short ≠ [] := by
  refine ⟨⟨{ Link.reset with state := .probe }, 0#8, [0#8, 1#8], rfl, rfl, ?_⟩,
    ⟨{ Link.reset with state := .exchange, headMask := some 1#6, toggle := some false, pages := 1 },
      1#8, 1#8, [], 1#6, rfl, rfl, by decide, by decide, by decide, nofun⟩, [0#8], by decide, by decide⟩
  rintro ⟨more, mask, h, m⟩
  simp only [List.cons.injEq, and_true] at h
  rw [← h.1] at m
  obtain ⟨-, h⟩ := h
  revert m h
  revert mask
  decide +kernel

/-- A HALTED head, and an OFFLINE one with an empty queue, whose range is narrowed. -/
theorem witness_EntryIntoLinked_records :
    (∃ c : Cm8, (c.head 0).link.headMask = some 0x21#6 ∧ (c.head 0).activity = .halted .mismatch) ∧
    ∃ c : Cm8, (c.head 0).link.headMask = some 0x21#6 ∧ (c.head 0).activity = .offline ∧
      (c.head 0).queue = [] ∧
      (((c.enterLinked 0).head 0).axes.get .pan).working.hi < ((c.head 0).working .pan).hi :=
  ⟨⟨linking (.halted .mismatch) 0x21#6 ⟨0, 0⟩, by decide +kernel⟩,
    linking .offline 0x21#6 ⟨0, 0⟩, by decide +kernel⟩

/-- A body of another size, with its slot; and one of the right size at both ends of the range. -/
theorem witness_ReportTaken_sizes :
    (∃ (s : State) (st : StoreId) (body : List Byte), s.part.work = [] ∧ s.part.receives st = true ∧
      s.part.slotAt st 1#8 = some 0 ∧ body.length ≠ 2 + 3 * (s.part.head 0).map.mask.axes.length ∧
      readReport (s.part.head 0).map.mask body = none) ∧
    ∃ (mask : AxisMask) (ps : List Int), ps.length = mask.axes.length ∧
      (∀ p ∈ ps, fitsPosition p = true) ∧ ps = [-8388608, 8388607] :=
  ⟨⟨on (part .idle), ⟨0, .a⟩, List.replicate 9 0#8, rfl, by decide +kernel, by decide +kernel,
      by decide +kernel, by decide +kernel⟩,
    0x21#6, [-8388608, 8388607], by decide, by decide, rfl⟩

/-- The state in which a request of the planned move meets its pass. -/
def asking (c : Cm8) : Cm8 × List Slot :=
  (c.setActivity 0 (.waitZone ⟨planned3.move, none, 1, 1, entry .after none, 0,
    decide (.timer 0 ∈ c.work)⟩)).judgePass

/-- A request that its pass grants, one that no pass of the moment grants, and one that a later pass grants. -/
theorem witness_ReplaceStartsAtOnce_request : planned3.move.zones ≠ 0#16 ∧
    (∃ c : Cm8, 0 ∈ (asking c).2) ∧
    (∃ c : Cm8, 0 ∉ (asking c).2 ∧
      (((((asking c).2.foldl Cm8.handGrant (asking c).1).recompute 0).settle).head 0).activity =
        .waitZone ⟨planned3.move, none, 1, 1, entry .after none, 0, false⟩) ∧
    ∃ c : Cm8, 0 ∉ (asking c).2 ∧
      (((((asking c).2.foldl Cm8.handGrant (asking c).1).recompute 0).settle).head 0).activity ≠
        .waitZone ⟨planned3.move, none, 1, 1, entry .after none, 0, false⟩ :=
  ⟨by decide, ⟨part .idle, by decide +kernel⟩,
    ⟨(part .idle).giveFree 1 8#16, by decide +kernel, by decide +kernel⟩,
    beside .idle 8#16, by decide +kernel, by decide +kernel⟩

/-- A duration above 4095 and one within; an invalid and a valid shot; a call that is softened and one that
is not, each with a planning that fails and one that succeeds. -/
theorem witness_DurationIsLeast_plan :
    (∃ (h : Head) (ask : Ask), 4095 < h.chooseD 25 h.restStart ask) ∧
    (∃ (h : Head) (ask : Ask), h.chooseD 25 h.restStart ask ≤ 4095) ∧
    (∃ h : Head, h.shots[(2 : Fin 64)] = none) ∧
    (∃ (h : Head) (v : Shot), h.shots[(2 : Fin 64)] = some v) ∧
    ∀ tally, ∀ p ∈ [(64 : Int), 8388607], ∃ (c : Cm8) (r : Reading) (q : Profile) (ask : Ask),
      (c.head 0).read (.inline [(.pan, p)]) none (some .swift) = some r ∧
      (c.head 0).tally = tally ∧ c.policy.onAir = .soften ∧
      q = (if tally then .ease else r.profile) ∧
      ask = ⟨.planned, some r.name, some 7#8, some q, 1, (PerAxis.const none).set .pan (some p), tally⟩ ∧
      ((c.plan 0 (c.head 0).restStart ask).isSome = true ↔ p = 64) := by
  refine ⟨⟨driven .idle, ⟨.planned, none, none, none, 1, (PerAxis.const none).set .pan (some 8388607),
      false⟩, by decide +kernel⟩, ⟨driven .idle, ⟨.planned, none, none, none, 1, .const none, false⟩,
      by decide +kernel⟩, ⟨driven .idle, by decide +kernel⟩,
    ⟨withShot.head 0, ⟨25, .ease, [(.pan, 64), (.tilt, 1)]⟩, by decide +kernel⟩, fun tally p hp => ?_⟩
  refine ⟨{ Cm8.reset.setHead 0 { driven .idle with tally := tally } with
    policy := { Cm8.reset.policy with onAir := .soften } }, ⟨.inline, 1, .swift, [(.pan, p)]⟩,
    _, _, rfl, rfl, rfl, rfl, rfl, ?_⟩
  simp only [List.mem_cons, List.not_mem_nil, or_false] at hp
  rcases hp with rfl | rfl <;> cases tally <;> decide +kernel

/-- A refresh count that its byte holds and one that it does not. -/
theorem witness_HeadStatusClearsFlags_refresh : ∀ n ∈ [255, 256], ∃ (s : State) (refresh : Byte) (j : Jog),
    s.part.Ready ∧ (s.part.head 0).activity = .jogging j ∧ j.refresh = n ∧
      (j.refresh < 256 → refresh.toNat = j.refresh) ∧
      (256 ≤ j.refresh → refresh = Config.unfitRefresh j.refresh) := by
  intro n hn
  simp only [List.mem_cons, List.not_mem_nil, or_false] at hn
  rcases hn with rfl | rfl
  · exact ⟨on (part (.jogging ⟨.const 0, .const 0, 255⟩)), 255#8, _, ready_part _, part_activity _ 0, rfl,
      fun _ => by decide, fun h => absurd h (by decide)⟩
  · exact ⟨on (part (.jogging ⟨.const 0, .const 0, 256⟩)), _, _, ready_part _, part_activity _ 0, rfl,
      fun h => absurd h (by decide), fun _ => rfl⟩

/-! ### Witnesses of refusals -/

/-- The part whose pair 0 has the slowest line: its one slot does not fit. -/
def tight (a : Activity) : Cm8 := (part a).setPair 0
  { Pair.reset with setup := { LineSetup.reset with divisor := 4095 } }

theorem ready_tight (a : Activity) : (tight a).Ready := ⟨rfl, rfl, by show 0 < 4; decide⟩

/-- A part with two LINKED heads, the second on pair 0 B at the address given. -/
def pairOf2 (a : Activity) (address : Byte) : Cm8 :=
  ((splitPart.setHead 0 (driven a)).setHead 1 { driven a with map := ⟨0, .b, address, 1#6⟩ })

theorem ready_pairOf2 (a : Activity) (x : Byte) : (pairOf2 a x).Ready :=
  ⟨rfl, rfl, by show 0 < 4; decide⟩

/-- A code out of range, a head in WAIT_CUE, and a line that does not fit. -/
theorem witness_ClockCommands_refusals : (∃ b : Byte, 8 ≤ b.toNat ∧ b.toNat = 8) ∧
    (∃ s : State, s.part.Ready ∧ (s.part.head 0).activity = .waitCue) ∧
    ∃ s : State, s.part.Ready ∧ (∀ i : Slot, (s.part.head i).activity = .offline ∨
        (s.part.head i).activity = .idle ∨ ∃ w, (s.part.head i).activity = .halted w) ∧
      ∀ rate : Fin 8, { s.part with clock := { s.part.clock with rate := rate } }.linesFit = false :=
  ⟨⟨8#8, by decide⟩, ⟨on (part .waitCue), ready_part _, part_activity _ 0⟩,
    on (tight .idle), ready_tight _, fun i => (part_cases .idle i).elim (fun e => .inr (.inl e)) .inl,
    by decide +kernel⟩

/-- Lengths one away from those that the presence bits and counts ask for; an entry that is not there. -/
theorem witness_BadCommandsRefused_lengths :
    (∃ (p : Byte) (rest : List Byte), rest.length = 5 ∧ rest.length ≠ (if p.getLsbD 0 then 6 else 0)) ∧
    (∃ (fields rest : List Byte) (n : Byte), fields.length = 1 ∧ rest.length = 3 ∧ n = 1#8 ∧
      rest.length ≠ 4 * n.toNat) ∧
    (∃ (n : Byte) (rest : List Byte), n = 1#8 ∧ ∀ es : List (List Byte), es.length = n.toNat →
      (∀ e ∈ es, e = [0xFF#8] ∨ (e.length = 8 ∧ e.head? ≠ some 0xFF#8)) → rest ≠ es.flatten) := by
  refine ⟨⟨1#8, List.replicate 5 0#8, by decide, by decide⟩,
    ⟨[0#8], [0#8, 0#8, 0#8], 1#8, by decide, by decide, rfl, by decide⟩, 1#8, [], rfl,
    fun es h k e => ?_⟩
  match es, h with
  | [x], _ =>
    have y : x = [] := by simpa using e.symm
    subst y
    rcases k [] (by simp) with q | q
    · cases q
    · exact absurd q.1 (by decide)

/-- A field just out of range; a driven head; line B of a DUPLEX pair, and an address taken; a line that does
not fit. -/
theorem witness_HeadmapSetRestartsSlot_refusals :
    (∀ t ∈ [[8, 0, 0, 1, 0], [0, 2, 0, 1, 0], [0, 0, 2, 1, 0], [0, 0, 0, 0, 0], [0, 0, 0, 16, 0],
        ([0, 0, 0, 1, 64] : List Byte)], ∃ b p l a m : Byte, t = [b, p, l, a, m] ∧
      (8 ≤ b.toNat ∨ 2 ≤ p.toNat ∨ 2 ≤ l.toNat ∨ a = 0#8 ∨ 16 ≤ a.toNat ∨ 64 ≤ m.toNat)) ∧
    (∃ s : State, s.part.Ready ∧ (s.part.head 0).link.state = .linked ∧
      (s.part.head 0).activity = .idle) ∧
    (∃ s : State, s.part.Ready ∧ (s.part.head 0).activity = .halted .command ∧
      (s.part.pair 0).setup.mode = .duplex) ∧
    (∃ s : State, s.part.Ready ∧ (s.part.head 0).activity = .halted .command ∧
      ((s.part.onHead 0 fun h => { h with map := ⟨0, .b, 5#8, 1#6⟩ }).head 1).map.address = 5#8 ∧
      (s.part.onHead 0 fun h => { h with map := ⟨0, .b, 5#8, 1#6⟩ }).lineOf 1 =
        (s.part.onHead 0 fun h => { h with map := ⟨0, .b, 5#8, 1#6⟩ }).lineOf 0) ∧
    ∃ s : State, s.part.Ready ∧ (s.part.head 0).activity = .halted .command ∧
      (s.part.pair 0).setup.mode = .duplex ∧ (∀ j : Slot, j ≠ 0 → (s.part.head j).map.mask = 0#6) ∧
      (s.part.onHead 0 fun h => { h with map := ⟨0, .a, 15#8, 1#6⟩ }).linesFit = false := by
  refine ⟨?_, ⟨on (part .idle), ready_part _, by decide +kernel⟩,
    ⟨on (part (.halted .command)), ready_part _, part_activity _ 0, rfl⟩,
    ⟨on (pairOf2 (.halted .command) 5#8), ready_pairOf2 _ _, by decide +kernel⟩,
    on (tight (.halted .command)), ready_tight _, by decide +kernel⟩
  intro t ht
  simp only [List.mem_cons, List.not_mem_nil, or_false] at ht
  rcases ht with rfl | rfl | rfl | rfl | rfl | rfl <;>
    exact ⟨_, _, _, _, _, rfl, by decide⟩

/-- Values just out of range; a head in WAIT_CUE; an IDLE setpoint left outside, and a LINKED head that awaits
its first report left with an empty interval. -/
theorem witness_AxisCommandsWriteLayers_refusals :
    (∃ b d n : Byte, 8 ≤ b.toNat ∧ 6 ≤ d.toNat ∧ 8 < n.toNat ∧ n.toNat = 9) ∧
    (∃ l2 l1 l0 h2 h1 h0 : Byte, be3 l2 l1 l0 = 1 ∧ be3 h2 h1 h0 = 0) ∧
    (∃ s : State, s.part.Ready ∧ (s.part.head 0).activity = .waitCue) ∧
    (∃ (s : State) (e : AxisEntry), s.part.Ready ∧ (s.part.head 0).activity = .idle ∧
      (s.part.head 0).configured .pan = true ∧
      e = { (s.part.head 0).axes.get .pan with restriction := some ⟨1, 1⟩ } ∧
      ¬ (e.working.lo ≤ (s.part.head 0).setpoint.get .pan ∧
        (s.part.head 0).setpoint.get .pan ≤ e.working.hi)) ∧
    ∃ (s : State) (e : AxisEntry), s.part.Ready ∧ (s.part.head 0).activity = .offline ∧
      (s.part.head 0).link.state = .linked ∧ (s.part.head 0).configured .pan = true ∧
      e = { (s.part.head 0).axes.get .pan with restriction := some ⟨9, 9⟩ } ∧
      e.working.hi < e.working.lo :=
  ⟨⟨8#8, 6#8, 9#8, by decide⟩, ⟨0, 0, 1, 0, 0, 0, by decide⟩,
    ⟨on (part .waitCue), ready_part _, part_activity _ 0⟩,
    ⟨on (part .idle), _, ready_part _, part_activity _ 0, by decide +kernel, rfl, by decide +kernel⟩,
    on (Cm8.reset.setHead 0 { driven .offline with
      axes := .const { AxisEntry.reset with headRange := some ⟨0, 8⟩ } }), _, ready_set .., by decide +kernel,
    by decide +kernel, by decide +kernel, rfl, by decide +kernel⟩

/-- A list with a repeated axis, and one out of range by one; a list that fits on a driven head. -/
theorem witness_TrimSetWritesTrims_refusals :
    (∀ t ∈ [[], [(0#8, 1), (0#8, 2)], [(6#8, 0)], [(0#8, 1048576)], ([(5#8, -1048577)] : List (Byte × Int))],
      (∀ x ∈ t, fitsPosition x.2 = true) ∧
        ¬ (1 ≤ t.length ∧ t.length ≤ 6 ∧ (∀ x ∈ t, x.1.toNat < 6) ∧ (t.map Prod.fst).Nodup ∧
          ∀ x ∈ t, -1048576 ≤ x.2 ∧ x.2 ≤ 1048575)) ∧
    ∃ (s : State) (ps : List (Byte × Int)), s.part.Ready ∧ 1 ≤ ps.length ∧ ps.length ≤ 6 ∧
      (∀ t ∈ ps, t.1.toNat < 6) ∧ (ps.map Prod.fst).Nodup ∧
      (∀ t ∈ ps, -1048576 ≤ t.2 ∧ t.2 ≤ 1048575) ∧ (s.part.head 0).link.state = .linked ∧
      (s.part.head 0).activity.isHalted = false :=
  ⟨by decide +kernel, on (part .idle), [(5#8, 1048575), (0#8, -1048576)], ready_part _, by decide,
    by decide, by decide, by decide, by decide, by decide +kernel, by decide +kernel⟩

/-- The axes PAN and TRAVEL, ascending, fit a head that has both; TILT, a descending list and seven pairs do
not. -/
theorem list_fits : ListFits 0x21#6 [(0#8, 1), (5#8, 2)] :=
  ⟨by decide, by decide, by
    intro t ht
    simp only [List.mem_cons, List.not_mem_nil, or_false] at ht
    rcases ht with rfl | rfl
    · exact ⟨.pan, by decide⟩
    · exact ⟨.travel, by decide⟩⟩

theorem list_unfit : ¬ ListFits 0x21#6 [(1#8, 1)] ∧ ¬ ListFits 0x3F#6 [(5#8, 1), (0#8, 2)] ∧
    ¬ ListFits 0x3F#6 (List.replicate 7 (0#8, 0)) := by
  refine ⟨fun h => ?_, fun h => absurd h.rising (by decide), fun h => absurd h.count (by decide)⟩
  obtain ⟨a, e, c⟩ := h.configured _ (List.mem_singleton.2 rfl)
  revert e c
  cases a <;> decide

theorem witness_ShotSetReplacesRecord_refusals :
    (∃ b k d1 d0 q : Byte, 8 ≤ b.toNat ∧ 64 ≤ k.toNat ∧ 4095 < be2 d1 d0 ∧ 2 ≤ q.toNat) ∧
    (∃ d1 d0 : Byte, be2 d1 d0 = 0) ∧
    ∃ (s : State) (ps : List (Byte × Int)), s.part.Ready ∧ (∀ t ∈ ps, fitsPosition t.2 = true) ∧
      ∃ i : Slot, 0#8 = slotByte i ∧ ¬ ListFits (s.part.head i).map.mask ps :=
  ⟨⟨8#8, 64#8, 16#8, 0#8, 2#8, by decide⟩, ⟨0#8, 0#8, by decide⟩, on (part .idle), [(1#8, 1)],
    ready_part _, by decide, 0, by decide, list_unfit.1⟩

/-- An entry out of range in each field; the last index and one past it; a head that moves, jogs or waits. -/
theorem witness_ZonemapCommandsWriteMap_refusals :
    (∀ x ∈ ([(8#8, 0#8, 0, 0), (0#8, 16#8, 0, 0), (0#8, 0#8, 1, 0)] : List (Byte × Byte × Int × Int)),
      (x.1 ≠ 0xFF#8 ∧ fitsPosition x.2.2.1 = true ∧ fitsPosition x.2.2.2 = true) ∧
        ¬ (x.1.toNat < 8 ∧ x.2.1.toNat < 16 ∧ x.2.2.1 ≤ x.2.2.2)) ∧
    (∃ start n : Byte, start.toNat < 32 ∧ 1 ≤ n.toNat ∧ start.toNat + n.toNat = 33) ∧
    (∀ a ∈ [Activity.moving (move 10 4) none, .jogging ⟨.const 0, .const 0, 0⟩, .waitZone (waiting 0)],
      ∃ s : State, s.part.Ready ∧ (s.part.head 0).activity = a) ∧
    ∃ (start n : Byte) (es : List (Option (Byte × Byte × Int × Int))), es.length = n.toNat ∧
      start.toNat < 32 ∧ 1 ≤ n.toNat ∧ n.toNat ≤ 16 ∧ start.toNat + n.toNat = 32 ∧
      ∀ x, some x ∈ es → x.1.toNat < 8 ∧ x.2.1.toNat < 16 ∧ x.2.2.1 ≤ x.2.2.2 :=
  ⟨by decide, ⟨31#8, 2#8, by decide⟩, fun a _ => ⟨on (part a), ready_part a, part_activity a 0⟩,
    31#8, 1#8, [some (7#8, 15#8, 0, 0)], by decide, by decide, by decide, by decide, by decide,
    fun x h => by cases List.mem_singleton.1 h; decide⟩

/-- A field out of range; a driven head of the pair; two addresses that a change to DUPLEX brings together;
a record that does not fit. -/
theorem witness_LineSetWritesSetup_refusals :
    (∃ b m q k v l d1 d0 : Byte, 2 ≤ b.toNat ∧ 2 ≤ m.toNat ∧ 3 ≤ q.toNat ∧ 3 ≤ k.toNat ∧ 2 ≤ v.toNat ∧
      l.toNat < 2 ∧ 4095 < be2 d1 d0) ∧
    (∃ s : State, s.part.Ready ∧ (s.part.head 0).isConfigured = true ∧ (s.part.head 0).map.pair = 0 ∧
      (s.part.head 0).link.state = .linked ∧ (s.part.head 0).activity = .idle) ∧
    (∃ (s : State) (r : LineSetup), s.part.Ready ∧ r.divisor ≤ 4095 ∧ 2 ≤ r.lossTicks ∧
      r.lossTicks ≤ 255 ∧ (∀ i : Slot, (s.part.head i).isConfigured = true →
        ∃ w, (s.part.head i).activity = .halted w) ∧
      (s.part.writeSetup 0 r).lineOf 0 = (s.part.writeSetup 0 r).lineOf 1 ∧
      (s.part.head 0).map.address = (s.part.head 1).map.address) ∧
    ∃ (s : State) (r : LineSetup), s.part.Ready ∧ r.divisor ≤ 4095 ∧ 2 ≤ r.lossTicks ∧
      r.lossTicks ≤ 255 ∧ (s.part.head 0).activity = .halted .command ∧
      (∀ j : Slot, j ≠ 0 → (s.part.head j).isConfigured = false) ∧
      (s.part.writeSetup 0 r).linesFit = false := by
  refine ⟨⟨2#8, 2#8, 3#8, 3#8, 2#8, 1#8, 16#8, 0#8, by decide⟩,
    ⟨on (part .idle), ready_part _, by decide +kernel⟩,
    ⟨on (pairOf2 (.halted .command) 1#8), { LineSetup.reset with lossTicks := 255 }, ready_pairOf2 _ _,
      by decide, by decide, by decide, ?_, by decide +kernel, by decide +kernel⟩,
    on (part (.halted .command)), { LineSetup.reset with divisor := 4095, lossTicks := 2 }, ready_part _,
    by decide, by decide, by decide, by decide +kernel, by decide +kernel, by decide +kernel⟩
  intro i h
  have e : ((pairOf2 (.halted .command) 1#8).head i).isConfigured = true →
      ((pairOf2 (.halted .command) 1#8).head i).activity = .halted .command := by
    revert i
    decide +kernel
  exact ⟨_, e h⟩

/-- A slot with a PROBE pending, as every slot in PROBE has it. -/
theorem witness_ScheduleFillsLine_probe : ∃ c : Cm8, (c.head 0).link.pending = .probe ∧
    (c.head 0).link.headMask = none := ⟨probing, by decide +kernel⟩

/-- A line that does not receive; an address of no slot on a line that does; and of one. -/
theorem witness_ReportTaken_noSlot :
    (∃ (s : State) (st : StoreId), s.part.work = [] ∧ s.part.receives st = false) ∧
    (∃ (s : State) (st : StoreId), s.part.work = [] ∧ s.part.receives st = true ∧
      s.part.slotAt st 2#8 = none) ∧
    ∃ (s : State) (st : StoreId), s.part.slotAt st 1#8 = some 0 :=
  ⟨⟨on (part .idle), ⟨0, .b⟩, rfl, rfl⟩, ⟨on (part .idle), ⟨0, .a⟩, rfl, rfl, by decide +kernel⟩,
    on (part .idle), ⟨0, .a⟩, by decide +kernel⟩

/-- Overrides at both ends of their range and one past them; a presence byte that names them all. -/
theorem witness_QueuedCallsJoinQueue_fields :
    (∃ (o : RawOptions) (p : Byte), o.Named p ∧ o.Fits ∧ p = 0xFF#8) ∧
    (∃ (o : RawOptions) (p : Byte), o.Named p ∧ ¬ o.Fits) ∧
    (∃ (o : RawOptions), o.profile = some 2#8 ∧ ¬ o.Fits) ∧
    ∃ (s : State) (ps : List (Byte × Int)) (i : Slot), s.part.Ready ∧
      (∀ t ∈ ps, fitsPosition t.2 = true) ∧ ¬ ListFits (s.part.head i).map.mask ps := by
  refine ⟨⟨⟨some 0#32, some (15#8, 255#8), some 1#8⟩, 0xFF#8, by unfold RawOptions.Named; decide,
      ⟨fun d h => ?_, fun q h => ?_⟩, rfl⟩,
    ⟨⟨none, some (16#8, 0#8), none⟩, 2#8, by unfold RawOptions.Named; decide,
      fun h => absurd (h.duration _ rfl) (by decide)⟩,
    ⟨⟨none, none, some 2#8⟩, rfl, fun h => absurd (h.profile _ rfl) (by decide)⟩,
    on (part .idle), [(1#8, 1)], 0, ready_part _, by decide, list_unfit.1⟩
  · cases h
    decide
  · cases h
    decide

/-- A call on a head in each state that turns it away, and a PRIORITY call with a cue. -/
theorem witness_QueuedCallsJoinQueue_states :
    (∃ (s : State) (x : Call), s.part.Ready ∧ x.cue ≠ none ∧ x.Fits (s.part.head 0).map.mask .replace) ∧
    (∃ (s : State) (x : Call), s.part.Ready ∧ x.Fits (s.part.head 0).map.mask .replace ∧
      (s.part.head 0).link.state ≠ .linked) ∧
    ∀ a ∈ [Activity.offline, .halted .lost, .jogging ⟨.const 0, .const 0, 0⟩,
        .moving { move 10 4 with cls := .stop } none],
      ∃ (s : State) (x : Call), s.part.Ready ∧ x.Fits (s.part.head 0).map.mask .replace ∧ x.cue = none ∧
        (s.part.head 0).link.state = .linked ∧ (s.part.head 0).activity = a :=
  ⟨⟨on (part .idle), call64 (some 5#32), ready_part _, nofun, fits64 _ (by decide +kernel) _ _ nofun⟩,
    ⟨on (Cm8.reset.setHead 0 { driven .offline with link := Link.reset }), call64 none, ready_set ..,
      fits64 _ (by decide +kernel) _ _ nofun, by decide +kernel⟩,
    fun a _ => ⟨on (part a), call64 none, ready_part a, fits64 _ rfl _ _ nofun, rfl, rfl,
      part_activity a 0⟩⟩

theorem plans_not {x : Except DropReason Planned} {f : DropReason → Bool}
    (h : (match x with | .ok _ => false | .error w => f w) = true) : ∃ w, x = .error w ∧ f w = true := by
  cases x with
  | ok _ => cases h
  | error w => exact ⟨w, rfl, h⟩

/-- A REPLACE and a PRIORITY whose planning fails NO_SHOT, LIMIT and ON_AIR. -/
theorem witness_ReplaceStartsAtOnce_failed : ∀ cls,
    (∃ (c : Cm8), c.Ready ∧ (c.head 0).callable = true ∧
      c.planSource 0 (c.overStart 0) cls (.shot 2) none none 7#8 = .error .noShot) ∧
    (∃ (c : Cm8), c.Ready ∧ (c.head 0).callable = true ∧
      c.planSource 0 (c.overStart 0) cls (.inline [(.pan, 8388607)]) none none 7#8 = .error .limit) ∧
    ∃ (c : Cm8), c.Ready ∧ (c.head 0).callable = true ∧
      c.planSource 0 (c.overStart 0) cls (.inline [(.pan, 64)]) none (some .swift) 7#8 =
        .error .onAir := by
  intro cls
  refine ⟨⟨part .idle, ready_part _, by decide +kernel, ?_⟩, ⟨part .idle, ready_part _, by decide +kernel, ?_⟩,
    ⟨onAir .idle .block, ⟨rfl, rfl, by show 0 < 4; decide⟩, by decide +kernel, ?_⟩⟩
  · obtain ⟨w, e, t⟩ := plans_not (x := (part .idle).planSource 0 ((part .idle).overStart 0) cls (.shot 2)
      none none 7#8) (f := fun w => w = .noShot) (by cases cls <;> decide +kernel)
    rw [e, of_decide_eq_true t]
  · obtain ⟨w, e, t⟩ := plans_not (x := (part .idle).planSource 0 ((part .idle).overStart 0) cls
      (.inline [(.pan, 8388607)]) none none 7#8) (f := fun w => w = .limit)
      (by cases cls <;> decide +kernel)
    rw [e, of_decide_eq_true t]
  · obtain ⟨w, e, t⟩ := plans_not (x := (onAir .idle .block).planSource 0 ((onAir .idle .block).overStart 0)
      cls (.inline [(.pan, 64)]) none (some .swift) 7#8) (f := fun w => w = .onAir)
      (by cases cls <;> decide +kernel)
    rw [e, of_decide_eq_true t]

/-- A waiting move with no place in the queue; a priority move over the floor of another head. -/
theorem witness_PriorityHoldsMove_refusals :
    (∃ (s : State) (x : Call) (w : Waiting), s.part.Ready ∧ (s.part.head 0).callable = true ∧
      x.Fits (s.part.head 0).map.mask .priority ∧ (s.part.head 0).activity = .waitZone w ∧
      8 ≤ (s.part.head 0).queue.length) ∧
    ∃ (s : State) (x : Call) (p : Planned), s.part.Ready ∧ (s.part.head 0).callable = true ∧
      (s.part.head 0).activity = .idle ∧ x.Fits (s.part.head 0).map.mask .priority ∧
      s.part.planSource 0 (s.part.overStart 0) .priority x.source x.duration x.profile x.tag = .ok p ∧
      p.move.zones.getLsbD (3 : Zone).val = true ∧ s.part.holder 3 = some 1 := by
  refine ⟨⟨on (Cm8.reset.setHead 0 { driven (.waitZone (waiting 0)) with
    queue := List.replicate 8 (entry .after none) }), call64 none, waiting 0, ready_set ..,
    by decide +kernel, fits64 _ (by decide +kernel) _ _ fun _ => rfl, by decide +kernel,
    by decide +kernel⟩, ?_⟩
  obtain ⟨p, e, t⟩ := plans_ok (x := ((mapped (part .idle)).giveFree 1 8#16).planSource 0
    (((mapped (part .idle)).giveFree 1 8#16).overStart 0) .priority (.inline [(.pan, 64)]) none none 7#8)
    (f := fun p => p.move.zones.getLsbD 3) (by decide +kernel)
  exact ⟨on ((mapped (part .idle)).giveFree 1 8#16), call64 none, p, ⟨rfl, rfl, by show 0 < 4; decide⟩,
    by decide +kernel, by decide +kernel, fits64 _ (by decide +kernel) _ _ fun _ => rfl, e, t,
    by decide +kernel⟩

/-- A list that fits and one that does not, on a head in each state that turns a jog away. -/
theorem witness_JogRunsOnRefresh_refusals :
    (∃ (s : State) (ps : List (Byte × Int)), s.part.Ready ∧ ListFits (s.part.head 0).map.mask ps ∧
      ¬ ∀ t ∈ ps, -65535 ≤ t.2 ∧ t.2 ≤ 65535) ∧
    (∀ a ∈ [Activity.offline, .halted .lost, .waitCue, .waitZone (waiting 0), .moving (move 10 4) none],
      ∃ (s : State) (ps : List (Byte × Int)), s.part.Ready ∧ ListFits (s.part.head 0).map.mask ps ∧
        (∀ t ∈ ps, -65535 ≤ t.2 ∧ t.2 ≤ 65535) ∧ (s.part.head 0).link.state = .linked ∧
        (s.part.head 0).activity = a) ∧
    ∃ s : State, s.part.Ready ∧ (s.part.head 0).activity = .idle ∧ (s.part.head 0).queue ≠ [] :=
  ⟨⟨on (part .idle), [(0#8, 65536)], ready_part _, ⟨by decide, by decide, fun t h => by
      cases List.mem_singleton.1 h
      exact ⟨.pan, by decide +kernel⟩⟩, by decide⟩,
    fun a _ => ⟨on (part a), [(0#8, 1), (5#8, 2)], ready_part a, list_fits, by decide, rfl,
      part_activity a 0⟩,
    on (Cm8.reset.setHead 0 { driven .idle with queue := [entry .after none] }), ready_set ..,
    by decide +kernel⟩

/-- A slot out of range; a slot that is not LINKED; a HALTED head, LINKED. -/
theorem witness_StopActsByState_refusals : (∃ b : Byte, 8 ≤ b.toNat ∧ b.toNat ≤ 254) ∧
    (∃ s : State, s.part.Ready ∧ (s.part.head 0).link.state ≠ .linked) ∧
    ∃ s : State, s.part.Ready ∧ (s.part.head 0).link.state = .linked ∧
      (s.part.head 0).activity = .halted .lost :=
  ⟨⟨254#8, by decide⟩, ⟨State.reset, ready_reset, by decide +kernel⟩, on (part (.halted .lost)),
    ready_part _, by decide +kernel, part_activity _ 0⟩

/-- A head that is not HALTED, with a queued entry. -/
theorem witness_ClearFreesHaltedHead_queued : ∃ s : State, s.part.Ready ∧
    (s.part.head 0).link.state = .linked ∧ (s.part.head 0).link.reported = true ∧
    (s.part.head 0).activity.isHalted = false ∧ (s.part.head 0).queue ≠ [] :=
  ⟨on (Cm8.reset.setHead 0 { driven .waitCue with queue := [entry .after (some 5#32)] }), ready_set ..,
    by decide +kernel⟩

/-! ### What a tick made ready, and the bound of the run -/

/-- R180: on an idle port the MOVE_DONE that a tick still owes is chosen at that tick, ahead of a later
command's reply, and RESET SOFT does not remove it. -/
theorem test_owed_record_goes_first : ∀ i ∈ [Instr.stopAll 0#8 [], .resetSoft 0#8 []],
    let c := after i (owing (part (.moving (move 10 9) none)) [.motion 0])
    c.port.sending = some (.event ⟨.moveDone (some .inline), 0#32, some 0, some 7#8, 0⟩) ∧
      c.port.replies.length = 1 := by decide +kernel

/-- R168: the run never exceeds 8, after a CLEAR and an overrun report of one interval too. -/
theorem test_run_stays_at_eight :
    ((after (.report ⟨0, .a⟩ 1#8 ([45, 0] ++ encPos 115000 ++ encPos 0)) (Cm8.reset.setHead 0
      { follower 0 with
        track := { (follower 0).track with interval := some ⟨8, false⟩ } })).head 0).track.run = 8 := by
  decide +kernel

/-- A run of 8 and an axis beyond its limit, at the first report of an interval and at an overrun report. -/
theorem witness_TrackerFollowsAndForwards_bound : ∀ n ∈ [7, 8], ∃ (h : Head) (e : HistoryEntry)
      (want : PerAxis Int), (h.track.history.find? fun x => x.seq = 45#8) = some e ∧
      e.positions = some want ∧ e.mask = h.map.mask ∧ h.activity = .idle ∧
      h.track.interval = some ⟨n, false⟩ ∧ h.followCount ≤ min (n + 1) 8 ∧
      (h.axes.get .pan).followLimit < (want.get .pan - 117403).natAbs := by
  intro n hn
  refine ⟨{ follower n with track := { (follower n).track with interval := some ⟨n, false⟩ } },
    ⟨45#8, 0x21#6, some ((PerAxis.const 0).set .pan 121500)⟩, (PerAxis.const 0).set .pan 121500, ?_⟩
  simp only [List.mem_cons, List.not_mem_nil, or_false] at hn
  rcases hn with rfl | rfl <;> exact ⟨rfl, rfl, rfl, rfl, rfl, by decide, by decide +kernel⟩

/-- Frames of the shortest and the longest length, with a CRC that does not match, and with a kind that no head
sends. -/
theorem witness_HeadLineFieldsReadBack_discards : ∀ n ∈ [2, 60], ∃ (len : Byte) (body : List Byte),
    2 ≤ len.toNat ∧ len.toNat ≤ 60 ∧ len.toNat = n ∧
    (∃ rest : List Byte, rest.length = len.toNat + 2 ∧
      rest.drop len.toNat ≠ encW (crc16 (len :: rest.take len.toNat))) ∧
    ∃ (rest more : List Byte), rest.length = len.toNat + 2 ∧
      rest.drop len.toNat = encW (crc16 (len :: rest.take len.toNat)) ∧
      rest = 1#8 :: 0x01#8 :: more ∧ rest.take n = body := by
  intro n hn
  simp only [List.mem_cons, List.not_mem_nil, or_false] at hn
  rcases hn with rfl | rfl
  · refine ⟨2#8, [1#8, 1#8], by decide, by decide, rfl, ⟨[1#8, 1#8, 0#8, 0#8], rfl, by decide +kernel⟩,
      [1#8, 1#8] ++ encW (crc16 [2#8, 1#8, 1#8]), encW (crc16 [2#8, 1#8, 1#8]), ?_⟩
    decide +kernel
  · refine ⟨60#8, [1#8, 1#8] ++ List.replicate 58 0#8, by decide, by decide, rfl,
      ⟨[1#8, 1#8] ++ List.replicate 60 0#8, by decide, by decide +kernel⟩,
      [1#8, 1#8] ++ List.replicate 58 0#8 ++
        encW (crc16 (60#8 :: [1#8, 1#8] ++ List.replicate 58 0#8)),
      List.replicate 58 0#8 ++ encW (crc16 (60#8 :: [1#8, 1#8] ++ List.replicate 58 0#8)), ?_⟩
    decide +kernel

/-- Over a PRIORITY move with a held move behind it. -/
theorem witness_PriorityHoldsMove_priority : ∃ (s : State) (m : Move) (x : Held), s.part.Ready ∧
    (s.part.head 0).callable = true ∧ (s.part.head 0).activity = .moving m (some x) ∧
    m.cls = .priority :=
  ⟨on (part (.moving { move 10 4 with cls := .priority } (some ⟨pan64, 6, some .ease, some .inline, some 8#8,
    0#16⟩))), _, _, ready_part _, by decide +kernel, part_activity _ 0, rfl⟩

/-- A CUED-REPLACE entry that takes over a move. -/
theorem witness_QueueEntriesStart_takesOver : ∃ (s : State) (e : QueueEntry) (p : Planned),
    s.part.work = [.queue 0] ∧ (s.part.head 0).queue = [e] ∧ e.rule = .cuedReplace ∧ e.cue = some 0#32 ∧
    cueCome s.part.clock.frame 0#32 = true ∧ (s.part.head 0).activity = .moving (move 10 4) none ∧
    (let c := { s.part with work := [] }.setQueue 0 []
    c.planEntry 0 (c.overStart 0) e = .ok p) ∧ p.move.zones = 0#16 := by
  obtain ⟨p, e, t⟩ := plans_ok
    (x := ({ owing ((part (.moving (move 10 4) none)).setQueue 0 [entry .cuedReplace (some 0#32)])
      [.queue 0] with work := [] }.setQueue 0 []).planEntry 0
        (({ owing ((part (.moving (move 10 4) none)).setQueue 0 [entry .cuedReplace (some 0#32)])
          [.queue 0] with work := [] }.setQueue 0 []).overStart 0) (entry .cuedReplace (some 0#32)))
    (f := fun p => p.move.zones = 0#16) (by decide +kernel)
  exact ⟨on (owing ((part (.moving (move 10 4) none)).setQueue 0 [entry .cuedReplace (some 0#32)])
    [.queue 0]), entry .cuedReplace (some 0#32), p, rfl, by decide +kernel, rfl, rfl, by decide +kernel,
    by decide +kernel, e, of_decide_eq_true t⟩

/-! ### Stop moves before another head's floor, and the ends of moves -/

/-- The head of worked case 5 of chapter 6, moving along TRAVEL in one direction or the other, with zone 9 of
slot 6 at `range`. -/
def stopping (back : Bool) (range : Span) : Cm8 :=
  let sign : Int := if back then -1 else 1
  let h := { driven (.moving (move 10 4) none) with
    setpoint := (PerAxis.const 0).set .travel (sign * 500000)
    previous := ((PerAxis.const 0).set .travel (sign * 497000)).set .pan (-600)
    axes := ((PerAxis.const AxisEntry.reset).set .pan { AxisEntry.reset with amax := 100 }).set .travel
      { AxisEntry.reset with amax := 200 } }
  let c := { Cm8.reset.setHead 0 h with
    zonemap := (Vector.replicate 32 none).set 0 (some ⟨0, 9, range⟩) }
  c.giveFree 6 512#16

/-- Worked case 5: zone 9 from 515 000 shortens the stop to 14 ticks at 514 999, and PAN to 4 200; from
520 000 it leaves 15 ticks and PAN 4 500. The same with every sign turned. -/
theorem test_stop_before_floor :
    (let n := (stopping false ⟨515000, 540000⟩).planStop 0 (move 10 4);
      n.d = 14 ∧ n.target.get .travel = 514999 ∧ n.target.get .pan = 4200) ∧
    (let n := (stopping false ⟨520000, 540000⟩).planStop 0 (move 10 4);
      n.d = 15 ∧ n.target.get .travel = 519999 ∧ n.target.get .pan = 4500) ∧
    (let n := (stopping true ⟨-540000, -515000⟩).planStop 0 (move 10 4);
      n.d = 14 ∧ n.target.get .travel = -514999 ∧ n.target.get .pan = 4200) ∧
    (let n := (stopping false ⟨522501, 540000⟩).planStop 0 (move 10 4);
      n.d = 15 ∧ n.target.get .travel = 522500) := by decide +kernel

/-- A range that blocks from either side, one that shortens D and one that does not, and one that the stop
does not reach. -/
theorem witness_StopActsByState_blocks : ∀ x ∈ [(false, Span.mk 515000 540000), (false, ⟨520000, 540000⟩),
      (true, ⟨-540000, -515000⟩)],
    let c := stopping x.1 x.2
    let st := (c.head 0).blendStart (move 10 4)
    (∀ a, 1 ≤ ((c.head 0).axes.get a).amax) ∧ (c.head 0).hasTravel = true ∧
    (st.v0.get .travel < 0 ↔ x.1 = true) ∧ st.v0.get .travel ≠ 0 ∧
    c.entriesOf 0 = [⟨0, 9, x.2⟩] ∧ c.heldByOther 0 9 = true ∧
    x.2.meets ⟨min (st.p0.get .travel) (if x.1 then -522500 else 522500),
      max (st.p0.get .travel) (if x.1 then -522500 else 522500)⟩ = true := by
  intro x hx
  simp only [List.mem_cons, List.not_mem_nil, or_false] at hx
  rcases hx with rfl | rfl | rfl <;>
    exact ⟨by intro a; cases a <;> decide +kernel, by decide +kernel, by decide +kernel, by decide +kernel,
      by decide +kernel, by decide +kernel, by decide +kernel⟩

/-- R68: the ordinary completion posts MOVE_DONE and keeps the resident zones alone; a stop move posts
nothing. -/
theorem test_completion :
    (let c := after (.moveCompletion 0) { owing (overZone3 (.moving (move 10 9) none)) [.motion 0] with
      port := { Cm8.reset.port with sending := some (.event (numbered 1)) } }
    c.events.queue = [⟨.moveDone (some .inline), 0#32, some 0, some 7#8, 0⟩] ∧ c.holder 3 = none ∧
      (c.head 0).activity = .idle) ∧
    (after (.moveCompletion 0)
      { owing (part (.moving { move 10 9 with cls := .stop } none)) [.motion 0] with
        port := { Cm8.reset.port with sending := some (.event (numbered 1)) } }).events.queue = [] := by
  decide +kernel

/-- The last tick of a stop move with nothing held. -/
theorem witness_MoveCompletionEndsMove_stop : ∃ (s : State) (m : Move), s.part.work = [.motion 0, .queue 0] ∧
    (s.part.head 0).activity = .moving m none ∧ m.d ≤ m.k + 1 ∧ m.cls = .stop :=
  ⟨on (owing (part (.moving { move 10 9 with cls := .stop } none)) [.motion 0, .queue 0]), _, rfl,
    part_activity _ 0, by decide, rfl⟩

/-- A halted head that holds a zone beyond its resident zones. -/
theorem witness_ClearFreesHaltedHead_frees : ∃ (s : State) (t : PerAxis Int), s.part.Ready ∧
    (s.part.head 0).activity = .halted .follow ∧ (s.part.head 0).track.measured = some t ∧
    (s.part.head 0).queue = [] ∧ s.part.holder 3 = some 0 ∧
    ((s.part.onHead 0 fun h => h.adopt t).residentZones 0).getLsbD (3 : Zone).val = false :=
  ⟨on (overZone3 (.halted .follow)), .const 0, ⟨rfl, rfl, by show 0 < 4; decide⟩, by decide +kernel,
    by decide +kernel, by decide +kernel, by decide +kernel, by decide +kernel⟩

/-- A jog step on free floor and one on a head without TRAVEL; the refresh counts about 12. -/
theorem witness_JogRunsOnRefresh_axes :
    (let c := ahead (.jogging jogAhead);
      (c.head 0).configured .pan = true ∧ (c.head 0).configured .tilt = false ∧
      (c.head 0).hasTravel = true ∧
      (∀ e ∈ c.entriesOf 0, c.holder e.zone = none ∧ c.wanted e.zone = false) ∧
      c.entriesOf 0 ≠ []) ∧
    (∃ c : Cm8, (c.head 0).hasTravel = false) ∧
    (∃ j : Jog, j.refresh + 1 = 11) ∧ ∃ j : Jog, j.refresh + 1 = 12 :=
  ⟨by decide +kernel, ⟨Cm8.reset, by decide +kernel⟩, ⟨⟨.const 4, .const 0, 10⟩, rfl⟩,
    ⟨.const 4, .const 0, 11⟩, rfl⟩

/-- R87, R106: at a refresh count of 11 the PAN command still counts and at 12 it is 0; the previous setpoint
is the one before, and an axis outside the mask stays. -/
theorem test_jog_refresh :
    (let h := ((part .idle).jogTick 0 ⟨(PerAxis.const 0).set .pan 4, .const 0, 10⟩).head 0;
      h.setpoint.get .pan = 4 ∧ h.previous.get .pan = 0 ∧ h.setpoint.get .tilt = 0) ∧
    (((part .idle).jogTick 0 ⟨(PerAxis.const 0).set .pan 4, .const 0, 11⟩).head 0).setpoint.get .pan =
      0 := by
  decide +kernel

/-- An OFFLINE head before its first report, and one that has reported. -/
theorem witness_ReportTaken_first :
    (∃ c : Cm8, (c.head 0).activity = .offline ∧ (c.head 0).link.reported = false) ∧
    (∃ c : Cm8, (c.head 0).activity = .offline ∧ (c.head 0).link.reported = true) ∧
    ∃ c : Cm8, (c.head 0).activity = .idle :=
  ⟨⟨Cm8.reset.setHead 0 { driven .offline with link := { (driven .offline).link with reported := false } },
      by decide +kernel, by decide +kernel⟩,
    ⟨Cm8.reset.setHead 0 { driven .offline with link := { (driven .offline).link with reported := true } },
      by decide +kernel, by decide +kernel⟩, part .idle, part_activity _ 0⟩

/-- The first report of an interval with the servo fault, and an overrun with it. -/
theorem witness_TrackerFollowsAndForwards_order :
    (∃ (c : Cm8) (r : Report), (c.head 0).track.interval = none ∧ r.servoFault = true ∧
      (c.head 0).activity ≠ .offline ∧ (c.head 0).activity.isHalted = false) ∧
    ∃ (c : Cm8) (r : Report) (flag : IntervalFlag), (c.head 0).track.interval = some flag ∧
      r.servoFault = true ∧ (c.head 0).activity ≠ .offline ∧ (c.head 0).activity.isHalted = false :=
  ⟨⟨part .idle, ⟨0#8, true, false, .const 0⟩, by decide +kernel, rfl, by decide +kernel,
      by decide +kernel⟩,
    overrun true, ⟨0#8, true, false, .const 0⟩, ⟨2, true⟩, by decide +kernel, rfl, by decide +kernel,
    by decide +kernel⟩

end Sys2Proof.Tests
end

section
/-! PROOF. The order in which one step takes what waits (log entries 4 and 11). -/

namespace Sys2Proof.Machine

/-- The idle arbiter does not choose while the port sends (R180). -/
theorem Cm8.chooseIdle_of_sending (c : Cm8) (u : Upstream) (h : c.port.sending = some u) :
    c.chooseIdle = c := by
  simp [Cm8.chooseIdle, h]

theorem step_of_pending_cons (s : State) (i : Instr) (rest : List Instr) (h : s.pending = i :: rest) :
    step s = exec i { s with pending := rest } := by
  simp [step, h]

/-- With no command waiting the part does what it owes and chooses (log entry 11). -/
theorem step_of_pending_nil (s : State) (h : s.pending = []) : step s = .next (s.row id) := by
  simp [step, h, idleStep]

theorem step_idle (s : State) (hp : s.pending = []) (hw : s.part.work = []) :
    step s = .next { s with part := s.part.chooseIdle } := by
  rw [step_of_pending_nil s hp, State.row_of_nil s id hw, id]

theorem step_idle_of_sending (s : State) (u : Upstream) (hp : s.pending = []) (hw : s.part.work = [])
    (hu : s.part.port.sending = some u) : step s = .next s := by
  rw [step_idle s hp hw, s.part.chooseIdle_of_sending u hu]

end Sys2Proof.Machine

namespace Sys2Proof

open Sys2Proof.Machine

/-- Settles O1, by the two forms of the queue: a command at its front, and none with no work owed. -/
theorem stepTakesCommandsInOrder : Obligations.StepTakesCommandsInOrder := by
  unfold Obligations.StepTakesCommandsInOrder
  constructor
  · intro i rest s h
    exact step_of_pending_cons s i rest h
  · intro s hp hw
    exact ⟨step_idle s hp hw, fun u hu => step_idle_of_sending s u hp hw hu⟩

end Sys2Proof
end

section
/-! PROOF. Profile arithmetic: rounding to nearest, the bound on the numerator, and the path value of
R100. -/

namespace Sys2Proof.Machine

/-! ### Rounding to nearest, ties away from zero -/

theorem roundDiv_natCast (n d : Nat) : roundDiv n d = ((2 * n + d) / (2 * d) : Nat) := by
  simp [roundDiv]

theorem roundDiv_zero (d : Nat) : roundDiv 0 d = 0 := by
  have hhalf : d / (2 * d) = 0 := by
    rw [Nat.div_eq_zero_iff]
    omega
  simp [roundDiv, hhalf]

/-- Rounding treats the two signs alike. -/
theorem roundDiv_neg (n : Int) (d : Nat) : roundDiv (-n) d = -roundDiv n d := by
  rcases lt_trichotomy n 0 with hneg | rfl | hpos
  · simp [roundDiv, hneg, hneg.le]
  · simp [roundDiv_zero]
  · simp [roundDiv, hpos, hpos.le]

/-- From zero upwards the rounded quotient is the floor of `n / d + 1/2`, times `d` here. -/
theorem roundDiv_natCast_mul_bounds (n : Nat) {d : Nat} (hd : 0 < d) :
    2 * (roundDiv n d * d) ≤ 2 * n + d ∧ (2 * n : Int) < 2 * (roundDiv n d * d) + d := by
  have hfloor : 2 * d * ((2 * n + d) / (2 * d)) + (2 * n + d) % (2 * d) = 2 * n + d :=
    Nat.div_add_mod _ _
  have hrest : (2 * n + d) % (2 * d) < 2 * d := Nat.mod_lt _ (by omega)
  rw [mul_assoc, mul_comm d] at hfloor
  rw [roundDiv_natCast]
  norm_cast
  omega

/-- The rounded quotient is within half a divisor of the numerator, and a tie goes away from zero. -/
theorem roundDiv_nearest (n : Int) {d : Nat} (hd : 0 < d) :
    2 * (n - roundDiv n d * d).natAbs ≤ d ∧
      (2 * (n - roundDiv n d * d).natAbs = d → n.natAbs < (roundDiv n d * d).natAbs) := by
  obtain ⟨m, rfl | rfl⟩ := n.eq_nat_or_neg
  · have hm := roundDiv_natCast_mul_bounds m hd
    omega
  · have hm := roundDiv_natCast_mul_bounds m hd
    rw [roundDiv_neg, neg_mul]
    omega

/-- A multiple of the divisor is divided exactly: no other multiple is within half a divisor. -/
theorem roundDiv_mul_self (q : Int) {d : Nat} (hd : 0 < d) : roundDiv (q * d) d = q := by
  have hnear := (roundDiv_nearest (q * d) hd).1
  rw [← sub_mul, Int.natAbs_mul, Int.natAbs_natCast, ← mul_assoc] at hnear
  have hone : 2 * (q - roundDiv (q * d) d).natAbs ≤ 1 :=
    Nat.le_of_mul_le_mul_right (by rwa [one_mul]) hd
  omega

/-! ### The numerator n(k) -/

/-- At the last tick the velocity part vanishes and the displacement is whole. -/
theorem pathNumerator_end (delta v0 d : Int) : pathNumerator delta v0 d d = delta * d ^ 3 := by
  unfold pathNumerator
  ring

/-- The displacement's coefficient runs from 0 to D³: what is left of D³ is (D - k)² (D + 2k). -/
theorem displacementCoeff_bounds {d k : Int} (hk : 0 ≤ k) (hkd : k ≤ d) :
    0 ≤ k ^ 2 * (3 * d - 2 * k) ∧ k ^ 2 * (3 * d - 2 * k) ≤ d ^ 3 := by
  constructor
  · exact mul_nonneg (sq_nonneg k) (by omega)
  · have hleft : 0 ≤ (d - k) ^ 2 * (d + 2 * k) := mul_nonneg (sq_nonneg _) (by omega)
    linarith only [hleft, show d ^ 3 - k ^ 2 * (3 * d - 2 * k) = (d - k) ^ 2 * (d + 2 * k) by ring]

/-- The velocity's coefficient, D k (D - k)², is at most D⁴. -/
theorem velocityCoeff_bounds {d k : Int} (hk : 0 ≤ k) (hkd : k ≤ d) :
    0 ≤ d * k * (d - k) ^ 2 ∧ d * k * (d - k) ^ 2 ≤ d ^ 4 := by
  have hd : 0 ≤ d := hk.trans hkd
  constructor
  · positivity
  · calc d * k * (d - k) ^ 2 ≤ d * d * d ^ 2 := by
          gcongr
          omega
      _ = d ^ 4 := by ring

/-- |n(k)| ≤ |Δ| D³ + |v0| D⁴. -/
theorem abs_pathNumerator_le (delta v0 : Int) {d k : Int} (hk : 0 ≤ k) (hkd : k ≤ d) :
    |pathNumerator delta v0 d k| ≤ |delta| * d ^ 3 + |v0| * d ^ 4 := by
  obtain ⟨hdisp, hdispLe⟩ := displacementCoeff_bounds hk hkd
  obtain ⟨hvel, hvelLe⟩ := velocityCoeff_bounds hk hkd
  calc |pathNumerator delta v0 d k|
      = |delta * (k ^ 2 * (3 * d - 2 * k)) + v0 * (d * k * (d - k) ^ 2)| := by
        unfold pathNumerator
        ring_nf
    _ ≤ |delta * (k ^ 2 * (3 * d - 2 * k))| + |v0 * (d * k * (d - k) ^ 2)| := abs_add_le _ _
    _ = |delta| * (k ^ 2 * (3 * d - 2 * k)) + |v0| * (d * k * (d - k) ^ 2) := by
        rw [abs_mul delta, abs_mul v0, abs_of_nonneg hdisp, abs_of_nonneg hvel]
    _ ≤ |delta| * d ^ 3 + |v0| * d ^ 4 := by gcongr

/-- With 26-bit operands and a 12-bit duration the two terms stay under 2^61 and 2^73. -/
theorem pathNumerator_natAbs_lt {delta v0 : Int} {d k : Nat} (hkd : k ≤ d)
    (hdelta : delta.natAbs < 2 ^ 25) (hv0 : v0.natAbs < 2 ^ 25) (hd : d < 2 ^ 12) :
    (pathNumerator delta v0 d k).natAbs < 2 ^ 76 := by
  have hle := abs_pathNumerator_le delta v0 (Int.natCast_nonneg k) (Int.ofNat_le.2 hkd)
  simp only [Int.abs_eq_natAbs] at hle
  norm_cast at hle
  calc (pathNumerator delta v0 d k).natAbs
      ≤ delta.natAbs * d ^ 3 + v0.natAbs * d ^ 4 := hle
    _ ≤ 2 ^ 25 * (2 ^ 12) ^ 3 + 2 ^ 25 * (2 ^ 12) ^ 4 := by gcongr
    _ < 2 ^ 76 := by norm_num

/-! ### The path value -/

/-- The quotient that a path value adds to p0 at the last tick is the whole displacement. -/
theorem roundDiv_pathNumerator_end (delta v0 : Int) {d : Nat} (hd : 0 < d) :
    roundDiv (pathNumerator delta v0 d d) (d ^ 3) = delta := by
  rw [pathNumerator_end]
  exact_mod_cast roundDiv_mul_self delta (pow_pos hd 3)

end Sys2Proof.Machine

namespace Sys2Proof

open Sys2Proof.Machine

/-- Settles O52, with the model's own quotient: `roundDiv` of the numerator by D³. -/
theorem pathIsRoundedCubic : Obligations.PathIsRoundedCubic := by
  unfold Obligations.PathIsRoundedCubic
  intro h m k a hk hkd delta v0 n
  have hd : 0 < m.d := Nat.lt_of_lt_of_le hk hkd
  have hn : n = pathNumerator delta v0 m.d k := by
    unfold n pathNumerator
    ring
  obtain ⟨hnear, htie⟩ := roundDiv_nearest n (pow_pos hd 3)
  push_cast at hnear htie
  refine ⟨roundDiv n (m.d ^ 3), hnear, htie, ?path, ?target, ?bits⟩
  case path => rw [hn]; rfl
  case target =>
    rintro rfl
    rw [hn, roundDiv_pathNumerator_end delta v0 hd]
    exact add_sub_cancel _ _
  case bits =>
    rw [hn]
    exact pathNumerator_natAbs_lt hkd

end Sys2Proof
end

section
/-! PROOF. One increment of a statistics counter: its new value and the mark that it posts (R203, R204). -/

namespace Sys2Proof.Machine

/-! ### The 28 counters -/

theorem mem_allStores (st : StoreId) : st ∈ allStores := by
  obtain ⟨p, l⟩ := st
  fin_cases p <;> cases l <;> decide

theorem line_mem_storeCounters (st : StoreId) (k : LineCounter) : .line st k ∈ storeCounters st := by
  cases k <;> simp [storeCounters]

theorem mem_allCounters (id : CounterId) : id ∈ allCounters := by
  cases id with
  | line st k =>
    exact List.mem_append_left _
      (List.mem_flatMap.2 ⟨st, mem_allStores st, line_mem_storeCounters st k⟩)
  | _ => exact List.mem_append_right _ (by decide)

theorem allCounters_length : allCounters.length = 28 := rfl

theorem allCounters_nodup : allCounters.Nodup := by decide

namespace Cm8

variable (c : Cm8) {id : CounterId}

/-- The mode acts at the increment: setting it changes no value (R203). -/
@[simp] theorem counter_withEvents (e : EventUnit) (id : CounterId) :
    { c with events := e }.counter id = c.counter id := by
  cases id <;> rfl

/-! ### One increment -/

theorem bump_of_top_wrap (hv : c.counter id = 0xFFFF#16) (hm : c.events.counterMode = .wrap) :
    c.bump id = c.setCounter id 0#16 := by
  simp [bump, hv, hm]

theorem bump_of_top_saturate (hv : c.counter id = 0xFFFF#16)
    (hm : c.events.counterMode = .saturate) : c.bump id = c := by
  simp [bump, hv, hm]

theorem bump_to_half (hv : c.counter id = 0x7FFF#16) :
    c.bump id = (c.setCounter id 0x8000#16).post none none (.counter id false) := by
  simp [bump, hv]

theorem bump_to_full (hv : c.counter id = 0xFFFE#16) :
    c.bump id = (c.setCounter id 0xFFFF#16).post none none (.counter id true) := by
  simp [bump, hv]

/-- Away from the marks and the top an increment posts nothing: adding one brings no other value to 32 768 or
to 65 535 (R204). -/
theorem bump_of_unmarked (hhalf : c.counter id ≠ 0x7FFF#16) (hfull : c.counter id ≠ 0xFFFE#16)
    (htop : c.counter id ≠ 0xFFFF#16) : c.bump id = c.setCounter id (c.counter id + 1#16) := by
  have hnotHalf : c.counter id + 1#16 ≠ 0x8000#16 := by bv_omega
  have hnotFull : c.counter id + 1#16 ≠ 0xFFFF#16 := by bv_omega
  simp only [bump, htop, hnotHalf, hnotFull, if_false]

/-- WRAP's step from 65 535 to 0 is the same 16-bit addition as every other step, so SATURATE at the top is the
one exception; no record that is posted touches a counter. -/
theorem counter_bump (id b : CounterId) :
    (c.bump id).counter b =
      if b = id ∧ ¬ (c.counter id = 0xFFFF#16 ∧ c.events.counterMode = .saturate) then
        c.counter id + 1#16
      else c.counter b := by
  by_cases htop : c.counter id = 0xFFFF#16
  · cases hm : c.events.counterMode with
    | wrap => simp [bump_of_top_wrap c htop hm, counter_setCounter, htop]
    | saturate => simp [bump_of_top_saturate c htop hm, htop]
  by_cases hhalf : c.counter id = 0x7FFF#16
  · simp [bump_to_half c hhalf, counter_setCounter, hhalf]
  by_cases hfull : c.counter id = 0xFFFE#16
  · simp [bump_to_full c hfull, counter_setCounter, hfull]
  · simp [bump_of_unmarked c hhalf hfull htop, counter_setCounter, htop]

theorem counter_bump_self (h : c.counter id ≠ 0xFFFF#16) :
    (c.bump id).counter id = c.counter id + 1#16 := by
  simp [counter_bump, h]

theorem counter_bump_ne {b : CounterId} (h : b ≠ id) : (c.bump id).counter b = c.counter b := by
  simp [counter_bump, h]

end Cm8

end Sys2Proof.Machine

namespace Sys2Proof

open Sys2Proof.Machine

/-- Settles O43, by the value before the increment: at the top, one below a mark, or neither. -/
theorem counterStepsAndMarks : Obligations.CounterStepsAndMarks := by
  unfold Obligations.CounterStepsAndMarks
  refine ⟨⟨allCounters, allCounters_length, allCounters_nodup, mem_allCounters⟩,
    fun c id mode => c.counter_withEvents _ id, fun c id => ?_⟩
  exact ⟨c.counter_bump_self, c.bump_of_top_wrap, c.bump_of_top_saturate, c.bump_to_half,
    c.bump_to_full, c.bump_of_unmarked, fun _ => c.counter_bump_ne⟩

end Sys2Proof
end

section
/-! PROOF. Every operation of the part keeps its stores within their bounds (R45, R142, R165, R168, R177,
R178, R202). -/

namespace Sys2Proof.Machine

/-! ### The stores of a head, of the Event Unit and of the port -/

/-- The stores of one head within their bounds. -/
structure Head.Bounded (h : Head) : Prop where
  queue : h.queue.length ≤ 8
  history : h.track.history.length ≤ 16
  run : h.track.run ≤ 8
  saved : ∀ x, h.track.interval = some x → x.savedRun ≤ 8

/-- A record with the same queue and tracker is within the same bounds. -/
theorem Head.Bounded.of_eq {h k : Head} (b : h.Bounded) (queue : k.queue = h.queue)
    (track : k.track = h.track) : k.Bounded where
  queue := queue ▸ b.queue
  history := track ▸ b.history
  run := track ▸ b.run
  saved := track ▸ b.saved

/-- The queue of the Event Unit within its bound, and the dropped count in its byte. -/
def EventUnit.Bounded (u : EventUnit) : Prop := u.queue.length ≤ 32 ∧ u.dropped ≤ 255

theorem EventUnit.bounded_enqueue {u : EventUnit} (h : u.Bounded) (r : EventRecord) :
    (u.enqueue r).Bounded := by
  obtain ⟨hq, hd⟩ := h
  unfold enqueue
  split
  · rename_i hlt
    refine ⟨?_, Nat.zero_le _⟩
    simpa [Config.eventQueueMax] using hlt
  · split
    · exact ⟨hq, Nat.min_le_left ..⟩
    · refine ⟨?_, Nat.zero_le _⟩
      simp only [List.length_append, List.length_drop, List.length_cons, List.length_nil]
      omega

/-- The stores of the port within their bounds. -/
def Port.Bounded (p : Port) : Prop := p.replies.length ≤ 4 ∧ p.buffer.length ≤ 4

namespace Cm8

theorem bounded_iff (c : Cm8) : c.Bounded ↔ c.events.Bounded ∧ c.port.Bounded ∧
    (∀ st, (c.store st).pass.length ≤ 8) ∧ ∀ i, (c.head i).Bounded := by
  constructor
  · rintro ⟨he, hd, hr, hb, hp, hq, hh, hrun, hs⟩
    exact ⟨⟨he, hd⟩, ⟨hr, hb⟩, hp, fun i => ⟨hq i, hh i, hrun i, hs i⟩⟩
  · rintro ⟨⟨he, hd⟩, ⟨hr, hb⟩, hp, hh⟩
    exact ⟨he, hd, hr, hb, hp, fun i => (hh i).queue, fun i => (hh i).history, fun i => (hh i).run,
      fun i => (hh i).saved⟩

variable {c : Cm8} (i : Slot)

theorem Bounded.head (h : c.Bounded) (j : Slot) : (c.head j).Bounded :=
  (c.bounded_iff.1 h).2.2.2 j

/-- A part whose stores are those of a bounded part. -/
theorem Bounded.of_eq {d : Cm8} (h : c.Bounded) (events : d.events = c.events) (port : d.port = c.port)
    (store : ∀ st, d.store st = c.store st) (head : ∀ j, d.head j = c.head j) : d.Bounded := by
  rw [bounded_iff] at h ⊢
  simp only [events, port, store, head]
  exact h

theorem bounded_post (h : c.Bounded) (s : Option Slot) (t : Option Byte) (e : Event) :
    (c.post s t e).Bounded := by
  rw [bounded_iff] at h ⊢
  obtain ⟨he, hp, hs, hh⟩ := h
  refine ⟨?_, by simpa using hp, by simpa using hs, by simpa using hh⟩
  unfold post
  split
  · exact EventUnit.bounded_enqueue he _
  · exact he

theorem bounded_onHead (h : c.Bounded) (f : Head → Head) (hf : (f (c.head i)).Bounded) :
    (c.onHead i f).Bounded := by
  rw [bounded_iff] at h ⊢
  obtain ⟨he, hp, hs, hh⟩ := h
  refine ⟨he, hp, hs, fun j => ?_⟩
  rw [head_onHead]
  split
  · exact hf
  · exact hh j

/-- A change of a head that leaves its queue and its tracker. -/
theorem bounded_onHead_of_eq (h : c.Bounded) (f : Head → Head)
    (queue : (f (c.head i)).queue = (c.head i).queue)
    (track : (f (c.head i)).track = (c.head i).track) : (c.onHead i f).Bounded :=
  bounded_onHead i h f ((h.head i).of_eq queue track)

theorem bounded_onStore (h : c.Bounded) (st : StoreId) (f : LineStore → LineStore)
    (hf : (f (c.store st)).pass.length ≤ 8) : (c.onStore st f).Bounded := by
  rw [bounded_iff] at h ⊢
  obtain ⟨he, hp, hs, hh⟩ := h
  refine ⟨by simpa using he, by simpa using hp, fun t => ?_, by simpa using hh⟩
  by_cases e : t = st
  · subst e; simpa using hf
  · simpa [e] using hs t

theorem bounded_setPair (h : c.Bounded) (p : Fin 2) (v : Pair)
    (hv : ∀ l, (v.store l).pass.length ≤ 8) : (c.setPair p v).Bounded := by
  rw [bounded_iff] at h ⊢
  obtain ⟨he, hp, hs, hh⟩ := h
  refine ⟨by simpa using he, by simpa using hp, fun t => ?_, by simpa using hh⟩
  unfold store
  rw [pair_setPair]
  split
  · exact hv _
  · exact hs t

theorem bounded_setCounter (h : c.Bounded) (id : CounterId) (v : BitVec 16) :
    (c.setCounter id v).Bounded := by
  cases id with
  | line st k => exact bounded_onStore h st (fun s => { s with counters := s.counters.set k v }) (h.pass st)
  | _ => exact ⟨h.events, h.dropped, h.replies, h.buffer, h.pass, h.queue, h.history, h.run, h.saved⟩

theorem bounded_setActivity (h : c.Bounded) (a : Activity) : (c.setActivity i a).Bounded :=
  bounded_onHead_of_eq i h _ rfl rfl

theorem bounded_setQueue (h : c.Bounded) (q : List QueueEntry) (hq : q.length ≤ 8) :
    (c.setQueue i q).Bounded :=
  bounded_onHead i h _ ⟨hq, h.history i, h.run i, h.saved i⟩

theorem bounded_onTrack (h : c.Bounded) (f : Tracker → Tracker)
    (history : (f (c.head i).track).history.length ≤ 16) (run : (f (c.head i).track).run ≤ 8)
    (saved : ∀ x, (f (c.head i).track).interval = some x → x.savedRun ≤ 8) :
    (c.onTrack i f).Bounded :=
  bounded_onHead i h _ ⟨h.queue i, history, run, saved⟩

/-- A fold of steps that keep the bounds. -/
theorem bounded_foldl {α : Type} {f : Cm8 → α → Cm8} (step : ∀ {c : Cm8} (a : α), c.Bounded → (f c a).Bounded)
    (l : List α) (h : c.Bounded) : (l.foldl f c).Bounded := by
  induction l generalizing c with
  | nil => exact h
  | cons a l ih => exact ih (step a h)

/-- A fold that counts beside the part. -/
theorem bounded_foldl_fst {α β : Type} {f : Cm8 × β → α → Cm8 × β}
    (step : ∀ (a : Cm8 × β) (x : α), a.1.Bounded → (f a x).1.Bounded) (l : List α) {a : Cm8 × β}
    (h : a.1.Bounded) : (l.foldl f a).1.Bounded := by
  induction l generalizing a with
  | nil => exact h
  | cons x l ih => exact ih (step a x h)

theorem bounded_bump (h : c.Bounded) (id : CounterId) : (c.bump id).Bounded := by
  unfold bump
  dsimp only
  split
  · split
    · exact bounded_setCounter h ..
    · exact h
  · split
    · exact bounded_post (bounded_setCounter h ..) ..
    · split
      · exact bounded_post (bounded_setCounter h ..) ..
      · exact bounded_setCounter h ..

theorem bounded_bumps (h : c.Bounded) (id : CounterId) (n : Nat) : (c.bumps id n).Bounded := by
  induction n generalizing c with
  | zero => exact h
  | succ n ih => exact ih (bounded_bump h id)

theorem bounded_clearOnRead (h : c.Bounded) (ids : List CounterId) : (c.clearOnRead ids).Bounded := by
  unfold clearOnRead
  split
  · exact bounded_foldl (fun id h => bounded_setCounter h id _) ids h
  · exact h

/-! ### Holders and grant passes -/

theorem bounded_withArbiter (h : c.Bounded) (a : Arbiter) : { c with arbiter := a }.Bounded :=
  ⟨h.events, h.dropped, h.replies, h.buffer, h.pass, h.queue, h.history, h.run, h.saved⟩

theorem bounded_withWork (h : c.Bounded) (ws : List Work) : { c with work := ws }.Bounded :=
  ⟨h.events, h.dropped, h.replies, h.buffer, h.pass, h.queue, h.history, h.run, h.saved⟩

theorem bounded_withClock (h : c.Bounded) (t : Timebase) : { c with clock := t }.Bounded :=
  ⟨h.events, h.dropped, h.replies, h.buffer, h.pass, h.queue, h.history, h.run, h.saved⟩

theorem bounded_giveFree (h : c.Bounded) (zs : ZoneSet) : (c.giveFree i zs).Bounded :=
  bounded_withArbiter h _

theorem bounded_freeOutside (h : c.Bounded) (zs : ZoneSet) : (c.freeOutside i zs).Bounded :=
  bounded_withArbiter h _

theorem bounded_recompute (h : c.Bounded) : (c.recompute i).Bounded := by
  unfold recompute
  split
  · exact h
  · exact bounded_freeOutside i h _

theorem bounded_toFree (h : c.Bounded) : (c.toFree i).Bounded := bounded_onHead_of_eq i h _ rfl rfl

theorem bounded_refresh (h : c.Bounded) : (c.refresh i).Bounded := by
  unfold refresh
  split
  · exact bounded_toFree i h
  · exact h

theorem bounded_dropMove (h : c.Bounded) (m : Move) (why : DropReason) :
    (c.dropMove i m why).Bounded := by
  unfold dropMove
  split
  · exact h
  · exact bounded_post h ..

theorem bounded_dropHeld? (h : c.Bounded) (x : Option Held) (why : DropReason) :
    (c.dropHeld? i x why).Bounded := by
  cases x
  · exact h
  · exact bounded_post h ..

theorem bounded_flush (h : c.Bounded) : (c.flush i).Bounded :=
  bounded_setQueue i (bounded_foldl (fun _ h => bounded_post h ..) _ h) _ (Nat.zero_le _)

theorem bounded_makeActive (h : c.Bounded) (m : Move) : (c.makeActive i m).Bounded :=
  bounded_setActivity i (bounded_withWork h _) _

theorem bounded_startMove (h : c.Bounded) (m : Move) (cue : Option (BitVec 32)) :
    (c.startMove i m cue).Bounded :=
  bounded_recompute i (bounded_post (bounded_makeActive i h _) ..)

theorem bounded_handGrant (h : c.Bounded) : (c.handGrant i).Bounded := by
  unfold handGrant
  split
  · exact h
  · dsimp only
    split
    · exact bounded_startMove i (bounded_post h ..) ..
    · exact bounded_recompute i (bounded_toFree i (bounded_dropMove i (bounded_post h ..) ..))

theorem bounded_answerRequest (h : c.Bounded) : (c.answerRequest i).Bounded := by
  unfold answerRequest
  split
  · exact h
  · exact bounded_startMove i h ..

theorem bounded_handOver (r : Option Slot) (h : c.Bounded) : (handOver r c i).Bounded := by
  unfold handOver
  split
  · exact bounded_answerRequest i h
  · exact bounded_handGrant i h

theorem bounded_judge (a : Cm8 × ZoneSet × List Slot) (j : Slot) (h : a.1.Bounded) :
    (judge a j).1.Bounded := by
  unfold judge
  dsimp only
  split
  · exact h
  · split
    · exact bounded_giveFree j h _
    · exact h

theorem bounded_judgePass (h : c.Bounded) : c.judgePass.1.Bounded := by
  have judged (l : List Slot) (a : Arbiter) :
      (l.foldl judge ({ c with arbiter := a }, 0#16, [])).1.Bounded :=
    bounded_foldl_fst bounded_judge l (bounded_withArbiter h a)
  unfold judgePass
  dsimp only
  split
  · exact bounded_withArbiter (judged _ _) _
  · exact judged _ _

theorem bounded_settleN (n : Nat) (h : c.Bounded) : (settleN n c).Bounded := by
  induction n generalizing c with
  | zero => exact h
  | succ n ih =>
    unfold settleN
    split
    · exact ih (bounded_foldl (fun j h => bounded_handOver j none h) _ (bounded_judgePass h))
    · exact h

theorem bounded_settle (h : c.Bounded) : c.settle.Bounded := bounded_settleN 9 h

theorem bounded_grantPass (h : c.Bounded) : c.grantPass.Bounded :=
  bounded_settle (bounded_foldl (fun j h => bounded_handOver j none h) _ (bounded_judgePass h))

/-! ### Requests and take-overs -/

theorem bounded_beginWait (h : c.Bounded) (w : Waiting) : (c.beginWait i w).Bounded :=
  bounded_recompute i (bounded_post h ..)

theorem bounded_request (h : c.Bounded) (p : Planned) (cue : Option (BitVec 32)) (back : QueueEntry) :
    (c.request i p cue back).Bounded := by
  unfold request
  dsimp only
  split
  · exact bounded_settle (bounded_startMove i h ..)
  · have passed (a : Activity) (l : List Slot) :
        (l.foldl (handOver (some i)) (c.setActivity i a).judgePass.1).Bounded :=
      bounded_foldl (fun j h => bounded_handOver j (some i) h) l
        (bounded_judgePass (bounded_setActivity i h a))
    split
    · exact bounded_settle (passed ..)
    · exact bounded_settle (bounded_beginWait i (passed ..) _)

theorem bounded_handOverUntold (r : Slot) (m : Move) (h : c.Bounded) :
    (handOverUntold r m c i).Bounded := by
  unfold handOverUntold
  split
  · exact bounded_recompute i (bounded_makeActive i h m)
  · exact bounded_handGrant i h

theorem bounded_waitTold (h : c.Bounded) (w : Waiting) : (c.waitTold i w).Bounded := by
  unfold waitTold
  dsimp only
  split
  · exact bounded_post (bounded_settle (bounded_recompute i h)) ..
  · exact bounded_settle (bounded_beginWait i h w)

theorem bounded_requestTold (h : c.Bounded) (p : Planned) (back : QueueEntry) :
    (c.requestTold i p back).Bounded := by
  unfold requestTold
  dsimp only
  split
  · exact bounded_post (bounded_settle (bounded_recompute i (bounded_makeActive i h _))) ..
  · have passed (a : Activity) (m : Move) (l : List Slot) :
        (l.foldl (handOverUntold i m) (c.setActivity i a).judgePass.1).Bounded :=
      bounded_foldl (fun j h => bounded_handOverUntold j i m h) l
        (bounded_judgePass (bounded_setActivity i h a))
    split
    · exact bounded_post (bounded_settle (passed ..)) ..
    · exact bounded_waitTold i (passed ..) _

theorem bounded_takeOver (h : c.Bounded) (m : Move) (held : Option Held) :
    (c.takeOver i m held).Bounded :=
  bounded_settle (bounded_recompute i (bounded_setActivity i (bounded_giveFree i h _) _))

theorem bounded_beginStop (h : c.Bounded) (m : Move) : (c.beginStop i m).Bounded :=
  bounded_takeOver i h ..

theorem bounded_restFree (h : c.Bounded) : (c.restFree i).Bounded :=
  bounded_settle (bounded_recompute i (bounded_toFree i h))

theorem bounded_dropDisplaced (h : c.Bounded) : (c.dropDisplaced i).Bounded := by
  unfold dropDisplaced
  split
  · exact bounded_dropHeld? i (bounded_dropMove i h ..) ..
  · exact bounded_dropMove i h ..
  · exact h

theorem bounded_overrideWith (h : c.Bounded) (m : Move) : (c.overrideWith i m).Bounded :=
  bounded_post (bounded_takeOver i (bounded_dropDisplaced i h) ..) ..

/-! ### Halts -/

theorem bounded_enterHalted (h : c.Bounded) (cause : HaltCause) : (c.enterHalted i cause).Bounded := by
  have dropped (a : Activity) : ((c.setActivity i (.halted cause)).dropRecords i a).Bounded := by
    unfold dropRecords
    split
    · exact bounded_dropHeld? i (bounded_dropMove i (bounded_setActivity i h _) ..) ..
    · exact bounded_dropMove i (bounded_setActivity i h _) ..
    · exact bounded_setActivity i h _
  exact bounded_post (bounded_flush i (dropped _)) ..

theorem bounded_haltRequest (h : c.Bounded) (cause : HaltCause) : (c.haltRequest i cause).Bounded := by
  unfold haltRequest
  split
  · split
    · exact bounded_enterHalted i h cause
    · exact h
  · exact h
  · exact bounded_enterHalted i h cause

/-! ### The work of a tick -/

theorem bounded_resume (h : c.Bounded) (x : Held) : (c.resume i x).Bounded := by
  unfold resume
  split
  · exact bounded_restFree i (bounded_post h ..)
  · exact bounded_request i (bounded_post (bounded_onHead_of_eq i h _ rfl rfl) ..) ..

theorem bounded_complete (h : c.Bounded) (m : Move) (held : Option Held) :
    (c.complete i m held).Bounded := by
  have done : (if m.cls = .stop then c else c.post (some i) m.tag (.moveDone m.source)).Bounded := by
    split
    · exact h
    · exact bounded_post h ..
  unfold complete
  dsimp only
  cases held
  · exact bounded_restFree i done
  · exact bounded_resume i done _

theorem bounded_moveTick (h : c.Bounded) (m : Move) (held : Option Held) :
    (c.moveTick i m held).Bounded := by
  unfold moveTick
  dsimp only
  split
  · exact bounded_complete i (bounded_withWork (bounded_onHead_of_eq i h _ rfl rfl) _) ..
  · exact bounded_onHead_of_eq i h _ rfl rfl

theorem bounded_jogTravel (h : c.Bounded) (p q : Int) (n : Nat) : (jogTravel i p q n c).1.Bounded := by
  induction n generalizing c with
  | zero => exact h
  | succ n ih =>
    unfold jogTravel
    split
    · exact h
    · split
      · exact ih (bounded_giveFree i h _)
      · exact h

theorem bounded_jogStep (h : c.Bounded) (j : Jog) : (c.jogStep i j).1.Bounded := by
  have claimed (p q : Int) : (c.jogClaim i p q).1.Bounded := by
    unfold jogClaim
    split
    · exact bounded_jogTravel i h ..
    · exact h
  unfold jogStep
  dsimp only
  exact bounded_onHead_of_eq i (claimed ..) _ rfl rfl

theorem bounded_jogTick (h : c.Bounded) (j : Jog) : (c.jogTick i j).Bounded := by
  unfold jogTick
  dsimp only
  split
  · exact bounded_restFree i (bounded_jogStep i h _)
  · exact bounded_setActivity i (bounded_jogStep i h _) _

theorem bounded_motionStep (h : c.Bounded) : (c.motionStep i).Bounded := by
  unfold motionStep
  split
  · exact bounded_moveTick i h ..
  · exact bounded_jogTick i (bounded_withWork h _) _
  · exact h

theorem bounded_takeEntry (h : c.Bounded) : (c.takeEntry i).Bounded := by
  refine bounded_onHead i h _ ⟨?_, h.history i, h.run i, h.saved i⟩
  exact ((List.drop_sublist 1 _).length_le).trans (h.queue i)

theorem bounded_startEntry (h : c.Bounded) (e : QueueEntry) : (c.startEntry i e).Bounded := by
  unfold startEntry
  dsimp only
  split
  · exact bounded_toFree i (bounded_post (bounded_takeEntry i h) ..)
  · exact bounded_request i (bounded_takeEntry i h) ..

theorem bounded_cuedReplace (h : c.Bounded) (e : QueueEntry) : (c.cuedReplace i e).Bounded := by
  unfold cuedReplace
  dsimp only
  split
  · exact bounded_refresh i (bounded_post (bounded_takeEntry i h) ..)
  · split
    · exact bounded_overrideWith i (bounded_takeEntry i h) _
    · exact bounded_refresh i (bounded_post (bounded_takeEntry i h) ..)

theorem bounded_queueStep (h : c.Bounded) : (c.queueStep i).Bounded := by
  unfold queueStep
  split
  · exact h
  · split
    · exact bounded_startEntry i h _
    · exact bounded_cuedReplace i h _

theorem bounded_softenFails (h : c.Bounded) (m : Move) (held : Option Held) (why : DropReason) :
    (c.softenFails i m held why).Bounded :=
  bounded_beginStop i (bounded_dropHeld? i (bounded_dropMove i h ..) ..) m

theorem bounded_softenStep (h : c.Bounded) : (c.softenStep i).Bounded := by
  unfold softenStep
  split
  · split
    · split
      · exact bounded_softenFails i h ..
      · split
        · exact bounded_post (bounded_takeOver i h ..) ..
        · exact bounded_softenFails i h ..
    · exact h
  · exact h

theorem bounded_timerStep (h : c.Bounded) : (c.timerStep i).Bounded := by
  unfold timerStep
  split
  · exact h
  · split
    · exact bounded_setActivity i h _
    · split
      · exact bounded_restFree i (bounded_dropMove i h ..)
      · exact bounded_setActivity i h _

theorem bounded_pageStep (h : c.Bounded) : (c.pageStep i).Bounded := by
  unfold pageStep
  split
  · exact h
  · split <;> exact bounded_onHead_of_eq i h _ rfl rfl

theorem bounded_lossStep (h : c.Bounded) : (c.lossStep i).Bounded := by
  unfold lossStep
  split
  · exact bounded_post (bounded_onHead_of_eq i (bounded_haltRequest i h _) _ rfl rfl) ..
  · split
    · exact bounded_onHead_of_eq i h _ rfl rfl
    · exact h

theorem bounded_linkHalts (h : c.Bounded) (mask : AxisMask) : (c.linkHalts i mask).Bounded := by
  have judged : (if lacksAxis (c.head i) mask then c.haltRequest i .mismatch else c).Bounded := by
    split
    · exact bounded_haltRequest i h _
    · exact h
  unfold linkHalts
  dsimp only
  split
  · exact bounded_setActivity i h _
  · split
    · exact bounded_haltRequest i judged _
    · exact judged

theorem bounded_enterLinked (h : c.Bounded) : (c.enterLinked i).Bounded := by
  unfold enterLinked
  dsimp only
  refine bounded_linkHalts i ?_ _
  have linked := bounded_onHead_of_eq i h
    (fun k => linkHead k ((c.head i).link.headMask.getD 0#6)) rfl rfl
  split
  · exact bounded_post linked ..
  · exact bounded_post (bounded_post linked ..) ..

theorem bounded_enrolPlaced (h : c.Bounded) : (c.enrolPlaced i).Bounded := by
  unfold enrolPlaced
  dsimp only
  split
  · split
    · exact bounded_enterLinked i h
    · exact bounded_onHead_of_eq i h _ rfl rfl
  · exact h

theorem bounded_place (h : c.Bounded) (st : StoreId) (fs : List LineFrame) : (c.place st fs).Bounded :=
  bounded_onStore h st _ (h.pass st)

theorem bounded_placeEnrol (h : c.Bounded) (st : StoreId) (room : Int) :
    (c.placeEnrol st room).1.Bounded := by
  unfold placeEnrol
  split
  · exact h
  · split
    · exact h
    · split
      · have placed := bounded_place h st [‹_›]
        exact bounded_enrolPlaced _ (bounded_onStore placed st _ (placed.pass st))
      · exact h

theorem pushHistory_length {l : List HistoryEntry} (h : l.length ≤ 16) (e : HistoryEntry) :
    (pushHistory l e).length ≤ 16 := by
  unfold pushHistory
  split
  · simpa [Config.historyMax] using ‹_›
  · simp only [List.length_append, List.length_drop, List.length_cons, List.length_nil]
    omega

theorem bounded_placeSetpoint (h : c.Bounded) (st : StoreId) : (placeSetpoint st c i).Bounded := by
  have placed := bounded_place h st [(c.head i).setpointFrame]
  exact bounded_onHead i placed _
    ⟨placed.queue i, pushHistory_length (placed.history i) _, placed.run i, placed.saved i⟩

theorem takePass_left_length (here : Slot → Bool) (budget : Nat) (room : Int)
    (l : List Machine.PassFrame) : (takePass here budget room l).left.length ≤
      l.length := by
  induction l generalizing room with
  | nil => exact Nat.le_refl _
  | cons f fs ih =>
    unfold takePass
    split
    · exact (ih room).trans (Nat.le_succ _)
    · split
      · exact (ih _).trans (Nat.le_succ _)
      · exact Nat.le_refl _

theorem bounded_placePass (h : c.Bounded) (st : StoreId) (room : Int) : (c.placePass st room).Bounded := by
  refine bounded_bumps (bounded_place (bounded_onStore h st _ ?_) ..) ..
  exact (takePass_left_length ..).trans (h.pass st)

theorem bounded_cutReception (before : LineStore) (h : c.Bounded) (st : StoreId)
    (receiving relined : Bool) : (cutReception before c st receiving relined).Bounded := by
  unfold cutReception
  split
  · exact bounded_bump (bounded_onStore h st _ (h.pass st)) _
  · exact h

theorem bounded_formSchedule (h : c.Bounded) (st : StoreId) (sent : Nat) (receiving relined : Bool) :
    (c.formSchedule st sent receiving relined).Bounded := by
  have setpoints : (c.placeSetpoints st).Bounded :=
    bounded_foldl (fun j h => bounded_placeSetpoint j h st) _ h
  exact bounded_cutReception _ (bounded_placePass (bounded_placeEnrol setpoints ..) ..) ..

theorem bounded_runWork (h : c.Bounded) (w : Work) : (c.runWork w).Bounded := by
  cases w with
  | motion i => exact bounded_motionStep i h
  | queue i => exact bounded_queueStep i h
  | soften i => exact bounded_softenStep i h
  | timer i => exact bounded_timerStep i h
  | pass => exact bounded_withWork (bounded_judgePass h) _
  | handover i => exact bounded_handGrant i h
  | settle => exact bounded_settle h
  | page i => exact bounded_pageStep i h
  | link i => exact bounded_lossStep i h
  | schedule st sent receiving relined => exact bounded_formSchedule h ..
  | announce e => exact bounded_post h ..

theorem bounded_takeWork (h : c.Bounded) (w : Work) : (c.takeWork w).Bounded :=
  bounded_runWork (bounded_withWork h _) w

theorem bounded_runFront (h : c.Bounded) : c.runFront.Bounded := by
  unfold runFront
  split
  · exact h
  · exact bounded_runWork (bounded_withWork h _) _

theorem bounded_advanceN (n : Nat) (h : c.Bounded) : (advanceN n c).Bounded := by
  induction n generalizing c with
  | zero => exact h
  | succ n ih =>
    unfold advanceN
    split
    · exact h
    · split
      · exact h
      · exact ih (bounded_runFront h)

theorem bounded_advance (h : c.Bounded) : c.advance.Bounded := bounded_advanceN _ h

/-- A choice of the arbiter only takes items out of their stores (R180). -/
theorem bounded_choose (h : c.Bounded) : c.choose.Bounded := by
  have hreplies := h.replies
  have hevents := h.events
  unfold choose
  split
  · rename_i r rs hr
    rw [hr] at hreplies
    exact ⟨h.events, h.dropped, (Nat.le_succ _).trans hreplies, h.buffer, h.pass, h.queue, h.history,
      h.run, h.saved⟩
  · split
    · rename_i e es he
      rw [he] at hevents
      exact ⟨(Nat.le_succ _).trans hevents, h.dropped, h.replies, h.buffer, h.pass, h.queue,
        h.history, h.run, h.saved⟩
    · split
      · rename_i j r _
        have taken := bounded_onHead j h
          (fun k => { k with track := { k.track with upstream := none } })
          ⟨h.queue j, h.history j, h.run j, h.saved j⟩
        exact ⟨taken.events, taken.dropped, taken.replies, taken.buffer, taken.pass, taken.queue,
          taken.history, taken.run, taken.saved⟩
      · exact ⟨h.events, h.dropped, h.replies, h.buffer, h.pass, h.queue, h.history, h.run, h.saved⟩

theorem bounded_chooseIdle (h : c.Bounded) : c.chooseIdle.Bounded := by
  unfold chooseIdle
  split
  · exact h
  · exact bounded_choose h

theorem bounded_finishN (n : Nat) (h : c.Bounded) : (finishN n c).Bounded := by
  induction n generalizing c with
  | zero => exact h
  | succ n ih =>
    unfold finishN
    split
    · exact h
    · exact ih (bounded_chooseIdle (bounded_advance (bounded_runFront h)))

theorem bounded_finish (h : c.Bounded) : c.finish.Bounded := bounded_finishN _ h

theorem bounded_closePassN (n : Nat) (h : c.Bounded) : (closePassN n c).Bounded := by
  induction n generalizing c with
  | zero => exact h
  | succ n ih =>
    unfold closePassN
    split
    · exact ih (bounded_runFront h)
    · exact ih (bounded_runFront h)
    · exact h

theorem bounded_closePass (h : c.Bounded) : c.closePass.Bounded := bounded_closePassN _ h

/-! ### Ticks and the rows that are events inside one -/

theorem bounded_sampleTally (tally : SlotSet) (h : c.Bounded) : (sampleTally tally c i).Bounded := by
  unfold sampleTally
  split
  · exact h
  · exact bounded_post (bounded_onHead_of_eq i h _ rfl rfl) ..

theorem bounded_clearIntervals (h : c.Bounded) : c.clearIntervals.Bounded := by
  have b := c.bounded_iff.1 h
  rw [bounded_iff]
  refine ⟨b.1, b.2.1, b.2.2.1, fun i => ?_⟩
  simp only [clearIntervals, head_onHeads]
  exact ⟨h.queue i, h.history i, h.run i, nofun⟩

theorem pass_store_reline (p : Pair) (l : Line) : (p.reline.store l).pass = (p.store l).pass := by
  unfold Pair.reline
  dsimp only
  split <;> cases l <;> rfl

theorem pass_reline (c : Cm8) (st : StoreId) : (c.reline.store st).pass = (c.store st).pass := by
  obtain ⟨p, l⟩ := st
  fin_cases p <;> exact pass_store_reline _ l

theorem bounded_reline (h : c.Bounded) : c.reline.Bounded :=
  ⟨h.events, h.dropped, h.replies, h.buffer, fun st => by rw [pass_reline]; exact h.pass st, h.queue,
    h.history, h.run, h.saved⟩

theorem bounded_tick (h : c.Bounded) (instant : Nat) (inputs : TickInputs) (tail : List Work) :
    (c.tick instant inputs tail).Bounded := by
  have sampled := bounded_foldl (fun j h => bounded_sampleTally j inputs.tally h) Slot.all
    (bounded_withClock h (c.countFrame instant).clock)
  have relined := bounded_reline (bounded_clearIntervals sampled)
  exact bounded_withWork (bounded_foldl (fun j h => bounded_refresh j h) Slot.all relined) _

theorem bounded_takeEvent (h : c.Bounded) (w : Work) (isDue : Cm8 → Bool) :
    (c.takeEvent w isDue).Bounded := by
  unfold takeEvent
  dsimp only
  split
  · exact bounded_chooseIdle (bounded_advance (bounded_takeWork (bounded_closePass h) w))
  · exact h

theorem bounded_takeQueue (h : c.Bounded) (rule : StartRule) : (c.takeQueue rule i).Bounded := by
  have moved : (c.closePass.afterMotion i).Bounded := by
    unfold afterMotion
    split
    · exact bounded_takeWork (bounded_closePass h) _
    · exact bounded_closePass h
  unfold takeQueue
  dsimp only
  split
  · exact bounded_chooseIdle (bounded_advance (bounded_takeWork moved _))
  · exact h

theorem bounded_handUpTo (n : Nat) (h : c.Bounded) : (handUpTo i n c).Bounded := by
  induction n generalizing c with
  | zero => exact h
  | succ n ih =>
    unfold handUpTo
    split
    · split
      · exact bounded_runFront h
      · exact ih (bounded_runFront h)
    · exact h

theorem bounded_passAhead (h : c.Bounded) : c.passAhead.Bounded := by
  have timed : (Slot.all.foldl afterTimer c.closePass).Bounded := by
    refine bounded_foldl (fun {c} j h => ?_) _ (bounded_closePass h)
    unfold afterTimer
    split
    · exact bounded_takeWork h _
    · exact h
  unfold passAhead
  dsimp only
  split
  · exact bounded_takeWork timed _
  · exact timed

theorem bounded_zoneGranted (h : c.Bounded) : (c.zoneGranted i).Bounded := by
  have ahead : (if c.work.contains (.handover i) then c else c.passAhead).Bounded := by
    split
    · exact h
    · exact bounded_passAhead h
  unfold zoneGranted
  generalize (if c.work.contains (.handover i) then c else c.passAhead) = d at ahead
  dsimp only
  split
  · exact bounded_chooseIdle (bounded_advance (bounded_handUpTo i _ ahead))
  · exact h

theorem bounded_syncEdge (h : c.Bounded) (instant : Nat) (inputs : TickInputs) :
    (c.syncEdge instant inputs).Bounded := by
  have locked {c : Cm8} (h : c.Bounded) : (c.lockedEdge instant inputs).Bounded := by
    unfold lockedEdge
    split
    · exact h
    · dsimp only
      split
      · exact bounded_tick (bounded_withClock h _) ..
      · exact bounded_bump h _
  have locking {c : Cm8} (h : c.Bounded) : (c.lockingEdge instant inputs).Bounded := by
    unfold lockingEdge
    dsimp only
    split
    · exact bounded_tick (bounded_withClock h _) ..
    · exact bounded_post (bounded_withClock h _) ..
  have searching {c : Cm8} (h : c.Bounded) : (c.searchingEdge instant inputs).Bounded := by
    unfold searchingEdge
    split
    · exact h
    · split
      · split
        · exact locking h
        · exact bounded_withClock h _
      · exact bounded_withClock h _
  have reached : (c.finish.reach instant).Bounded := bounded_withClock (bounded_finish h) _
  unfold syncEdge
  refine bounded_chooseIdle (bounded_advance (bounded_withClock ?_ _))
  split
  · exact locked reached
  · exact searching reached
  · exact searching reached

theorem bounded_bresenhamTick (h : c.Bounded) (inputs : TickInputs) : (c.bresenhamTick inputs).Bounded := by
  unfold bresenhamTick
  dsimp only
  split
  · exact bounded_chooseIdle (bounded_advance (bounded_tick (bounded_withClock (bounded_finish h) _) ..))
  · exact bounded_chooseIdle (bounded_finish h)

theorem bounded_lossExpiry (h : c.Bounded) (inputs : TickInputs) : (c.lossExpiry inputs).Bounded := by
  unfold lossExpiry
  dsimp only
  split
  · exact bounded_chooseIdle (bounded_advance (bounded_tick (bounded_withClock (bounded_finish h) _) ..))
  · exact bounded_chooseIdle (bounded_finish h)

theorem bounded_freewheelTick (h : c.Bounded) (inputs : TickInputs) : (c.freewheelTick inputs).Bounded := by
  unfold freewheelTick
  dsimp only
  split
  · exact bounded_chooseIdle (bounded_advance (bounded_tick (bounded_finish h) ..))
  · exact bounded_chooseIdle (bounded_finish h)

end Cm8

end Sys2Proof.Machine
end

section
/-! PROOF. What a command of the interpreter can make of the part, said once: the effects that the
invariants of every step are proved from. -/

namespace Sys2Proof.Machine

namespace Cm8

/-- The effects of the commands on the part. A command that is refused or that only reads has the effect
`none`, but for a refused CLEAR, which adopts the measured position (R84). -/
inductive Commanded (c : Cm8) : Cm8 → Prop
  | none : Commanded c c
  | record (i : Slot) (f : Head → Head) (queue : (f (c.head i)).queue = (c.head i).queue)
      (activity : (f (c.head i)).activity = (c.head i).activity)
      (history : (f (c.head i)).track.history = (c.head i).track.history)
      (run : (f (c.head i)).track.run = (c.head i).track.run)
      (interval : (f (c.head i)).track.interval = (c.head i).track.interval) :
      Commanded c (c.onHead i f)
  | counters (ids : List CounterId) : Commanded c (c.clearOnRead ids)
  | remap (i : Slot) (m : HeadMap) : Commanded c (c.remap i m)
  | zonemap (map : Vector (Option ZoneEntry) 32) (still : c.floorBusy = false) :
      Commanded c ({ c with zonemap := map }.rezone).1
  | lines (p : Fin 2) (l : LineSetup) : Commanded c (c.relineSlots p l)
  | policy (p : Policy) : Commanded c { c with policy := p }
  | eventSettings (mode : QueueMode) (kinds : BitVec 64) (counterMode : CounterMode) (clear : Bool) :
      Commanded c { c with
        events := { c.events with
          mode := mode, kinds := kinds, counterMode := counterMode, clearOnRead := clear } }
  | reclock (rate : Fin 8) : Commanded c { c with clock := Cm8.reclock c.clock rate }
  | change (x : TimeChange) : Commanded c (c.setChange x)
  | append (i : Slot) (e : QueueEntry) (room : (c.head i).queue.length < 8) :
      Commanded c ((c.onHead i fun h => { h with queue := h.queue ++ [e] }).refresh i)
  | cued (i : Slot) (e : QueueEntry) : Commanded c (((c.flush i).setQueue i [e]).refresh i)
  | replaceOver (i : Slot) (m : Move) (free : c.obtainable i m.zones = true) :
      Commanded c ((c.flush i).overrideWith i m)
  | replaceFree (i : Slot) (x : Call) (p : Planned) : Commanded c (c.replaceFree i x p).1
  | priority (i : Slot) (m : Move) (cls : m.cls = .priority) (room : c.putBackFull i = false)
      (free : c.obtainable i m.zones = true)
      (unstopped : ∀ n held, (c.head i).activity = .moving n held → n.cls ≠ .stop) :
      Commanded c (c.startPriority i m)
  | jog (i : Slot) (j : Jog) : Commanded c (c.setActivity i (.jogging j))
  | stop (i : Slot) : Commanded c (c.stopHead i)
  | stopAll : Commanded c (Slot.all.foldl stopEach (c, 0)).1
  | halt (i : Slot) : Commanded c (c.haltRequest i .command)
  | haltAll : Commanded c (Slot.all.foldl (haltEach .command) (c, 0)).1
  | clear (i : Slot) (t : PerAxis Int) (halted : (c.head i).activity.isHalted = true) :
      Commanded c (c.clearHalted i t).1
  | release (i : Slot) (halted : (c.head i).activity.isHalted = true) :
      Commanded c (c.freeOutside i 0#16).grantPass
  | mask (m : SlotSet) : Commanded c { c with arbiter := { c.arbiter with mask := m } }.grantPass
  | lowest (i : Slot) (r : Rotation) : Commanded c (c.setLowest i r)
  | reset : Commanded c ((Slot.all.foldl resetHalt (c, 0)).1.resetParts.post .none .none .resetDone)

variable {c : Cm8}

/-- The part after a verdict: as it was when it refuses, and the effect when it accepts. -/
theorem commanded_settle {v : Verdict} (h : ∀ d data, v = .ok (d, data) → Commanded c d) :
    Commanded c (v.settle c).1 := by
  cases v with
  | error why => exact .none
  | ok r => exact h r.1 r.2 rfl

/-- The part that an accepting verdict holds. -/
theorem Verdict.part_eq {d e : Cm8} {data more : List Byte}
    (h : (Except.ok (d, data) : Verdict) = .ok (e, more)) : e = d :=
  (congrArg Prod.fst (Except.ok.inj h)).symm

/-! ### Tables -/

theorem commanded_headmapSet (body : List Byte) : Commanded c (runHeadmapSet body c).1 := by
  refine commanded_settle fun d data h => ?_
  unfold headmapSet remapChecked at h
  dsimp only at h
  repeat' split at h
  all_goals cases h
  exact .remap ..

theorem commanded_headmapGet (body : List Byte) : Commanded c (runHeadmapGet body c).1 := by
  refine commanded_settle fun d data h => ?_
  unfold headmapGet at h
  repeat' split at h
  all_goals cases h
  exact .none

theorem commanded_writeAxis {i : Slot} {a : Axis} {e : AxisEntry} {n : Nat} {d : Cm8} {data : List Byte}
    (h : c.writeAxis i a e n = .ok (d, data)) : Commanded c d := by
  unfold writeAxis at h
  dsimp only at h
  repeat' split at h
  all_goals cases h
  exact .record i _ rfl rfl rfl rfl rfl

theorem commanded_axisSet (body : List Byte) : Commanded c (runAxisSet body c).1 := by
  refine commanded_settle fun d data h => ?_
  unfold axisSet at h
  dsimp only at h
  repeat' split at h
  all_goals first | exact commanded_writeAxis h | cases h

theorem commanded_axisRestrict (body : List Byte) : Commanded c (runAxisRestrict body c).1 := by
  have restricted (s a : Byte) (r : Option Span) (d : Cm8) (data : List Byte)
      (h : c.restrict s a r = .ok (d, data)) : Commanded c d := by
    unfold restrict at h
    dsimp only at h
    repeat' split at h
    all_goals first | exact commanded_writeAxis h | cases h
  refine commanded_settle fun d data h => ?_
  unfold axisRestrict at h
  repeat' split at h
  all_goals first | exact restricted _ _ _ _ _ h | cases h

theorem commanded_axisGet (body : List Byte) : Commanded c (runAxisGet body c).1 := by
  refine commanded_settle fun d data h => ?_
  unfold axisGet at h
  repeat' split at h
  all_goals cases h
  exact .none

theorem commanded_trimSet (body : List Byte) : Commanded c (runTrimSet body c).1 := by
  refine commanded_settle fun d data h => ?_
  unfold trimSet at h
  repeat' split at h
  all_goals cases h
  exact .record _ _ rfl rfl rfl rfl rfl

theorem commanded_shotSet (body : List Byte) : Commanded c (runShotSet body c).1 := by
  refine commanded_settle fun d data h => ?_
  unfold shotSet at h
  repeat' split at h
  all_goals cases h
  exact .record _ _ rfl rfl rfl rfl rfl

theorem commanded_shotGet (body : List Byte) : Commanded c (runShotGet body c).1 := by
  refine commanded_settle fun d data h => ?_
  unfold shotGet at h
  repeat' split at h
  all_goals cases h
  exact .none

theorem commanded_shotErase (body : List Byte) : Commanded c (runShotErase body c).1 := by
  refine commanded_settle fun d data h => ?_
  unfold shotErase at h
  repeat' split at h
  all_goals cases h
  all_goals exact .record _ _ rfl rfl rfl rfl rfl

/-! ### The floor -/

theorem commanded_changeMap {map : Vector (Option ZoneEntry) 32} {d : Cm8} {data : List Byte}
    (h : c.changeMap map = .ok (d, data)) : Commanded c d := by
  unfold changeMap at h
  split at h
  · cases h
  · rename_i still
    rw [Verdict.part_eq h]
    exact .zonemap map (Bool.eq_false_iff.2 still)

theorem commanded_zonemapSet (body : List Byte) : Commanded c (runZonemapSet body c).1 := by
  refine commanded_settle fun d data h => ?_
  unfold zonemapSet at h
  split at h
  · split at h
    · cases h
    · split at h
      · split at h
        · exact commanded_changeMap h
        · cases h
      · cases h
  · cases h

theorem commanded_zonemapClear (body : List Byte) : Commanded c (runZonemapClear body c).1 := by
  refine commanded_settle fun d data h => ?_
  unfold zonemapClear at h
  split at h
  · exact commanded_changeMap h
  · cases h

theorem commanded_zonemapGet (body : List Byte) : Commanded c (runZonemapGet body c).1 := by
  refine commanded_settle fun d data h => ?_
  unfold zonemapGet at h
  repeat' split at h
  all_goals cases h
  exact .none

theorem commanded_releaseZones (body : List Byte) : Commanded c (runReleaseZones body c).1 := by
  refine commanded_settle fun d data h => ?_
  unfold releaseZones at h
  split at h
  · split at h
    · split at h
      · rename_i halted
        cases h
        exact .release _ halted
      · cases h
    · cases h
  · cases h

theorem commanded_zoneMask (body : List Byte) : Commanded c (runZoneMask body c).1 := by
  refine commanded_settle fun d data h => ?_
  unfold zoneMask at h
  split at h
  · cases h
    exact .mask _
  · cases h

theorem commanded_zoneLowest (body : List Byte) : Commanded c (runZoneLowest body c).1 := by
  refine commanded_settle fun d data h => ?_
  unfold zoneLowest at h
  split at h
  · split at h
    · cases h
      exact .lowest ..
    · cases h
  · cases h

theorem commanded_zoneStatus (body : List Byte) : Commanded c (runZoneStatus body c).1 := by
  refine commanded_settle fun d data h => ?_
  unfold zoneStatus at h
  repeat' split at h
  all_goals cases h
  all_goals exact .none

/-! ### Settings -/

theorem commanded_forwardSet (body : List Byte) : Commanded c (runForwardSet body c).1 := by
  refine commanded_settle fun d data h => ?_
  unfold forwardSet at h
  repeat' split at h
  all_goals cases h
  exact .record _ _ rfl rfl rfl rfl rfl

theorem commanded_policySet (body : List Byte) : Commanded c (runPolicySet body c).1 := by
  refine commanded_settle fun d data h => ?_
  unfold policySet at h
  repeat' split at h
  all_goals cases h
  all_goals exact .policy _

theorem commanded_lineSet (body : List Byte) : Commanded c (runLineSet body c).1 := by
  refine commanded_settle fun d data h => ?_
  unfold lineSet setLine at h
  dsimp only at h
  repeat' split at h
  all_goals cases h
  exact .lines ..

theorem commanded_lineGet (body : List Byte) : Commanded c (runLineGet body c).1 := by
  refine commanded_settle fun d data h => ?_
  unfold lineGet at h
  repeat' split at h
  all_goals cases h
  exact .counters _

theorem commanded_clockSet (body : List Byte) : Commanded c (runClockSet body c).1 := by
  refine commanded_settle fun d data h => ?_
  unfold clockSet at h
  repeat' split at h
  all_goals cases h
  exact .reclock _

theorem commanded_clockGet (body : List Byte) : Commanded c (runClockGet body c).1 := by
  refine commanded_settle fun d data h => ?_
  unfold clockGet at h
  split at h
  · cases h
    exact .counters _
  · cases h

theorem commanded_timeSet (body : List Byte) : Commanded c (runTimeSet body c).1 := by
  refine commanded_settle fun d data h => ?_
  unfold timeSet at h
  split at h
  · cases h
    exact .change _
  · cases h

theorem commanded_timeSlew (body : List Byte) : Commanded c (runTimeSlew body c).1 := by
  refine commanded_settle fun d data h => ?_
  unfold timeSlew at h
  split at h
  · cases h
    exact .change _
  · cases h

theorem commanded_eventSet (body : List Byte) : Commanded c (runEventSet body c).1 := by
  refine commanded_settle fun d data h => ?_
  unfold eventSet at h
  dsimp only at h
  repeat' split at h
  all_goals cases h
  all_goals exact .eventSettings ..

theorem commanded_portSet (body : List Byte) : Commanded c (runPortSet body c).1 := by
  unfold runPortSet portSet
  repeat' split
  case isTrue => exact .counters _
  all_goals exact .none

/-! ### Calls -/

theorem commanded_callReplace {i : Slot} {x : Call} {d : Cm8} {data : List Byte}
    (h : c.callReplace i x = .ok (d, data)) : Commanded c d := by
  unfold callReplace replaceOver at h
  split at h
  · cases h
  · split at h
    · split at h
      · rename_i free
        cases h
        exact .replaceOver i _ free
      · cases h
    · cases h
      exact .replaceFree ..

/-- A planning makes a move of the class that it is asked for. -/
theorem plan_cls {i : Slot} {st : Start} {ask : Ask} {m : Move} (h : c.plan i st ask = some m) :
    m.cls = ask.cls := by
  unfold plan at h
  dsimp only at h
  split at h
  · cases h
  · cases h
    rfl

theorem planSource_cls {i : Slot} {st : Start} {cls : MoveClass} {src : Source} {duration : Option Nat}
    {profile : Option Profile} {tag : Byte} {p : Planned}
    (h : c.planSource i st cls src duration profile tag = .ok p) : p.move.cls = cls := by
  unfold planSource at h
  dsimp only at h
  split at h
  · cases h
  · split at h
    · cases h
    · split at h
      · cases h
      · rename_i planned
        cases h
        exact plan_cls planned

theorem commanded_callPriority {i : Slot} {x : Call} {d : Cm8} {data : List Byte}
    (unstopped : ∀ n held, (c.head i).activity = .moving n held → n.cls ≠ .stop)
    (h : c.callPriority i x = .ok (d, data)) : Commanded c d := by
  unfold callPriority at h
  split at h
  · cases h
  · rename_i room
    split at h
    · cases h
    · rename_i planned
      split at h
      · rename_i free
        cases h
        exact .priority i _ (planSource_cls planned) (Bool.eq_false_iff.2 room) free unstopped
      · cases h

theorem commanded_callChecked {i : Slot} {mode : CallMode} {x : Call} {d : Cm8} {data : List Byte}
    (h : c.callChecked i mode x = .ok (d, data)) : Commanded c d := by
  unfold callChecked call at h
  split at h
  · cases h
  · dsimp only at h
    split at h
    · cases h
    · split at h
      · cases h
      · split at h
        · cases h
        · rename_i busy
          unfold callBy at h
          split at h
          · unfold callAppend at h
            split at h
            · cases h
            · rename_i room
              cases h
              exact .append i _ (Nat.lt_of_not_le room)
          · exact commanded_callReplace h
          · cases h
            exact .cued ..
          · refine commanded_callPriority (fun n held moving stopping => busy ?_) h
            simp [moving, callBusy, stopping]

theorem commanded_recallShot (tag : Byte) (body : List Byte) : Commanded c (runRecall tag body c).1 := by
  refine commanded_settle fun d data h => ?_
  unfold recallShot at h
  repeat' split at h
  all_goals first | exact commanded_callChecked h | cases h

theorem commanded_recallInline (tag : Byte) (body : List Byte) :
    Commanded c (runRecallInline tag body c).1 := by
  refine commanded_settle fun d data h => ?_
  unfold recallInline at h
  repeat' split at h
  all_goals first | exact commanded_callChecked h | cases h

/-! ### Motion -/

theorem commanded_jog (body : List Byte) : Commanded c (runJog body c).1 := by
  refine commanded_settle fun d data h => ?_
  unfold jog jogHead at h
  dsimp only at h
  repeat' split at h
  all_goals cases h
  all_goals exact .jog ..

theorem commanded_stop (body : List Byte) : Commanded c (runStop body c).1 := by
  refine commanded_settle fun d data h => ?_
  unfold stop at h
  dsimp only at h
  repeat' split at h
  all_goals cases h
  exact .stop _

theorem commanded_stopAll (body : List Byte) : Commanded c (runStopAll body c).1 := by
  refine commanded_settle fun d data h => ?_
  unfold stopAll at h
  split at h
  · rw [Verdict.part_eq h]
    exact .stopAll
  · cases h

theorem commanded_halt (body : List Byte) : Commanded c (runHalt body c).1 := by
  refine commanded_settle fun d data h => ?_
  unfold halt at h
  split at h
  · split at h
    · rw [Verdict.part_eq h]
      exact .haltAll
    · split at h
      · cases h
      · split at h
        · cases h
        · cases h
          unfold haltEach
          split
          · exact .none
          · exact .halt _
  · cases h

theorem commanded_clear (body : List Byte) : Commanded c (runClear body c).1 := by
  unfold runClear clear
  split
  · split
    · unfold clearSlot
      dsimp only
      split
      · exact .none
      · split
        · exact .none
        · rename_i halted
          split
          · exact .clear _ _ (by rw [halted]; rfl)
          · exact .none
        · exact .none
    · exact .none
  · exact .none

theorem commanded_headStatus (body : List Byte) : Commanded c (runHeadStatus body c).1 := by
  refine commanded_settle fun d data h => ?_
  unfold headStatus at h
  repeat' split at h
  all_goals cases h
  exact .record _ _ rfl rfl rfl rfl rfl

theorem commanded_resetSoft (body : List Byte) : Commanded c (runResetSoft body c).1 := by
  refine commanded_settle fun d data h => ?_
  unfold resetSoft at h
  split at h
  · rw [Verdict.part_eq h]
    exact .reset
  · cases h

/-! ### All commands -/

theorem commanded_runKind (k : CommandKind) (tag : Byte) (body : List Byte) :
    Commanded c (runKind k tag body c).1 := by
  cases k with
  | headmapSet => exact commanded_headmapSet body
  | headmapGet => exact commanded_headmapGet body
  | axisSet => exact commanded_axisSet body
  | axisRestrict => exact commanded_axisRestrict body
  | axisGet => exact commanded_axisGet body
  | trimSet => exact commanded_trimSet body
  | shotSet => exact commanded_shotSet body
  | shotGet => exact commanded_shotGet body
  | shotErase => exact commanded_shotErase body
  | zonemapSet => exact commanded_zonemapSet body
  | zonemapGet => exact commanded_zonemapGet body
  | zonemapClear => exact commanded_zonemapClear body
  | forwardSet => exact commanded_forwardSet body
  | lineSet => exact commanded_lineSet body
  | lineGet => exact commanded_lineGet body
  | policySet => exact commanded_policySet body
  | clockSet => exact commanded_clockSet body
  | clockGet => exact commanded_clockGet body
  | timeSet => exact commanded_timeSet body
  | timeSlew => exact commanded_timeSlew body
  | eventSet => exact commanded_eventSet body
  | portSet => exact commanded_portSet body
  | recallShot => exact commanded_recallShot tag body
  | recallInline => exact commanded_recallInline tag body
  | jog => exact commanded_jog body
  | stop => exact commanded_stop body
  | stopAll => exact commanded_stopAll body
  | halt => exact commanded_halt body
  | clear => exact commanded_clear body
  | releaseZones => exact commanded_releaseZones body
  | zoneMask => exact commanded_zoneMask body
  | zoneLowest => exact commanded_zoneLowest body
  | zoneStatus => exact commanded_zoneStatus body
  | headStatus => exact commanded_headStatus body
  | resetSoft => exact commanded_resetSoft body

theorem commanded_carryOut (kind tag : Byte) (body : List Byte) :
    Commanded c (carryOut kind tag body c).1 := by
  unfold carryOut
  split
  · exact commanded_runKind ..
  · exact .none

end Cm8

end Sys2Proof.Machine
end

section
/-! PROOF. What one step can make of the part, said once for all the rows. -/

namespace Sys2Proof.Machine

namespace Cm8

/-- What the rows and an idle step make of the part. -/
inductive Stepped (c : Cm8) : Cm8 → Prop
  | powerOn : Stepped c .reset
  | bresenham (x : TickInputs) : Stepped c (c.bresenhamTick x)
  | edge (instant : Nat) (x : TickInputs) : Stepped c (c.syncEdge instant x)
  | loss (x : TickInputs) : Stepped c (c.lossExpiry x)
  | freewheel (x : TickInputs) : Stepped c (c.freewheelTick x)
  | event (w : Work) (isDue : Cm8 → Bool) (plain : w ≠ .pass ∧ w.isHandover = false) :
      Stepped c (c.takeEvent w isDue)
  | queue (rule : StartRule) (i : Slot) : Stepped c (c.takeQueue rule i)
  | granted (i : Slot) : Stepped c (c.zoneGranted i)
  | sent (st : StoreId) : Stepped c (c.finish.frameSent st).chooseIdle
  | bad (st : StoreId) : Stepped c (c.finish.lineBad st).chooseIdle
  | report (st : StoreId) (address : Byte) (body : List Byte) :
      Stepped c (c.finish.arriveReport st address body).chooseIdle
  | page (st : StoreId) (address : Byte) (body : List Byte) :
      Stepped c (c.finish.arrivePage st address body).chooseIdle
  | portBad : Stepped c (c.finish.bump .rxBad).chooseIdle
  | frame (instant : Nat) (kind tag : Byte) (body : List Byte) :
      Stepped c ((c.finish.reach instant).commandFrame kind tag body).chooseIdle
  | direct (i : Slot) (body : List Byte) : Stepped c (c.finish.directFrame i body).chooseIdle
  | upstream (instant : Nat) (receiving : Bool) :
      Stepped c ((c.finish.reach instant).upstreamSent receiving).chooseIdle
  | command (kind tag : Byte) (body : List Byte) (run : Cm8 → Cm8 × Answer)
      (commanded : ∀ d, Commanded d (run d).1) :
      Stepped c (c.finish.offer kind tag body run).chooseIdle
  | commandAt (instant : Nat) (kind tag : Byte) (body : List Byte) (run : Cm8 → Cm8 × Answer)
      (commanded : ∀ d, Commanded d (run d).1) :
      Stepped c ((c.reach instant).finish.offer kind tag body run).chooseIdle
  | idle : Stepped c c.finish.chooseIdle

end Cm8

open Cm8

/-- A command of the interpreter by its own row. -/
theorem stepped_command (s : State) (k : CommandKind) (tag : Byte) (body : List Byte)
    (run : Cm8 → Cm8 × Answer) (commanded : ∀ d, Commanded d (run d).1) :
    Stepped s.part (s.command k tag body run).part :=
  .command _ _ _ _ commanded

theorem outcome_part {s t : State} {c : Cm8}
    (h : (.next s : Host.Outcome State Fault Refusal) = .next t) (k : Stepped c s.part) :
    Stepped c t.part :=
  Host.Outcome.next.inj h ▸ k

theorem exec_stepped (i : Instr) (s t : State) (h : exec i s = .next t) : Stepped s.part t.part := by
  cases i with
  | powerOnReset => exact outcome_part h .powerOn
  | bresenhamTick x => exact outcome_part h (.bresenham x)
  | syncEdge n x => exact outcome_part h (.edge n x)
  | lossExpiry x => exact outcome_part h (.loss x)
  | freewheelTick x => exact outcome_part h (.freewheel x)
  | jogRefreshTimeout j => exact outcome_part h (.event (.motion j) (fun c => c.refreshDue j) ⟨nofun, rfl⟩)
  | moveCompletion j => exact outcome_part h (.event (.motion j) (fun c => c.completionDue j) ⟨nofun, rfl⟩)
  | queueEntryStart j => exact outcome_part h (.queue _ j)
  | cuedReplaceActs j => exact outcome_part h (.queue _ j)
  | zoneWaitTimeout j => exact outcome_part h (.event (.timer j) (fun c => c.timeoutDue j) ⟨nofun, rfl⟩)
  | zoneGranted j => exact outcome_part h (.granted j)
  | linkLoss j => exact outcome_part h (.event (.link j) (fun c => c.lossDue j) ⟨nofun, rfl⟩)
  | pageTimeout j => exact outcome_part h (.event (.page j) (fun c => c.due (.page j)) ⟨nofun, rfl⟩)
  | lineFrameSent st => exact outcome_part h (.sent st)
  | lineCharacterGapTimeout st => exact outcome_part h (.bad st)
  | lineBadFrame st why => exact outcome_part h (.bad st)
  | report st a b => exact outcome_part h (.report st a b)
  | page st a b => exact outcome_part h (.page st a b)
  | portCharacterGapTimeout => exact outcome_part h .portBad
  | portBadFrame why => exact outcome_part h .portBad
  | commandFrame n k g b => exact outcome_part h (.frame n k g b)
  | directFrame j b => exact outcome_part h (.direct j b)
  | upstreamFrameSent n r => exact outcome_part h (.upstream n r)
  | unknownKind k g b => exact outcome_part h (.command _ _ _ _ fun _ => commanded_carryOut ..)
  | headmapSet g b => exact outcome_part h (stepped_command _ _ _ _ _ fun _ => commanded_headmapSet b)
  | headmapGet g b => exact outcome_part h (stepped_command _ _ _ _ _ fun _ => commanded_headmapGet b)
  | axisSet g b => exact outcome_part h (stepped_command _ _ _ _ _ fun _ => commanded_axisSet b)
  | axisRestrict g b => exact outcome_part h (stepped_command _ _ _ _ _ fun _ => commanded_axisRestrict b)
  | axisGet g b => exact outcome_part h (stepped_command _ _ _ _ _ fun _ => commanded_axisGet b)
  | trimSet g b => exact outcome_part h (stepped_command _ _ _ _ _ fun _ => commanded_trimSet b)
  | shotSet g b => exact outcome_part h (stepped_command _ _ _ _ _ fun _ => commanded_shotSet b)
  | shotGet g b => exact outcome_part h (stepped_command _ _ _ _ _ fun _ => commanded_shotGet b)
  | shotErase g b => exact outcome_part h (stepped_command _ _ _ _ _ fun _ => commanded_shotErase b)
  | zonemapSet g b => exact outcome_part h (stepped_command _ _ _ _ _ fun _ => commanded_zonemapSet b)
  | zonemapGet g b => exact outcome_part h (stepped_command _ _ _ _ _ fun _ => commanded_zonemapGet b)
  | zonemapClear g b => exact outcome_part h (stepped_command _ _ _ _ _ fun _ => commanded_zonemapClear b)
  | forwardSet g b => exact outcome_part h (stepped_command _ _ _ _ _ fun _ => commanded_forwardSet b)
  | lineSet g b => exact outcome_part h (stepped_command _ _ _ _ _ fun _ => commanded_lineSet b)
  | lineGet g b => exact outcome_part h (stepped_command _ _ _ _ _ fun _ => commanded_lineGet b)
  | policySet g b => exact outcome_part h (stepped_command _ _ _ _ _ fun _ => commanded_policySet b)
  | clockSet n g b =>
    exact outcome_part h (.commandAt n _ _ _ (runClockSet b) fun _ => commanded_clockSet b)
  | clockGet g b => exact outcome_part h (stepped_command _ _ _ _ _ fun _ => commanded_clockGet b)
  | timeSet g b => exact outcome_part h (stepped_command _ _ _ _ _ fun _ => commanded_timeSet b)
  | timeSlew g b => exact outcome_part h (stepped_command _ _ _ _ _ fun _ => commanded_timeSlew b)
  | eventSet g b => exact outcome_part h (stepped_command _ _ _ _ _ fun _ => commanded_eventSet b)
  | portSet g b => exact outcome_part h (stepped_command _ _ _ _ _ fun _ => commanded_portSet b)
  | recallShot g b => exact outcome_part h (stepped_command _ _ _ _ _ fun _ => commanded_recallShot g b)
  | recallInline g b =>
    exact outcome_part h (stepped_command _ _ _ _ _ fun _ => commanded_recallInline g b)
  | jog g b => exact outcome_part h (stepped_command _ _ _ _ _ fun _ => commanded_jog b)
  | stop g b => exact outcome_part h (stepped_command _ _ _ _ _ fun _ => commanded_stop b)
  | stopAll g b => exact outcome_part h (stepped_command _ _ _ _ _ fun _ => commanded_stopAll b)
  | halt g b => exact outcome_part h (stepped_command _ _ _ _ _ fun _ => commanded_halt b)
  | clear g b => exact outcome_part h (stepped_command _ _ _ _ _ fun _ => commanded_clear b)
  | releaseZones g b => exact outcome_part h (stepped_command _ _ _ _ _ fun _ => commanded_releaseZones b)
  | zoneMask g b => exact outcome_part h (stepped_command _ _ _ _ _ fun _ => commanded_zoneMask b)
  | zoneLowest g b => exact outcome_part h (stepped_command _ _ _ _ _ fun _ => commanded_zoneLowest b)
  | zoneStatus g b => exact outcome_part h (stepped_command _ _ _ _ _ fun _ => commanded_zoneStatus b)
  | headStatus g b => exact outcome_part h (stepped_command _ _ _ _ _ fun _ => commanded_headStatus b)
  | resetSoft g b => exact outcome_part h (stepped_command _ _ _ _ _ fun _ => commanded_resetSoft b)

theorem step_stepped (s t : State) (h : step s = .next t) : Stepped s.part t.part := by
  unfold step at h
  split at h
  · exact outcome_part h .idle
  · have stepped := exec_stepped _ _ t h
    exact stepped

/-- An invariant of the part that every row's effect keeps is one of every step. -/
theorem step_keeps {P : Cm8 → Prop} (keeps : ∀ c d : Cm8, P c → Stepped c d → P d) {s t : State}
    (hs : P s.part) (h : step s = .next t) : P t.part :=
  keeps _ _ hs (step_stepped s t h)

end Sys2Proof.Machine
end

section
/-! PROOF. Every step keeps the stores within their bounds. -/

namespace Sys2Proof.Machine

namespace Cm8

variable {c : Cm8} (i : Slot)

/-- Every slot's record after power-on is the power-on record (R2, R45, R65, R92, R151, R164). -/
@[simp] theorem head_reset (i : Slot) : Cm8.reset.head i = .reset := by
  simp [head, Cm8.reset]

/-- Every line store after power-on is the power-on store. -/
@[simp] theorem store_reset (st : StoreId) : Cm8.reset.store st = .reset := by
  obtain ⟨p, l⟩ := st
  fin_cases p <;> cases l <;> rfl

theorem bounded_reset : Cm8.reset.Bounded := by
  rw [bounded_iff]
  refine ⟨⟨Nat.zero_le _, Nat.zero_le _⟩, ⟨Nat.zero_le _, Nat.zero_le _⟩, fun st => ?_, fun i => ?_⟩
  · rw [store_reset]
    exact Nat.zero_le _
  · rw [head_reset]
    exact ⟨Nat.zero_le _, Nat.zero_le _, Nat.zero_le _, nofun⟩

/-! ### Commands -/

theorem bounded_remap (h : c.Bounded) (m : HeadMap) : (c.remap i m).Bounded := by
  have mapped : (c.onHead i fun h => h.remapped m).Bounded :=
    bounded_onHead i h _ ⟨h.queue i, h.history i, Nat.zero_le _, nofun⟩
  unfold remap
  dsimp only
  refine bounded_settle (bounded_freeOutside i (bounded_flush i ?_) _)
  split
  · exact bounded_post mapped ..
  · exact mapped

theorem rezone_fst (c : Cm8) : c.rezone.1 = (Slot.all.foldl rezoneHead (c, 0)).1.settle := by
  rw [rezone]

theorem bounded_rezone (h : c.Bounded) : c.rezone.1.Bounded := by
  have each (a : Cm8 × Nat) (j : Slot) (h : a.1.Bounded) : (rezoneHead a j).1.Bounded := by
    unfold rezoneHead
    dsimp only
    split
    · split
      · exact bounded_giveFree j (bounded_freeOutside j h _) _
      · exact bounded_haltRequest j (bounded_giveFree j (bounded_freeOutside j h _) _) _
    · exact h
  rw [rezone_fst]
  exact bounded_settle (bounded_foldl_fst each Slot.all h)

theorem bounded_dropPass (h : c.Bounded) (st : StoreId) : (c.dropPass st).Bounded :=
  bounded_bumps (bounded_onStore h st _ (Nat.zero_le _)) ..

theorem bounded_relineSlots (h : c.Bounded) (p : Fin 2) (l : LineSetup) : (c.relineSlots p l).Bounded := by
  have written : (c.writeSetup p l).Bounded :=
    bounded_setPair h p _ fun k => by
      have hp := h.pass ⟨p, k⟩
      cases k <;> exact hp
  refine bounded_dropPass (bounded_dropPass (bounded_foldl (fun j h => ?_) _ written) _) _
  unfold unlinkForLine
  dsimp only
  split
  · exact bounded_post (bounded_onHead_of_eq j h _ rfl rfl) ..
  · exact bounded_onHead_of_eq j h _ rfl rfl

theorem bounded_replaceFree (h : c.Bounded) (x : Call) (p : Planned) : (c.replaceFree i x p).1.Bounded :=
  bounded_requestTold i (bounded_toFree i (bounded_dropDisplaced i (bounded_flush i h))) ..

theorem putBackFull_of_waiting {w : Waiting} (h : (c.head i).activity = .waitZone w) :
    c.putBackFull i = decide (8 ≤ (c.head i).queue.length) := by
  simp only [putBackFull, waitingOf, h, Activity.waiting, Option.isSome_some, Bool.true_and]
  rfl

theorem bounded_makeWay (h : c.Bounded) (room : c.putBackFull i = false) : (c.makeWay i).1.Bounded := by
  unfold makeWay
  split
  · split
    · exact bounded_post h ..
    · exact bounded_dropMove i h ..
  · rename_i w waiting
    refine bounded_onHead i h (fun k => { k with queue := w.back :: k.queue })
      ⟨?_, h.history i, h.run i, h.saved i⟩
    rw [putBackFull_of_waiting i waiting] at room
    exact Nat.lt_of_not_le (of_decide_eq_false room)
  · exact h

theorem bounded_stopHead (h : c.Bounded) : (c.stopHead i).Bounded := by
  have flushed := bounded_flush i h
  unfold stopHead stopBy
  split
  · exact bounded_toFree i flushed
  · exact bounded_toFree i flushed
  · exact bounded_restFree i (bounded_dropMove i flushed ..)
  · split
    · exact flushed
    · exact bounded_beginStop i (bounded_dropMove i (bounded_dropHeld? i flushed ..) ..) _
  · exact bounded_setActivity i flushed _
  · exact flushed

theorem bounded_haltEach (cause : HaltCause) (a : Cm8 × Nat) (j : Slot) (h : a.1.Bounded) :
    (haltEach cause a j).1.Bounded := by
  unfold haltEach
  split
  · exact h
  · exact bounded_haltRequest j h cause

theorem bounded_clearHalted (h : c.Bounded) (t : PerAxis Int) : (c.clearHalted i t).1.Bounded := by
  have adopted : (c.onHead i fun h => h.adopt t).Bounded := bounded_onHead_of_eq i h _ rfl rfl
  unfold clearHalted
  dsimp only
  split
  · exact adopted
  · split
    · exact bounded_setActivity i adopted _
    · refine bounded_settle (bounded_giveFree i (bounded_recompute i (bounded_toFree i ?_)) _)
      exact bounded_onHead i adopted _
        ⟨adopted.queue i, adopted.history i, Nat.zero_le _, adopted.saved i⟩

theorem pass_store_resetPair (p : Pair) (l : Line) : ((resetPair p).store l).pass = [] := by
  cases l <;> rfl

theorem bounded_resetParts (h : c.Bounded) : c.resetParts.Bounded := by
  rw [bounded_iff]
  refine ⟨⟨Nat.zero_le _, Nat.zero_le _⟩, ⟨h.replies, h.buffer⟩, fun st => ?_, fun j => ?_⟩
  · obtain ⟨p, l⟩ := st
    have hp (q : Pair) : ((resetPair q).store l).pass.length ≤ 8 := by simp [pass_store_resetPair]
    fin_cases p <;> exact hp _
  · have he : c.resetParts.head j = resetHead (c.head j) := head_onHeads c j fun _ h => resetHead h
    rw [he]
    exact ⟨Nat.zero_le _, h.history j, h.run j, nofun⟩

theorem bounded_commanded {d : Cm8} (h : c.Bounded) (k : Commanded c d) : d.Bounded := by
  cases k with
  | none => exact h
  | record i f queue activity history run interval =>
    exact bounded_onHead i h f ⟨queue ▸ h.queue i, history ▸ h.history i, run ▸ h.run i,
      fun x hx => h.saved i x (interval ▸ hx)⟩
  | counters ids => exact bounded_clearOnRead h ids
  | remap i m => exact bounded_remap i h m
  | zonemap map still => exact bounded_rezone (h.of_eq rfl rfl (fun _ => rfl) fun _ => rfl)
  | lines p l => exact bounded_relineSlots h p l
  | policy p => exact h.of_eq rfl rfl (fun _ => rfl) fun _ => rfl
  | eventSettings mode kinds counterMode clear =>
    exact ⟨h.events, h.dropped, h.replies, h.buffer, h.pass, h.queue, h.history, h.run, h.saved⟩
  | reclock rate => exact bounded_withClock h _
  | change x => exact bounded_withClock h _
  | append i e room =>
    refine bounded_refresh i (bounded_onHead i h _ ⟨?_, h.history i, h.run i, h.saved i⟩)
    simpa using room
  | cued i e => exact bounded_refresh i (bounded_setQueue i (bounded_flush i h) _ (by simp))
  | replaceOver i m free => exact bounded_overrideWith i (bounded_flush i h) m
  | replaceFree i x p => exact bounded_replaceFree i h x p
  | priority i m cls room free unstopped =>
    exact bounded_post (bounded_takeOver i (bounded_makeWay i h room) ..) ..
  | jog i j => exact bounded_setActivity i h _
  | stop i => exact bounded_stopHead i h
  | stopAll =>
    refine bounded_foldl_fst (fun a j h => ?_) Slot.all (a := (c, 0)) h
    unfold stopEach
    split
    · exact bounded_stopHead j h
    · exact h
  | halt i => exact bounded_haltRequest i h _
  | haltAll => exact bounded_foldl_fst (bounded_haltEach _) Slot.all (a := (c, 0)) h
  | clear i t halted => exact bounded_clearHalted i h t
  | release i halted => exact bounded_grantPass (bounded_freeOutside i h _)
  | mask m => exact bounded_grantPass (bounded_withArbiter h _)
  | lowest i r => exact bounded_grantPass (h.of_eq rfl rfl (fun _ => rfl) fun _ => rfl)
  | reset =>
    refine bounded_post (bounded_resetParts (bounded_foldl_fst (fun a j h => ?_) Slot.all (a := (c, 0)) h)) ..
    unfold resetHalt
    split
    · exact bounded_haltEach _ a j h
    · exact h

/-! ### The program port -/

theorem bounded_withBuffer (h : c.Bounded) (l : List CommandFrame) (hl : l.length ≤ 4) :
    { c with port := { c.port with buffer := l } }.Bounded :=
  ⟨h.events, h.dropped, h.replies, hl, h.pass, h.queue, h.history, h.run, h.saved⟩

/-- The queues of the port are as they were. -/
def SamePort (c d : Cm8) : Prop :=
  d.port.replies = c.port.replies ∧ d.port.buffer = c.port.buffer

theorem SamePort.trans {a b c : Cm8} (h : SamePort a b) (k : SamePort b c) : SamePort a c :=
  ⟨k.1.trans h.1, k.2.trans h.2⟩

theorem WorkFrame.samePort {c d : Cm8} (h : WorkFrame c d) : SamePort c d :=
  ⟨congrArg Port.replies h.port, congrArg Port.buffer h.port⟩

theorem SamePort.foldl {α : Type} {f : Cm8 → α → Cm8} (step : ∀ c a, SamePort c (f c a)) (l : List α)
    (c : Cm8) : SamePort c (l.foldl f c) := by
  induction l generalizing c with
  | nil => exact ⟨rfl, rfl⟩
  | cons a l ih => exact (step c a).trans (ih _)

/-- A fold that counts beside the part and stays within the frame of a tick's work. -/
theorem WorkFrame.foldl_fst {α β : Type} {f : Cm8 × β → α → Cm8 × β}
    (step : ∀ a x, WorkFrame a.1 (f a x).1) (l : List α) (a : Cm8 × β) :
    WorkFrame a.1 (l.foldl f a).1 := by
  induction l generalizing a with
  | nil => exact .refl _
  | cons x l ih => exact (step a x).trans (ih _)

theorem samePort_setCounter (c : Cm8) (id : CounterId) (v : BitVec 16) : SamePort c (c.setCounter id v) := by
  cases id with
  | line st k => exact (workFrame_onStore c st _).samePort
  | _ => exact ⟨rfl, rfl⟩

theorem samePort_bump (c : Cm8) (id : CounterId) : SamePort c (c.bump id) := by
  have post (d : Cm8) (h : SamePort c d) (e : Event) : SamePort c (d.post none none e) :=
    h.trans (workFrame_post ..).samePort
  unfold bump
  dsimp only
  split
  · split
    · exact samePort_setCounter ..
    · exact ⟨rfl, rfl⟩
  · split
    · exact post _ (samePort_setCounter ..) _
    · split
      · exact post _ (samePort_setCounter ..) _
      · exact samePort_setCounter ..

theorem workFrame_beginStop (c : Cm8) (m : Move) : WorkFrame c (c.beginStop i m) :=
  workFrame_takeOver ..

theorem workFrame_stopHead (c : Cm8) : WorkFrame c (c.stopHead i) := by
  have flushed := workFrame_flush c i
  unfold stopHead
  refine flushed.trans ?_
  unfold stopBy
  split
  · exact workFrame_toFree ..
  · exact workFrame_toFree ..
  · exact (workFrame_dropMove ..).trans (workFrame_restFree ..)
  · split
    · exact .refl _
    · exact ((workFrame_dropHeld? ..).trans (workFrame_dropMove ..)).trans (workFrame_beginStop ..)
  · exact workFrame_setActivity ..
  · exact .refl _

theorem workFrame_haltEach (cause : HaltCause) (a : Cm8 × Nat) (j : Slot) :
    WorkFrame a.1 (haltEach cause a j).1 := by
  unfold haltEach
  split
  · exact .refl _
  · exact workFrame_haltRequest ..

theorem workFrame_makeWay (c : Cm8) : WorkFrame c (c.makeWay i).1 := by
  unfold makeWay
  split
  · split
    · exact workFrame_post ..
    · exact workFrame_dropMove ..
  · rename_i w _
    exact workFrame_onHead c i (fun k => { k with queue := w.back :: k.queue })
      ⟨rfl, rfl, rfl, rfl, rfl, rfl, rfl⟩
  · exact .refl _

theorem workFrame_dropDisplaced (c : Cm8) : WorkFrame c (c.dropDisplaced i) := by
  unfold dropDisplaced
  split
  · exact (workFrame_dropMove ..).trans (workFrame_dropHeld? ..)
  · exact workFrame_dropMove ..
  · exact .refl c

theorem workFrame_replaceFree (c : Cm8) (x : Call) (p : Planned) : WorkFrame c (c.replaceFree i x p).1 :=
  (((workFrame_flush c i).trans (workFrame_dropDisplaced ..)).trans (workFrame_toFree ..)).trans
    (workFrame_requestTold ..)

theorem workFrame_clearHalted (c : Cm8) (t : PerAxis Int) : WorkFrame c (c.clearHalted i t).1 := by
  have adopted : WorkFrame c (c.onHead i fun h => h.adopt t) :=
    workFrame_onHead c i _ ⟨rfl, rfl, rfl, rfl, rfl, rfl, rfl⟩
  unfold clearHalted
  dsimp only
  split
  · exact adopted
  · split
    · exact adopted.trans (workFrame_setActivity ..)
    · refine adopted.trans (.trans ?_ (workFrame_settle _))
      exact (((workFrame_onHead _ i _ ⟨rfl, rfl, rfl, rfl, rfl, rfl, rfl⟩).trans
        (workFrame_toFree ..)).trans (workFrame_recompute ..)).trans (workFrame_giveFree ..)

theorem samePort_remap (c : Cm8) (m : HeadMap) : SamePort c (c.remap i m) := by
  have mapped : SamePort c (c.onHead i fun h => h.remapped m) := ⟨rfl, rfl⟩
  unfold remap
  dsimp only
  refine SamePort.trans ?_ (((workFrame_flush _ i).trans (workFrame_freeOutside _ i _)).trans
    (workFrame_settle _)).samePort
  split
  · exact mapped.trans (workFrame_post ..).samePort
  · exact mapped

theorem workFrame_rezone (c : Cm8) : WorkFrame c c.rezone.1 := by
  have each (a : Cm8 × Nat) (j : Slot) : WorkFrame a.1 (rezoneHead a j).1 := by
    unfold rezoneHead
    dsimp only
    split
    · split
      · exact (workFrame_freeOutside ..).trans (workFrame_giveFree ..)
      · exact ((workFrame_freeOutside ..).trans (workFrame_giveFree ..)).trans (workFrame_haltRequest ..)
    · exact .refl _
  rw [rezone_fst]
  exact (WorkFrame.foldl_fst each Slot.all (c, 0)).trans (workFrame_settle _)

theorem workFrame_dropPass (c : Cm8) (st : StoreId) : WorkFrame c (c.dropPass st) :=
  (workFrame_onStore c st _).trans (workFrame_bumps ..)

theorem samePort_relineSlots (c : Cm8) (p : Fin 2) (l : LineSetup) : SamePort c (c.relineSlots p l) := by
  have written : SamePort c (c.writeSetup p l) := by simp [SamePort, writeSetup]
  have unlink (c : Cm8) (j : Slot) : SamePort c (c.unlinkForLine j) := by
    unfold unlinkForLine
    dsimp only
    split
    · exact (workFrame_post ..).samePort
    · exact ⟨rfl, rfl⟩
  unfold relineSlots
  dsimp only
  exact (written.trans (SamePort.foldl unlink _ _)).trans
    ((workFrame_dropPass ..).trans (workFrame_dropPass ..)).samePort

/-- No command touches the reply queue or the receive buffer: its reply is placed by the interpreter
(R178). -/
theorem samePort_commanded {c d : Cm8} (k : Commanded c d) : SamePort c d := by
  cases k with
  | counters ids =>
    unfold clearOnRead
    split
    · exact SamePort.foldl (fun c id => samePort_setCounter c id _) ids c
    · exact ⟨rfl, rfl⟩
  | remap i m => exact samePort_remap i c m
  | zonemap map still => exact WorkFrame.samePort (c := { c with zonemap := map }) (workFrame_rezone _)
  | lines p l => exact samePort_relineSlots c p l
  | append i e room => exact (workFrame_refresh _ i).samePort
  | cued i e =>
    exact (((workFrame_flush c i).trans (workFrame_setQueue ..)).trans (workFrame_refresh ..)).samePort
  | replaceOver i m free => exact ((workFrame_flush c i).trans (workFrame_overrideWith ..)).samePort
  | replaceFree i x p => exact (workFrame_replaceFree i c x p).samePort
  | priority i m cls room free unstopped =>
    exact (((workFrame_makeWay i c).trans (workFrame_takeOver ..)).trans (workFrame_post ..)).samePort
  | stop i => exact (workFrame_stopHead i c).samePort
  | stopAll =>
    refine (WorkFrame.foldl_fst (fun a j => ?_) Slot.all (c, 0)).samePort
    unfold stopEach
    split
    · exact workFrame_stopHead j _
    · exact .refl _
  | halt i => exact (workFrame_haltRequest c i _).samePort
  | haltAll => exact (WorkFrame.foldl_fst (workFrame_haltEach _) Slot.all (c, 0)).samePort
  | clear i t h => exact (workFrame_clearHalted i c t).samePort
  | release i h => exact ((workFrame_freeOutside c i _).trans (passFrame_grantPass _).workFrame).samePort
  | mask m =>
    exact (passFrame_grantPass { c with arbiter := { c.arbiter with mask := m } }).workFrame.samePort
  | lowest i r =>
    exact (passFrame_grantPass { c with
      arbiter := { c.arbiter with lowest := i },
      policy := { c.policy with rotation := r } }).workFrame.samePort
  | reset =>
    have halted : WorkFrame c (Slot.all.foldl resetHalt (c, 0)).1 := by
      refine WorkFrame.foldl_fst (fun a j => ?_) Slot.all (c, 0)
      unfold resetHalt
      split
      · exact workFrame_haltEach _ a j
      · exact .refl _
    have parts (e : Cm8) : SamePort e e.resetParts := ⟨rfl, rfl⟩
    exact (halted.samePort.trans (parts _)).trans (workFrame_post ..).samePort
  | _ => exact ⟨rfl, rfl⟩

theorem bounded_answer (h : c.Bounded) (free : c.canAnswer = true) (kind tag : Byte)
    (run : Cm8 → Cm8 × Answer) (k : Commanded c (run c).1) : (c.answer kind tag run).Bounded := by
  have b := bounded_commanded h k
  refine ⟨b.events, b.dropped, ?_, b.buffer, b.pass, b.queue, b.history, b.run, b.saved⟩
  have room : c.port.replies.length < 4 := of_decide_eq_true free
  simpa [answer, (samePort_commanded k).1] using room

theorem bounded_offer (h : c.Bounded) (kind tag : Byte) (body : List Byte) (run : Cm8 → Cm8 × Answer)
    (k : Commanded c (run c).1) : (c.offer kind tag body run).Bounded := by
  unfold offer
  split
  · rename_i free
    exact bounded_answer h (Bool.and_eq_true _ _ ▸ free).2 kind tag run k
  · split
    · rename_i room
      exact bounded_withBuffer h _ (by simpa [Config.receiveBufferMax] using room)
    · exact bounded_bump h _

theorem bounded_commandFrame (h : c.Bounded) (kind tag : Byte) (body : List Byte) :
    (c.commandFrame kind tag body).Bounded := by
  unfold commandFrame
  split
  · exact bounded_offer (bounded_bump h _) _ _ _ _ (commanded_carryOut ..)
  · exact bounded_bump h _

theorem bounded_pumpN (n : Nat) (h : c.Bounded) : (pumpN n c).Bounded := by
  induction n generalizing c with
  | zero => exact h
  | succ n ih =>
    unfold pumpN
    split
    · exact h
    · rename_i f fs buffer
      split
      · rename_i free
        refine ih (bounded_answer (bounded_withBuffer h fs ?_) free _ _ _ (commanded_carryOut ..))
        have hb := h.buffer
        rw [buffer] at hb
        exact (Nat.le_succ _).trans hb
      · exact h

theorem bounded_sentEffect (h : c.Bounded) (u : Upstream) (receiving : Bool) :
    (c.sentEffect u receiving).Bounded := by
  have set (n : PortSettings) (x : Option (List Byte)) :
      { c with port := { c.port with settings := n, incoming := x } }.Bounded :=
    ⟨h.events, h.dropped, h.replies, h.buffer, h.pass, h.queue, h.history, h.run, h.saved⟩
  unfold sentEffect
  split
  · dsimp only
    split
    · exact bounded_bump (set _ _) _
    · exact set _ _
  · exact h

theorem bounded_upstreamSent (h : c.Bounded) (receiving : Bool) : (c.upstreamSent receiving).Bounded := by
  unfold upstreamSent
  split
  · exact h
  · exact bounded_pumpN _ (bounded_choose (bounded_sentEffect h _ receiving))

/-! ### Head lines -/

theorem bounded_frameSent (h : c.Bounded) (st : StoreId) : (c.frameSent st).Bounded := by
  unfold frameSent
  split
  · exact h
  · exact bounded_bump (bounded_onStore h st _ (h.pass st)) _

theorem bounded_lineBad (h : c.Bounded) (st : StoreId) : (c.lineBad st).Bounded := by
  unfold lineBad
  split
  · exact bounded_bump h _
  · exact h

/-- The sixth test of R143 is that the PASS queue has a free place. -/
theorem pass_room_of_passes {body : List Byte} (h : c.directFails i body = false) :
    (c.store (c.lineOf i)).pass.length < 8 := by
  unfold directFails at h
  dsimp only at h
  split at h
  · cases h
  · exact Nat.lt_of_not_le (of_decide_eq_false ((Bool.or_eq_false_iff.1 h).2))

theorem bounded_directFrame (h : c.Bounded) (body : List Byte) : (c.directFrame i body).Bounded := by
  have counted := bounded_bump h .rxOk
  unfold directFrame filterDirect
  dsimp only
  split
  · exact bounded_bump counted _
  · rename_i passes
    have room := pass_room_of_passes i (Bool.eq_false_iff.2 passes)
    exact bounded_onStore counted _ _ (by simpa using room)

theorem bounded_firstReport (h : c.Bounded) (r : Report) : (c.firstReport i r).Bounded := by
  have placed : (c.onHead i fun h => (h.adopt r.measured).settleSetpoint).Bounded :=
    bounded_onHead_of_eq i h _ rfl rfl
  unfold firstReport
  dsimp only
  split
  · exact bounded_haltRequest i placed _
  · split
    · exact bounded_haltRequest i placed _
    · exact bounded_toFree i (bounded_giveFree i placed _)

theorem bounded_setRun (h : c.Bounded) (n : Nat) (hn : n ≤ 8) :
    (c.onTrack i fun t => { t with run := n }).Bounded :=
  bounded_onTrack i h _ (h.history i) hn (h.saved i)

theorem bounded_followStep (h : c.Bounded) (r : Report) : (c.followStep i r).Bounded := by
  have cleared {d : Cm8} (h : d.Bounded) :
      (if r.localControl then d.onTrack i fun t => { t with run := 0 } else d).Bounded := by
    split
    · exact bounded_setRun i h 0 (Nat.zero_le _)
    · exact h
  unfold followStep
  dsimp only
  split
  · exact cleared (bounded_bump h _)
  · split
    · exact cleared h
    · rename_i want _
      have run : followRun (c.head i) r want ≤ 8 := by
        unfold followRun
        split
        · exact Nat.min_le_right ..
        · exact Nat.zero_le _
      have checked := bounded_setRun i h _ run
      split
      · exact bounded_haltRequest i checked _
      · exact checked

theorem bounded_placeReport (h : c.Bounded) (r : Report) (stale : Bool) :
    (c.placeReport i r stale).Bounded :=
  bounded_onTrack i h _ (h.history i) (h.run i) (h.saved i)

theorem bounded_offerReport (h : c.Bounded) (r : Report) (stale : Bool) (saved : Nat) (hs : saved ≤ 8) :
    (c.offerReport i r stale saved).Bounded := by
  have marked {d : Cm8} (h : d.Bounded) (forwarded : Bool) :
      (d.onTrack i fun t => { t with interval := some ⟨saved, forwarded⟩ }).Bounded :=
    bounded_onTrack i h _ (h.history i) (h.run i) (by rintro x ⟨⟩; exact hs)
  have decimated (n : Nat) : (c.onTrack i fun t => { t with decimation := n }).Bounded :=
    bounded_onTrack i h _ (h.history i) (h.run i) (h.saved i)
  unfold offerReport
  dsimp only
  split
  · exact marked h _
  · split
    · exact marked (bounded_placeReport i (decimated 0) ..) _
    · exact marked (decimated _) _

theorem bounded_storeReport (h : c.Bounded) (r : Report) : (c.storeReport i r).Bounded := by
  have stored := bounded_onTrack i h
    (fun t => { t with measured := some r.measured, servoFault := r.servoFault,
                       localControl := r.localControl })
    (h.history i) (h.run i) (h.saved i)
  unfold storeReport
  dsimp only
  split
  · exact bounded_haltRequest i stored _
  · exact stored

theorem bounded_trackReport (h : c.Bounded) (r : Report) : (c.trackReport i r).Bounded := by
  unfold trackReport
  split
  · exact bounded_offerReport i (bounded_followStep i (bounded_storeReport i h r) r) _ _ _ (h.run i)
  · rename_i flag interval
    have followed := bounded_followStep i
      (bounded_setRun i (bounded_storeReport i (bounded_bump h (.line (c.lineOf i) .overrun)) r)
        flag.savedRun (h.saved i flag interval)) r
    unfold trackOverrun
    dsimp only
    split
    · exact bounded_placeReport i followed ..
    · exact followed

theorem bounded_arriveReport (h : c.Bounded) (st : StoreId) (address : Byte) (body : List Byte) :
    (c.arriveReport st address body).Bounded := by
  have linked {d : Cm8} (i : Slot) (h : d.Bounded) (r : Report) : (d.linkedReport i r).Bounded := by
    have noted : (d.onHead i fun h => { h with link := { h.link with loss := 0, reported := true } }).Bounded :=
      bounded_onHead_of_eq i h _ rfl rfl
    unfold linkedReport
    dsimp only
    split
    · exact bounded_trackReport i (bounded_firstReport i noted r) r
    · exact bounded_trackReport i noted r
  unfold arriveReport
  split
  · split
    · exact bounded_bump h _
    · split
      · exact bounded_bump h _
      · dsimp only
        split
        · exact linked _ (bounded_bump h _) _
        · exact bounded_bump h _
  · exact h

theorem bounded_arrivePage (h : c.Bounded) (st : StoreId) (address : Byte) (body : List Byte) :
    (c.arrivePage st address body).Bounded := by
  unfold arrivePage
  split
  · split
    · exact bounded_bump h _
    · exact bounded_onHead_of_eq _ (bounded_bump h _) _ rfl rfl
  · exact h

theorem bounded_stepped {d : Cm8} (h : c.Bounded) (k : Stepped c d) : d.Bounded := by
  have finished := bounded_finish h
  have reached (n : Nat) : (c.finish.reach n).Bounded := bounded_withClock finished _
  cases k with
  | powerOn => exact bounded_reset
  | bresenham x => exact bounded_bresenhamTick h x
  | edge n x => exact bounded_syncEdge h n x
  | loss x => exact bounded_lossExpiry h x
  | freewheel x => exact bounded_freewheelTick h x
  | event w isDue plain => exact bounded_takeEvent h w isDue
  | queue rule i => exact bounded_takeQueue i h rule
  | granted i => exact bounded_zoneGranted i h
  | sent st => exact bounded_chooseIdle (bounded_frameSent finished st)
  | bad st => exact bounded_chooseIdle (bounded_lineBad finished st)
  | report st a b => exact bounded_chooseIdle (bounded_arriveReport finished st a b)
  | page st a b => exact bounded_chooseIdle (bounded_arrivePage finished st a b)
  | portBad => exact bounded_chooseIdle (bounded_bump finished _)
  | frame n k t b => exact bounded_chooseIdle (bounded_commandFrame (reached n) k t b)
  | direct i b => exact bounded_chooseIdle (bounded_directFrame i finished b)
  | upstream n r => exact bounded_chooseIdle (bounded_upstreamSent (reached n) r)
  | command k t b run commanded =>
    exact bounded_chooseIdle (bounded_offer finished k t b run (commanded _))
  | commandAt n k t b run commanded =>
    exact bounded_chooseIdle
      (bounded_offer (bounded_finish (bounded_withClock h _)) k t b run (commanded _))
  | idle => exact bounded_chooseIdle finished

end Cm8

end Sys2Proof.Machine

namespace Sys2Proof

open Sys2Proof.Machine

/-- Settles O4: the bounds are an invariant of every effect that a row can have on the part. -/
theorem stepKeepsStoresBounded : Obligations.StepKeepsStoresBounded :=
  fun _ _ => step_keeps fun _ _ => Cm8.bounded_stepped

end Sys2Proof
end

section
/-! PROOF. What a tick delivers: F, the sampled tallies with their records, the interval flags, the line
setups, the free heads, and the work that it owes (R16, R30, R50, R148, R170). -/

namespace Sys2Proof.Machine

/-! ### Records told one after the other -/

theorem EventUnit.told_nil (u : EventUnit) (f : BitVec 32) : u.told f [] = u := rfl

theorem EventUnit.told_append (u : EventUnit) (f : BitVec 32)
    (l k : List (Option Slot × Option Byte × Event)) : u.told f (l ++ k) = (u.told f l).told f k :=
  List.foldl_append

namespace Cm8

/-- A posting is one record told at the present frame count. -/
theorem events_post (c : Cm8) (s : Option Slot) (t : Option Byte) (e : Event) :
    (c.post s t e).events = c.events.told c.clock.frame [(s, t, e)] := by
  unfold post EventUnit.told
  simp only [List.foldl_cons, List.foldl_nil]
  split <;> rfl

variable (c : Cm8)

/-! ### A step for each slot -/

/-- A fold of steps that each change one head, by a rule that needs the head and the time alone. -/
theorem head_foldl {f : Cm8 → Slot → Cm8} {g : Slot → Head → Head} (t : Timebase)
    (clock : ∀ c i, (f c i).clock = c.clock)
    (head : ∀ c i j, c.clock = t → (f c i).head j = if j = i then g i (c.head i) else c.head j)
    {l : List Slot} (hl : l.Nodup) (h : c.clock = t) (j : Slot) :
    (l.foldl f c).head j = if j ∈ l then g j (c.head j) else c.head j := by
  induction l generalizing c with
  | nil => simp
  | cons i l ih =>
    obtain ⟨hi, hl⟩ := List.nodup_cons.1 hl
    rw [List.foldl_cons, ih _ hl ((clock c i).trans h), head c i j h]
    by_cases e : j = i
    · subst e
      simp [hi]
    · simp [e]

theorem foldl_field {α β : Type} {f : Cm8 → α → Cm8} (field : Cm8 → β)
    (same : ∀ c a, field (f c a) = field c) (l : List α) (c : Cm8) : field (l.foldl f c) = field c := by
  induction l generalizing c with
  | nil => rfl
  | cons a l ih => rw [List.foldl_cons, ih, same]

/-! ### The sampling of the tallies (R16) -/

/-- A head with its tally sampled. -/
def sampled (tally : SlotSet) (i : Slot) (h : Head) : Head :=
  { h with
    tally := tally.getLsbD i.val, tallyChanged := h.tallyChanged || h.tally != tally.getLsbD i.val }

variable (tally : SlotSet) (i j : Slot)

theorem head_sampleTally : (sampleTally tally c i).head j =
    if j = i then sampled tally i (c.head i) else c.head j := by
  unfold sampleTally sampled
  split
  · rename_i same
    split
    · rename_i e
      subst e
      rw [← same, bne_self_eq_false, Bool.or_false]
    · rfl
  · rename_i changed
    rw [head_post, head_onHead, bne_iff_ne.2 changed, Bool.or_true]

theorem clock_sampleTally : (sampleTally tally c i).clock = c.clock := by
  unfold sampleTally
  split
  · rfl
  · rw [clock_post]
    rfl

/-- The TALLY record of a slot whose level differs from the one sampled before. -/
def tallyRecord (i : Slot) : Option Slot × Option Byte × Event :=
  (some i, none, .tally (tally.getLsbD i.val))

theorem events_sampleTally : (sampleTally tally c i).events =
    if (c.head i).tally != tally.getLsbD i.val then
      c.events.told c.clock.frame [tallyRecord tally i]
    else c.events := by
  unfold sampleTally
  split
  · rename_i same
    simp [same]
  · rename_i changed
    have hne : ((c.head i).tally != tally.getLsbD i.val) = true := by simpa using changed
    rw [events_post, if_pos hne]
    rfl

theorem events_foldl_sampleTally {l : List Slot} (hl : l.Nodup) :
    (l.foldl (sampleTally tally) c).events = c.events.told c.clock.frame
      ((l.filter fun i => (c.head i).tally != tally.getLsbD i.val).map (tallyRecord tally)) := by
  induction l generalizing c with
  | nil => rfl
  | cons i l ih =>
    obtain ⟨hi, hl⟩ := List.nodup_cons.1 hl
    have rest : (l.filter fun j => ((sampleTally tally c i).head j).tally != tally.getLsbD j.val) =
        l.filter fun j => (c.head j).tally != tally.getLsbD j.val := by
      refine List.filter_congr fun j hj => ?_
      have e : j ≠ i := fun e => hi (e ▸ hj)
      rw [head_sampleTally, if_neg e]
    rw [List.foldl_cons, ih _ hl, rest, events_sampleTally, clock_sampleTally]
    by_cases changed : ((c.head i).tally != tally.getLsbD i.val) = true
    · rw [if_pos changed, List.filter_cons, if_pos changed, List.map_cons,
        ← EventUnit.told_append]
      rfl
    · rw [if_neg changed, List.filter_cons, if_neg changed]

/-! ### The free heads (R50) -/

/-- A free head with its state set afresh. -/
def refreshed (f : BitVec 32) (h : Head) : Head :=
  { h with activity := match h.activity with
    | .idle => freeActivity f h.queue
    | .waitCue => freeActivity f h.queue
    | a => a }

theorem head_refresh : (c.refresh i).head j =
    if j = i then refreshed c.clock.frame (c.head i) else c.head j := by
  unfold refresh
  split
  · rename_i free
    rw [toFree, head_onHead]
    split
    · unfold refreshed
      cases h : (c.head i).activity <;> simp [h, Activity.isFree] at free ⊢ <;> rfl
    · rfl
  · rename_i busy
    split
    · rename_i e
      subst e
      unfold refreshed
      cases h : (c.head j).activity <;> simp [h, Activity.isFree] at busy ⊢ <;> rw [← h]
    · rfl

theorem clock_refresh : (c.refresh i).clock = c.clock := (workFrame_refresh c i).clock

theorem refresh_fields : (c.refresh i).events = c.events ∧ (c.refresh i).pair0 = c.pair0 ∧
    (c.refresh i).pair1 = c.pair1 ∧ (c.refresh i).arbiter = c.arbiter ∧
    (c.refresh i).zonemap = c.zonemap ∧ (c.refresh i).policy = c.policy ∧
    (c.refresh i).port = c.port := by
  unfold refresh
  split <;> exact ⟨rfl, rfl, rfl, rfl, rfl, rfl, rfl⟩

theorem sampleTally_fields : (sampleTally tally c i).pair0 = c.pair0 ∧
    (sampleTally tally c i).pair1 = c.pair1 ∧ (sampleTally tally c i).arbiter = c.arbiter ∧
    (sampleTally tally c i).zonemap = c.zonemap ∧ (sampleTally tally c i).policy = c.policy ∧
    (sampleTally tally c i).port = c.port := by
  unfold sampleTally
  split
  · exact ⟨rfl, rfl, rfl, rfl, rfl, rfl⟩
  · simp

/-! ### The whole tick -/

variable (instant : Nat) (x : TickInputs) (tail : List Work)

/-- A head as a tick leaves it. -/
def tickHead (f : BitVec 32) (tally : SlotSet) (i : Slot) (h : Head) : Head :=
  refreshed f { sampled tally i h with track := { h.track with interval := none } }

/-- What `tick` does before the work, for the slots of a list. -/
@[irreducible] def atTick (l : List Slot) : Cm8 :=
  l.foldl refresh (l.foldl (sampleTally x.tally) (c.countFrame instant)).clearIntervals.reline

theorem tick_eq : c.tick instant x tail =
    { c.atTick instant x Slot.all with work := c.tickWork (c.rising x.tally) x tail } := by
  unfold tick atTick
  rfl

variable (l : List Slot)

theorem clock_atTick : (c.atTick instant x l).clock = (c.countFrame instant).clock := by
  unfold atTick
  rw [foldl_field clock clock_refresh]
  exact foldl_field clock (clock_sampleTally · x.tally) l _

theorem head_atTick {l : List Slot} (hl : l.Nodup) (hj : j ∈ l) : (c.atTick instant x l).head j =
    tickHead (c.countFrame instant).clock.frame x.tally j (c.head j) := by
  have taken := head_foldl (c.countFrame instant) (g := sampled x.tally) _
    (clock_sampleTally · x.tally) (fun c i j _ => head_sampleTally c x.tally i j) hl rfl j
  rw [if_pos hj] at taken
  have reclaimed (e : Cm8) : e.clearIntervals.reline.head j =
      { e.head j with track := { (e.head j).track with interval := none } } :=
    head_onHeads e j fun _ h => { h with track := { h.track with interval := none } }
  have clock : (l.foldl (sampleTally x.tally) (c.countFrame instant)).clearIntervals.reline.clock =
      (c.countFrame instant).clock :=
    foldl_field clock (clock_sampleTally · x.tally) l _
  unfold atTick
  rw [head_foldl _ (g := fun _ => refreshed (c.countFrame instant).clock.frame)
    (c.countFrame instant).clock clock_refresh (fun d i j h => h ▸ head_refresh d i j) hl clock,
    if_pos hj, reclaimed, taken]
  rfl

theorem events_atTick {l : List Slot} (hl : l.Nodup) : (c.atTick instant x l).events =
    c.events.told (c.countFrame instant).clock.frame
      ((l.filter fun i => (c.head i).tally != x.tally.getLsbD i.val).map (tallyRecord x.tally)) := by
  unfold atTick
  rw [foldl_field events fun c i => (refresh_fields c i).1]
  exact events_foldl_sampleTally (c.countFrame instant) x.tally hl

theorem pair_atTick (p : Fin 2) : (c.atTick instant x l).pair p = (c.pair p).reline := by
  have h0 : (c.atTick instant x l).pair0 = c.pair0.reline := by
    unfold atTick
    rw [foldl_field pair0 fun c i => (refresh_fields c i).2.1]
    exact congrArg Pair.reline
      (foldl_field pair0 (fun c i => (sampleTally_fields c x.tally i).1) l _)
  have h1 : (c.atTick instant x l).pair1 = c.pair1.reline := by
    unfold atTick
    rw [foldl_field pair1 fun c i => (refresh_fields c i).2.2.1]
    exact congrArg Pair.reline
      (foldl_field pair1 (fun c i => (sampleTally_fields c x.tally i).2.1) l _)
  fin_cases p
  · exact h0
  · exact h1

theorem rest_atTick : (c.atTick instant x l).arbiter = c.arbiter ∧
    (c.atTick instant x l).zonemap = c.zonemap ∧ (c.atTick instant x l).policy = c.policy ∧
    (c.atTick instant x l).port = c.port := by
  have swept := refresh_fields
  have taken := fun c i => sampleTally_fields c x.tally i
  unfold atTick
  refine ⟨?_, ?_, ?_, ?_⟩
  · rw [foldl_field arbiter fun c i => (swept c i).2.2.2.1]
    exact foldl_field arbiter (fun c i => (taken c i).2.2.1) l _
  · rw [foldl_field zonemap fun c i => (swept c i).2.2.2.2.1]
    exact foldl_field zonemap (fun c i => (taken c i).2.2.2.1) l _
  · rw [foldl_field policy fun c i => (swept c i).2.2.2.2.2.1]
    exact foldl_field policy (fun c i => (taken c i).2.2.2.2.1) l _
  · rw [foldl_field port fun c i => (swept c i).2.2.2.2.2.2]
    exact foldl_field port (fun c i => (taken c i).2.2.2.2.2) l _

/-- The logical lines are store A of each pair, and store B where the pair is SPLIT (R133). -/
theorem lines_eq : c.lines = allStores.filter fun st => decide (st.line = .a) ||
    decide ((c.pair st.pair).setup.mode = .split) := by
  have h0 : c.setup 0 = (c.pair 0).setup := rfl
  have h1 : c.setup 1 = (c.pair 1).setup := rfl
  unfold lines
  rw [h0, h1]
  cases h : (c.pair 0).setup.mode <;> cases k : (c.pair 1).setup.mode <;>
    simp [allStores, pairLines, h, k]

/-- A tick delivers what R30 asks for, with any change of the clock that leaves F. -/
theorem delivers_tick (k e : Timebase) (announced : List Event)
    (he : e.frame = ({ c.finish with clock := k }.countFrame instant).clock.frame) :
    c.Delivers
      { { c.finish with clock := k }.tick instant x (announced.map .announce) with clock := e } x
      announced := by
  rw [tick_eq]
  generalize hd : { c.finish with clock := k } = d at he ⊢
  have hhead (i : Slot) : d.head i = c.finish.head i := hd ▸ rfl
  have hpair (p : Fin 2) : d.pair p = c.finish.pair p := hd ▸ rfl
  have heads (i : Slot) := head_atTick d i instant x Slot.nodup_all (Slot.mem_all i)
  have events := events_atTick d instant x Slot.nodup_all
  have pairs := pair_atTick d instant x Slot.all
  have rest := rest_atTick d instant x Slot.all
  rw [← he] at events
  simp only [← he, hhead] at heads events
  generalize d.atTick instant x Slot.all = a at heads events pairs rest ⊢
  constructor
  case work =>
    have lines := lines_eq d
    simp only [hpair] at lines
    show arrange x.order (plainWork d (d.rising x.tally) x (announced.map .announce)) = _
    unfold plainWork rising
    rw [lines]
    simp only [hhead, hpair]
    rfl
  case heads => exact heads
  case events =>
    rw [show d.events = c.finish.events from hd ▸ rfl] at events
    exact events
  case pairs => exact fun p => (pairs p).trans (congrArg Pair.reline (hpair p))
  case rest =>
    subst hd
    exact rest

end Cm8

end Sys2Proof.Machine
end

section
/-! PROOF. What the pieces of a tick's work have in common, and that doing them comes to an end (log entry
1). -/

namespace Sys2Proof.Machine

namespace Cm8

/-- What the pieces of a tick's work other than a pass have in common: they add no work, though they may
skip some, the Event Unit only meets records, and time and the line setups stay. -/
structure Worked (c d : Cm8) : Prop where
  work : d.work.Sublist c.work
  events : ∃ l, d.events = c.events.told c.clock.frame l
  clock : d.clock = c.clock
  setups : ∀ p : Fin 2, (d.pair p).setup = (c.pair p).setup ∧ (d.pair p).inForce = (c.pair p).inForce ∧
    (d.pair p).relined = (c.pair p).relined

theorem Worked.refl (c : Cm8) : Worked c c := ⟨.refl _, ⟨[], rfl⟩, rfl, fun _ => ⟨rfl, rfl, rfl⟩⟩

theorem Worked.trans {a b c : Cm8} (h : Worked a b) (k : Worked b c) : Worked a c where
  work := k.work.trans h.work
  events := by
    obtain ⟨l, hl⟩ := h.events
    obtain ⟨m, hm⟩ := k.events
    exact ⟨l ++ m, by rw [hm, hl, h.clock, EventUnit.told_append]⟩
  clock := k.clock.trans h.clock
  setups p := ⟨(k.setups p).1.trans (h.setups p).1, (k.setups p).2.1.trans (h.setups p).2.1,
    (k.setups p).2.2.trans (h.setups p).2.2⟩

theorem Worked.of_eq {c d : Cm8} (work : d.work = c.work) (events : d.events = c.events)
    (clock : d.clock = c.clock) (pair : ∀ p, d.pair p = c.pair p) : Worked c d where
  work := work ▸ .refl _
  events := ⟨[], events⟩
  clock := clock
  setups p := by rw [pair p]; exact ⟨rfl, rfl, rfl⟩

theorem Worked.foldl {α : Type} {f : Cm8 → α → Cm8} (step : ∀ c a, Worked c (f c a)) (l : List α)
    (c : Cm8) : Worked c (l.foldl f c) := by
  induction l generalizing c with
  | nil => exact .refl c
  | cons a l ih => exact (step c a).trans (ih _)

variable (c : Cm8) (i : Slot)

theorem worked_post (s : Option Slot) (t : Option Byte) (e : Event) : Worked c (c.post s t e) where
  work := by simp
  events := ⟨_, events_post c s t e⟩
  clock := by simp
  setups p := by simp

theorem worked_onHead (f : Head → Head) : Worked c (c.onHead i f) := .of_eq rfl rfl rfl fun _ => rfl

theorem worked_arbiter (a : Arbiter) : Worked c { c with arbiter := a } := .of_eq rfl rfl rfl fun _ => rfl

theorem worked_onStore (st : StoreId) (f : LineStore → LineStore) : Worked c (c.onStore st f) where
  work := by simp
  events := ⟨[], by simp [EventUnit.told_nil]⟩
  clock := by simp
  setups p := by
    obtain ⟨q, l⟩ := st
    fin_cases q <;> fin_cases p <;> cases l <;> exact ⟨rfl, rfl, rfl⟩

theorem worked_giveFree (zs : ZoneSet) : Worked c (c.giveFree i zs) := worked_arbiter ..

theorem worked_recompute : Worked c (c.recompute i) := by
  unfold recompute
  split
  · exact .refl c
  · exact worked_arbiter ..

theorem worked_skip (w : Work) : Worked c { c with work := c.work.erase w } :=
  ⟨List.erase_sublist, ⟨[], rfl⟩, rfl, fun _ => ⟨rfl, rfl, rfl⟩⟩

theorem worked_dropMove (m : Move) (why : DropReason) : Worked c (c.dropMove i m why) := by
  unfold dropMove
  split
  · exact .refl c
  · exact worked_post ..

theorem worked_dropHeld? (x : Option Held) (why : DropReason) : Worked c (c.dropHeld? i x why) := by
  cases x
  · exact .refl c
  · exact worked_post ..

theorem worked_makeActive (m : Move) : Worked c (c.makeActive i m) :=
  (worked_skip c (.motion i)).trans
    (worked_onHead { c with work := c.work.erase (.motion i) } i fun h =>
      { h with activity := .moving m none })

theorem worked_startMove (m : Move) (cue : Option (BitVec 32)) : Worked c (c.startMove i m cue) :=
  ((worked_makeActive c i _).trans (worked_post ..)).trans (worked_recompute ..)

theorem worked_handGrant : Worked c (c.handGrant i) := by
  unfold handGrant
  split
  · exact .refl c
  · dsimp only
    split
    · exact (worked_post ..).trans (worked_startMove ..)
    · exact (((worked_post ..).trans (worked_dropMove ..)).trans (worked_onHead ..)).trans
        (worked_recompute ..)

theorem worked_handOver (r : Option Slot) : Worked c (handOver r c i) := by
  unfold handOver
  split
  · unfold answerRequest
    split
    · exact .refl c
    · exact worked_startMove ..
  · exact worked_handGrant c i

theorem worked_judgePass : Worked c c.judgePass.1 := by
  have judged (l : List Slot) (a : Cm8 × ZoneSet × List Slot) : Worked a.1 (l.foldl judge a).1 := by
    induction l generalizing a with
    | nil => exact .refl _
    | cons i l ih =>
      refine Worked.trans ?_ (ih _)
      unfold judge
      dsimp only
      split
      · exact .refl _
      · split
        · exact worked_giveFree ..
        · exact .refl _
  have passed := (worked_arbiter c { c.arbiter with released := false }).trans
    (judged (candidates { c with arbiter := { c.arbiter with released := false } }) (_, 0#16, []))
  unfold judgePass
  dsimp only
  split
  · exact passed.trans (worked_arbiter ..)
  · exact passed

theorem worked_settle : Worked c c.settle := by
  have settled (n : Nat) : ∀ c, Worked c (settleN n c) := by
    induction n with
    | zero => exact .refl
    | succ n ih =>
      intro c
      unfold settleN
      split
      · exact ((worked_judgePass c).trans (.foldl (fun c j => worked_handOver c j none) _ _)).trans (ih _)
      · exact .refl c
  exact settled 9 c

theorem worked_refresh : Worked c (c.refresh i) := by
  unfold refresh
  split
  · exact worked_onHead ..
  · exact .refl c

theorem worked_bump (st : StoreId) (k : LineCounter) : Worked c (c.bump (.line st k)) := by
  have counted (v : BitVec 16) : Worked c (c.setCounter (.line st k) v) :=
    worked_onStore c st fun s => { s with counters := s.counters.set k v }
  unfold bump
  dsimp only
  split
  · split
    · exact counted _
    · exact .refl c
  · split
    · exact (counted _).trans (worked_post ..)
    · split
      · exact (counted _).trans (worked_post ..)
      · exact counted _

theorem worked_bumps (st : StoreId) (k : LineCounter) (n : Nat) : Worked c (c.bumps (.line st k) n) := by
  induction n generalizing c with
  | zero => exact .refl c
  | succ n ih => exact (worked_bump c st k).trans (ih _)

/-! ### Starts, requests and take-overs -/

theorem worked_beginWait (w : Waiting) : Worked c (c.beginWait i w) :=
  (worked_post ..).trans (worked_recompute ..)

theorem worked_request (p : Planned) (cue : Option (BitVec 32)) (back : QueueEntry) :
    Worked c (c.request i p cue back) := by
  have passed (a : Activity) (l : List Slot) :
      Worked c (l.foldl (handOver (some i)) (c.setActivity i a).judgePass.1) :=
    ((worked_onHead c i _).trans (worked_judgePass _)).trans
      (.foldl (fun c j => worked_handOver c j (some i)) l _)
  unfold request
  dsimp only
  split
  · exact (worked_startMove ..).trans (worked_settle _)
  · refine Worked.trans ?_ (worked_settle _)
    split
    · exact passed ..
    · exact (passed ..).trans (worked_beginWait ..)

theorem worked_requestTold (p : Planned) (back : QueueEntry) : Worked c (c.requestTold i p back) := by
  have untold (m : Move) (c : Cm8) (j : Slot) : Worked c (handOverUntold i m c j) := by
    unfold handOverUntold
    split
    · exact (worked_makeActive ..).trans (worked_recompute ..)
    · exact worked_handGrant c j
  have passed (a : Activity) (m : Move) (l : List Slot) :
      Worked c (l.foldl (handOverUntold i m) (c.setActivity i a).judgePass.1) :=
    ((worked_onHead c i _).trans (worked_judgePass _)).trans (.foldl (untold m) l _)
  have waited (c : Cm8) (w : Waiting) : Worked c (c.waitTold i w) := by
    unfold waitTold
    dsimp only
    split
    · exact ((worked_recompute c i).trans (worked_settle _)).trans (worked_post ..)
    · exact (worked_beginWait c i w).trans (worked_settle _)
  unfold requestTold
  dsimp only
  split
  · exact (((worked_makeActive c i _).trans (worked_recompute ..)).trans (worked_settle _)).trans
      (worked_post ..)
  · split
    · exact ((passed ..).trans (worked_settle _)).trans (worked_post ..)
    · exact (passed ..).trans (waited ..)

theorem worked_takeOver (m : Move) (held : Option Held) : Worked c (c.takeOver i m held) :=
  (((worked_giveFree c i _).trans (worked_onHead ..)).trans (worked_recompute ..)).trans
    (worked_settle _)

theorem worked_restFree : Worked c (c.restFree i) :=
  ((worked_onHead c i _).trans (worked_recompute ..)).trans (worked_settle _)

theorem worked_dropDisplaced : Worked c (c.dropDisplaced i) := by
  unfold dropDisplaced
  split
  · exact (worked_dropMove ..).trans (worked_dropHeld? ..)
  · exact worked_dropMove ..
  · exact .refl c

theorem worked_overrideWith (m : Move) : Worked c (c.overrideWith i m) :=
  ((worked_dropDisplaced c i).trans (worked_takeOver ..)).trans (worked_post ..)

theorem worked_flush : Worked c (c.flush i) :=
  (Worked.foldl (fun c (e : QueueEntry) => worked_post c (some i) (some e.tag) _) _ _).trans
    (worked_onHead _ i fun h => { h with queue := [] })

theorem worked_enterHalted (cause : HaltCause) : Worked c (c.enterHalted i cause) := by
  have dropped (c : Cm8) (a : Activity) : Worked c (c.dropRecords i a) := by
    unfold dropRecords
    split
    · exact (worked_dropMove ..).trans (worked_dropHeld? ..)
    · exact worked_dropMove ..
    · exact .refl c
  exact (((worked_onHead c i _).trans (dropped _ _)).trans (worked_flush ..)).trans (worked_post ..)

theorem worked_haltRequest (cause : HaltCause) : Worked c (c.haltRequest i cause) := by
  unfold haltRequest
  split
  · split
    · exact worked_enterHalted ..
    · exact .refl c
  · exact .refl c
  · exact worked_enterHalted ..

/-! ### The pieces of a tick's work -/

theorem worked_resume (x : Held) : Worked c (c.resume i x) := by
  unfold resume
  split
  · exact (worked_post ..).trans (worked_restFree ..)
  · exact ((worked_onHead c i _).trans (worked_post ..)).trans (worked_request ..)

theorem worked_complete (m : Move) (held : Option Held) : Worked c (c.complete i m held) := by
  have told : Worked c (if m.cls = .stop then c else c.post (some i) m.tag (.moveDone m.source)) := by
    split
    · exact .refl c
    · exact worked_post ..
  unfold complete
  dsimp only
  cases held
  · exact told.trans (worked_restFree ..)
  · exact told.trans (worked_resume ..)

theorem worked_jogTick (j : Jog) : Worked c (c.jogTick i j) := by
  have travelled (p q : Int) (n : Nat) : ∀ c, Worked c (jogTravel i p q n c).1 := by
    induction n with
    | zero => exact .refl
    | succ n ih =>
      intro c
      unfold jogTravel
      split
      · exact .refl c
      · split
        · exact (worked_giveFree ..).trans (ih _)
        · exact .refl c
  have claimed (p q : Int) : Worked c (c.jogClaim i p q).1 := by
    unfold jogClaim
    split
    · exact travelled ..
    · exact .refl c
  have stepped (j : Jog) : Worked c (c.jogStep i j).1 := by
    unfold jogStep
    dsimp only
    exact (claimed _ _).trans (worked_onHead _ i _)
  unfold jogTick
  dsimp only
  split
  · exact (stepped _).trans (worked_restFree ..)
  · exact (stepped _).trans (worked_onHead ..)

theorem worked_motionStep : Worked c (c.motionStep i) := by
  unfold motionStep
  split
  · unfold moveTick
    dsimp only
    split
    · exact ((worked_onHead c i _).trans (worked_skip ..)).trans (worked_complete ..)
    · exact worked_onHead c i _
  · exact (worked_skip c _).trans (worked_jogTick ..)
  · exact .refl c

theorem worked_queueStep : Worked c (c.queueStep i) := by
  have taken : Worked c (c.takeEntry i) := worked_onHead ..
  unfold queueStep
  split
  · exact .refl c
  · split
    · unfold startEntry
      dsimp only
      split
      · exact (taken.trans (worked_post ..)).trans (worked_onHead ..)
      · exact taken.trans (worked_request ..)
    · unfold cuedReplace
      dsimp only
      split
      · exact (taken.trans (worked_post ..)).trans (worked_refresh ..)
      · split
        · exact taken.trans (worked_overrideWith ..)
        · exact (taken.trans (worked_post ..)).trans (worked_refresh ..)

theorem worked_softenStep : Worked c (c.softenStep i) := by
  have fails (m : Move) (held : Option Held) (why : DropReason) :
      Worked c (c.softenFails i m held why) :=
    ((worked_dropMove c i m why).trans (worked_dropHeld? ..)).trans (worked_takeOver ..)
  unfold softenStep
  split
  · split
    · split
      · exact fails ..
      · split
        · exact (worked_takeOver ..).trans (worked_post ..)
        · exact fails ..
    · exact .refl c
  · exact .refl c

theorem worked_timerStep : Worked c (c.timerStep i) := by
  unfold timerStep
  split
  · exact .refl c
  · split
    · exact worked_onHead ..
    · split
      · exact (worked_dropMove ..).trans (worked_restFree ..)
      · exact worked_onHead ..

theorem worked_pageStep : Worked c (c.pageStep i) := by
  unfold pageStep
  split
  · exact .refl c
  · split <;> exact worked_onHead ..

theorem worked_lossStep : Worked c (c.lossStep i) := by
  unfold lossStep
  split
  · exact ((worked_haltRequest c i _).trans (worked_onHead ..)).trans (worked_post ..)
  · split
    · exact worked_onHead ..
    · exact .refl c

theorem worked_enterLinked : Worked c (c.enterLinked i) := by
  have halts (c : Cm8) (mask : AxisMask) : Worked c (c.linkHalts i mask) := by
    have lacking : Worked c (if lacksAxis (c.head i) mask then c.haltRequest i .mismatch else c) := by
      split
      · exact worked_haltRequest ..
      · exact .refl c
    unfold linkHalts
    dsimp only
    split
    · exact worked_onHead ..
    · split
      · exact lacking.trans (worked_haltRequest ..)
      · exact lacking
  have linked (h : Head) (e : Event) : Worked c ((c.setHead i h).post (some i) none e) :=
    (worked_onHead c i fun _ => h).trans (worked_post ..)
  unfold enterLinked
  dsimp only
  refine Worked.trans ?_ (halts ..)
  split
  · exact linked ..
  · exact (linked ..).trans (worked_post ..)

theorem worked_placeEnrol (st : StoreId) (room : Int) : Worked c (c.placeEnrol st room).1 := by
  have placed (c : Cm8) (i : Slot) : Worked c (c.enrolPlaced i) := by
    unfold enrolPlaced
    dsimp only
    split
    · split
      · exact worked_enterLinked ..
      · exact worked_onHead ..
    · exact .refl c
  unfold placeEnrol
  split
  · exact .refl c
  · split
    · exact .refl c
    · split
      · exact ((worked_onStore ..).trans (worked_onStore ..)).trans (placed ..)
      · exact .refl c

theorem worked_formSchedule (st : StoreId) (sent : Nat) (receiving relined : Bool) :
    Worked c (c.formSchedule st sent receiving relined) := by
  have setpoints : Worked c (c.placeSetpoints st) :=
    .foldl (fun c j => (worked_onStore c st _).trans (worked_onHead _ j _)) _ _
  have passes (c : Cm8) (room : Int) : Worked c (c.placePass st room) :=
    ((worked_onStore c st _).trans (worked_onStore ..)).trans (worked_bumps ..)
  have cut (c : Cm8) (before : LineStore) :
      Worked c (cutReception before c st receiving relined) := by
    unfold cutReception
    split
    · exact (worked_onStore c st _).trans (worked_bump ..)
    · exact .refl c
  exact ((setpoints.trans (worked_placeEnrol ..)).trans (passes ..)).trans (cut ..)

theorem worked_runWork {w : Work} (h : w ≠ .pass) : Worked c (c.runWork w) := by
  cases w with
  | motion i => exact worked_motionStep c i
  | queue i => exact worked_queueStep c i
  | soften i => exact worked_softenStep c i
  | timer i => exact worked_timerStep c i
  | pass => exact absurd rfl h
  | handover i => exact worked_handGrant c i
  | settle => exact worked_settle c
  | page i => exact worked_pageStep c i
  | link i => exact worked_lossStep c i
  | schedule st sent receiving relined => exact worked_formSchedule ..
  | announce e => exact worked_post ..

/-! ### The rounds that the work takes -/

theorem weight_cons (w : Work) (ws : List Work) :
    weight (w :: ws) = (if w = .pass then 11 else 1) + weight ws := by
  cases w <;> rfl

theorem weight_append (l k : List Work) : weight (l ++ k) = weight l + weight k := by
  induction l with
  | nil => simp [weight]
  | cons w l ih => rw [List.cons_append, weight_cons, weight_cons, ih, Nat.add_assoc]

theorem weight_sublist {l k : List Work} (h : l.Sublist k) : weight l ≤ weight k := by
  induction h with
  | slnil => exact Nat.le_refl _
  | cons w _ ih => rw [weight_cons]; omega
  | cons_cons w _ ih => rw [weight_cons, weight_cons]; omega

theorem weight_handovers (l : List Slot) : weight (l.map .handover) = l.length := by
  induction l with
  | nil => rfl
  | cons i l ih => rw [List.map_cons, weight_cons, ih, List.length_cons]; simp [Nat.add_comm]

/-- A pass judges at most the eight slots. -/
theorem candidates_length : c.candidates.length ≤ 8 := by
  unfold candidates
  dsimp only
  rw [(List.filter_append_perm (fun i => (c.head i).tally) _).length_eq]
  exact List.length_filter_le _ _

theorem foldl_judge_length (l : List Slot) (a : Cm8 × ZoneSet × List Slot) :
    (l.foldl judge a).2.2.length ≤ a.2.2.length + l.length := by
  induction l generalizing a with
  | nil => exact Nat.le_refl _
  | cons i l ih =>
    have one : (judge a i).2.2.length ≤ a.2.2.length + 1 := by
      unfold judge
      dsimp only
      split
      · exact Nat.le_succ _
      · split
        · simp
        · exact Nat.le_succ _
    rw [List.foldl_cons, List.length_cons]
    have := ih (judge a i)
    omega

/-- The grants of a pass are those of its judgements. -/
theorem judgePass_snd : c.judgePass.2 =
    ((candidates { c with arbiter := { c.arbiter with released := false } }).foldl judge
      ({ c with arbiter := { c.arbiter with released := false } }, 0#16, [])).2.2 := by
  unfold judgePass
  dsimp only
  split <;> rfl

theorem judgePass_length : c.judgePass.2.length ≤ 8 := by
  rw [judgePass_snd]
  exact (foldl_judge_length _ _).trans ((Nat.zero_add _).le.trans (candidates_length _))

/-- Every piece of work that is done brings the end nearer: a pass adds at most eight hand-overs and a
settling. -/
theorem weight_runWork (w : Work) : weight (c.runWork w).work < weight (w :: c.work) := by
  rw [weight_cons]
  by_cases h : w = .pass
  · subst h
    have grants := judgePass_length c
    have rest := weight_sublist (worked_judgePass c).work
    simp only [runWork, weight_append, weight_handovers, weight_cons]
    simp only [reduceCtorEq, if_true, if_false]
    omega
  · have rest := weight_sublist (worked_runWork c h).work
    rw [if_neg h]
    omega

theorem runFront_cons {c : Cm8} {w : Work} {ws : List Work} (h : c.work = w :: ws) :
    c.runFront = { c with work := ws }.runWork w := by
  simp [runFront, h]

theorem weight_runFront {c : Cm8} {w : Work} {ws : List Work} (h : c.work = w :: ws) :
    weight c.runFront.work < weight c.work := by
  rw [runFront_cons h, h]
  exact weight_runWork { c with work := ws } w

theorem weight_advanceN (n : Nat) : weight (advanceN n c).work ≤ weight c.work := by
  induction n generalizing c with
  | zero => exact Nat.le_refl _
  | succ n ih =>
    unfold advanceN
    split
    · exact Nat.le_refl _
    · split
      · exact Nat.le_refl _
      · exact (ih _).trans (weight_runFront ‹_›).le

theorem work_choose : c.choose.work = c.work := by
  unfold choose
  split
  · rfl
  · split
    · rfl
    · split <;> rfl

@[simp] theorem work_chooseIdle : c.chooseIdle.work = c.work := by
  unfold chooseIdle
  split
  · rfl
  · exact work_choose c

/-- With enough rounds the number of rounds does not matter. -/
theorem advanceN_of_le {n : Nat} (h : weight c.work ≤ n) : advanceN n c = c.advance := by
  have enough : ∀ (m n : Nat) (c : Cm8), weight c.work ≤ n → weight c.work ≤ m →
      advanceN n c = advanceN m c := by
    intro m
    induction m with
    | zero =>
      intro n c _ hm
      have empty : c.work = [] := by
        cases hw : c.work with
        | nil => rfl
        | cons w ws =>
          obtain ⟨k, hk⟩ := weight_pos w ws
          rw [hw, hk] at hm
          omega
      cases n <;> simp [advanceN, empty]
    | succ m ih =>
      intro n c hn hm
      cases n with
      | zero =>
        cases hw : c.work with
        | nil => simp [advanceN, hw]
        | cons w ws =>
          obtain ⟨k, hk⟩ := weight_pos w ws
          rw [hw, hk] at hn
          omega
      | succ n =>
        unfold advanceN
        split
        · rfl
        · split
          · rfl
          · have less := weight_runFront ‹_›
            exact ih n _ (by omega) (by omega)
  exact enough _ _ _ h (Nat.le_refl _)

/-- Work that is no event of the table is done as the part goes on; an event waits for its row. -/
theorem advance_cons {c : Cm8} {w : Work} {ws : List Work} (h : c.work = w :: ws) :
    c.advance = if c.due w then c else ({ c with work := ws }.runWork w).advance := by
  obtain ⟨n, hn⟩ := weight_pos w ws
  have less := weight_runFront h
  unfold advance
  rw [h, hn, advanceN, h]
  dsimp only
  split
  · rfl
  · rw [runFront_cons h] at less ⊢
    rw [h, hn] at less
    exact advanceN_of_le _ (Nat.le_of_lt_succ less)

/-- One round of finishing leaves less to do. -/
theorem weight_finish_round {c : Cm8} {w : Work} {ws : List Work} (h : c.work = w :: ws) :
    weight c.runFront.advance.chooseIdle.work < weight c.work := by
  rw [work_chooseIdle]
  exact (weight_advanceN _ _).trans_lt (weight_runFront h)

theorem finishN_of_le {n : Nat} (h : weight c.work ≤ n) :
    finishN n c = c.finish ∧ (finishN n c).work = [] := by
  have enough : ∀ (m n : Nat) (c : Cm8), weight c.work ≤ n → weight c.work ≤ m →
      finishN n c = finishN m c ∧ (finishN n c).work = [] := by
    intro m
    induction m with
    | zero =>
      intro n c _ hm
      have empty : c.work = [] := by
        cases hw : c.work with
        | nil => rfl
        | cons w ws =>
          obtain ⟨k, hk⟩ := weight_pos w ws
          rw [hw, hk] at hm
          omega
      cases n <;> simp [finishN, empty]
    | succ m ih =>
      intro n c hn hm
      cases hw : c.work with
      | nil => cases n <;> simp [finishN, hw]
      | cons w ws =>
        have less := weight_finish_round hw
        obtain ⟨n, rfl⟩ : ∃ k, n = k + 1 := ⟨n - 1, by omega⟩
        simp only [finishN, hw]
        exact ih n _ (by omega) (by omega)
  exact ⟨(enough _ _ _ h (Nat.le_refl _)).1, (enough _ _ _ h (Nat.le_refl _)).2⟩

/-- Finishing leaves no work (log entry 1). -/
@[simp] theorem work_finish : c.finish.work = [] := (finishN_of_le c (Nat.le_refl _)).2

theorem finish_cons {c : Cm8} {w : Work} {ws : List Work} (h : c.work = w :: ws) :
    c.finish = ({ c with work := ws }.runWork w).advance.chooseIdle.finish := by
  obtain ⟨n, hn⟩ := weight_pos w ws
  have less := weight_finish_round h
  rw [runFront_cons h] at less
  rw [h, hn] at less
  conv_lhs => unfold finish
  rw [h, hn, finishN, h]
  dsimp only
  rw [runFront_cons h]
  exact (finishN_of_le _ (Nat.le_of_lt_succ less)).1

/-! ### The settings of the Event Unit -/

/-- The settings of the Event Unit, which EVENT SET alone writes (R206). -/
def SameSettings (c d : Cm8) : Prop :=
  d.events.mode = c.events.mode ∧ d.events.kinds = c.events.kinds ∧
    d.events.counterMode = c.events.counterMode ∧ d.events.clearOnRead = c.events.clearOnRead

theorem SameSettings.trans {a b c : Cm8} (h : SameSettings a b) (k : SameSettings b c) :
    SameSettings a c :=
  ⟨k.1.trans h.1, k.2.1.trans h.2.1, k.2.2.1.trans h.2.2.1, k.2.2.2.trans h.2.2.2⟩

theorem enqueue_settings (u : EventUnit) (r : EventRecord) :
    (u.enqueue r).mode = u.mode ∧ (u.enqueue r).kinds = u.kinds ∧
      (u.enqueue r).counterMode = u.counterMode ∧ (u.enqueue r).clearOnRead = u.clearOnRead := by
  unfold EventUnit.enqueue
  split
  · exact ⟨rfl, rfl, rfl, rfl⟩
  · split <;> rename_i h <;> exact ⟨rfl, rfl, rfl, rfl⟩

theorem told_settings (u : EventUnit) (f : BitVec 32) (l : List (Option Slot × Option Byte × Event)) :
    (u.told f l).mode = u.mode ∧ (u.told f l).kinds = u.kinds ∧
      (u.told f l).counterMode = u.counterMode ∧ (u.told f l).clearOnRead = u.clearOnRead := by
  induction l generalizing u with
  | nil => exact ⟨rfl, rfl, rfl, rfl⟩
  | cons x l ih =>
    unfold EventUnit.told at ih ⊢
    rw [List.foldl_cons]
    split
    · obtain ⟨hm, hk, hc, hr⟩ := ih (u.enqueue ⟨x.2.2, f, x.1, x.2.1, 0⟩)
      obtain ⟨gm, gk, gc, gr⟩ := enqueue_settings u ⟨x.2.2, f, x.1, x.2.1, 0⟩
      exact ⟨hm.trans gm, hk.trans gk, hc.trans gc, hr.trans gr⟩
    · exact ih u

theorem Worked.sameSettings {c d : Cm8} (h : Worked c d) : SameSettings c d := by
  obtain ⟨l, hl⟩ := h.events
  unfold SameSettings
  rw [hl]
  exact told_settings ..

theorem sameSettings_chooseIdle : SameSettings c c.chooseIdle := by
  unfold chooseIdle
  split
  · exact ⟨rfl, rfl, rfl, rfl⟩
  · unfold choose
    split
    · exact ⟨rfl, rfl, rfl, rfl⟩
    · split
      · exact ⟨rfl, rfl, rfl, rfl⟩
      · split <;> exact ⟨rfl, rfl, rfl, rfl⟩

theorem sameSettings_runFront : SameSettings c c.runFront := by
  unfold runFront
  split
  · exact ⟨rfl, rfl, rfl, rfl⟩
  · rename_i w ws _
    by_cases h : w = .pass
    · subst h
      exact (worked_judgePass { c with work := ws }).sameSettings
    · exact (worked_runWork { c with work := ws } h).sameSettings

theorem sameSettings_advance : SameSettings c c.advance := by
  have all (n : Nat) : ∀ c, SameSettings c (advanceN n c) := by
    induction n with
    | zero => exact fun _ => ⟨rfl, rfl, rfl, rfl⟩
    | succ n ih =>
      intro c
      unfold advanceN
      split
      · exact ⟨rfl, rfl, rfl, rfl⟩
      · split
        · exact ⟨rfl, rfl, rfl, rfl⟩
        · exact (sameSettings_runFront c).trans (ih _)
  exact all _ c

theorem sameSettings_finish : SameSettings c c.finish := by
  have all (n : Nat) : ∀ c, SameSettings c (finishN n c) := by
    induction n with
    | zero => exact fun _ => ⟨rfl, rfl, rfl, rfl⟩
    | succ n ih =>
      intro c
      unfold finishN
      split
      · exact ⟨rfl, rfl, rfl, rfl⟩
      · exact (((sameSettings_runFront c).trans (sameSettings_advance _)).trans
          (sameSettings_chooseIdle _)).trans (ih _)
  exact all _ c

end Cm8

end Sys2Proof.Machine
end

section
/-! PROOF. The order of a tick's work, the pieces it is made of, and the rows that are events inside a tick
(log entry 1). -/

namespace Sys2Proof.Machine

/-! ### The order -/

/-- What stands ahead already stays there. -/
theorem foldl_bringAhead (order : List Turn) (done rest : List Work) :
    order.foldl (fun a t => bringAhead a.1 a.2 (workOf t)) (done, rest) =
      let r := order.foldl (fun a t => bringAhead a.1 a.2 (workOf t)) ([], rest)
      (done ++ r.1, r.2) := by
  induction order generalizing done rest with
  | nil => simp
  | cons t order ih =>
    have step (done : List Work) : bringAhead done rest (workOf t) =
        (done ++ (bringAhead [] rest (workOf t)).1, (bringAhead [] rest (workOf t)).2) := by
      unfold bringAhead
      dsimp only
      split <;> simp
    simp only [List.foldl_cons]
    rw [step done, ih, ih (bringAhead [] rest (workOf t)).1]
    simp

theorem arrange_cons (t : Turn) (order : List Turn) (ws : List Work) :
    arrange (t :: order) ws =
      (bringAhead [] ws (workOf t)).1 ++ arrange order (bringAhead [] ws (workOf t)).2 := by
  unfold arrange
  dsimp only
  rw [List.foldl_cons, foldl_bringAhead]
  simp

theorem arrange_of_mem (t : Turn) (order : List Turn) (ws : List Work) (h : workOf t ∈ ws) :
    arrange (t :: order) ws =
      ws.filter (fun v => v = workOf t || v.precedes (workOf t)) ++
        arrange order (ws.filter fun v => !(decide (v = workOf t) || v.precedes (workOf t))) := by
  rw [arrange_cons]
  simp [bringAhead, h]

theorem arrange_of_not_mem (t : Turn) (order : List Turn) (ws : List Work) (h : workOf t ∉ ws) :
    arrange (t :: order) ws = arrange order ws := by
  rw [arrange_cons]
  simp [bringAhead, h]

/-- An order only changes where the pieces stand. -/
theorem arrange_perm (order : List Turn) (ws : List Work) : (arrange order ws).Perm ws := by
  induction order generalizing ws with
  | nil => exact .refl _
  | cons t order ih =>
    rw [arrange_cons]
    exact ((ih _).append_left _).trans (by simpa using bringAhead_perm [] ws (workOf t))

namespace Cm8

variable (c : Cm8) (i : Slot)

/-! ### The first piece of work by its own row -/

theorem takeQueue_front (rule : StartRule) {ws : List Work} (h : c.work = .queue i :: ws)
    (moved : .motion i ∉ ws) (acts : actsBy rule i c = true) :
    c.takeQueue rule i = ({ c with work := ws }.runWork (.queue i)).advance.chooseIdle := by
  have still : c.afterMotion i = c := by
    simp [afterMotion, h, moved]
  unfold takeQueue
  rw [c.closePass_of_front _ _ h nofun rfl, still]
  simp [h, acts, takeWork]

theorem zoneGranted_front {ws : List Work} (h : c.work = .handover i :: ws) :
    c.zoneGranted i = ({ c with work := ws }.runWork (.handover i)).advance.chooseIdle := by
  obtain ⟨n, hn⟩ := weight_pos (.handover i) ws
  unfold zoneGranted
  simp [h, hn, handUpTo, runFront]

/-! ### What a piece of work is -/

theorem completionDue_iff : c.completionDue i = true ↔
    ∃ m held, (c.head i).activity = .moving m held ∧ m.d ≤ m.k + 1 := by
  unfold completionDue
  cases (c.head i).activity <;> simp

theorem refreshDue_iff : c.refreshDue i = true ↔
    ∃ j, (c.head i).activity = .jogging j ∧ j.refresh = 11 := by
  unfold refreshDue
  cases (c.head i).activity <;> simp [Config.jogRefreshTicks]

theorem timeoutDue_iff : c.timeoutDue i = true ↔
    ∃ w, (c.head i).activity = .waitZone w ∧ w.fresh = false ∧ c.policy.waitTimeout ≤ w.timer + 1 := by
  unfold timeoutDue waitingOf
  cases (c.head i).activity <;> simp [Activity.waiting]

theorem lossDue_iff : c.lossDue i = true ↔ (c.head i).link.state = .linked ∧
    (c.pair (c.head i).map.pair).setup.lossTicks ≤ (c.head i).link.loss + 1 := by
  unfold lossDue
  dsimp only
  rw [Bool.and_eq_true]
  exact and_congr decide_eq_true_iff decide_eq_true_iff

theorem cueReady_iff (e : QueueEntry) : c.cueReady e = true ↔
    ∀ cue, e.cue = some cue → cueCome c.clock.frame cue = true := by
  unfold cueReady
  cases e.cue <;> simp [frame]

/-- The head entry acts when its cue has come and the state of the head lets its start rule act (R52,
R57). -/
theorem actingEntry_eq_some (e : QueueEntry) : c.actingEntry i = some e ↔
    (c.head i).queue.head? = some e ∧ c.cueReady e = true ∧
      ((c.head i).activity = .idle ∨ (c.head i).activity = .waitCue ∨ (e.rule = .cuedReplace ∧
        ((∃ w, (c.head i).activity = .waitZone w) ∨
          ∃ m held, (c.head i).activity = .moving m held ∧ m.cls ≠ .stop))) := by
  unfold actingEntry
  rw [Option.filter_eq_some_iff]
  refine and_congr_right fun _ => ?_
  rw [Bool.and_eq_true]
  refine and_congr_right fun _ => ?_
  cases e.rule <;> cases (c.head i).activity <;> simp

theorem queueStep_of_none (h : c.actingEntry i = none) : c.queueStep i = c := by
  simp [queueStep, h]

theorem moveTick_running {m : Move} (held : Option Held) (h : m.k + 1 < m.d) :
    c.moveTick i m held = c.setHead i { c.head i with
      activity := .moving { m with k := m.k + 1 } held
      previous := .gen fun a =>
        if (c.head i).configured a then (c.head i).setpoint.get a else (c.head i).previous.get a
      setpoint := .gen fun a =>
        if (c.head i).configured a then (c.head i).pathPoint m (m.k + 1) a
        else (c.head i).setpoint.get a } := by
  unfold moveTick
  dsimp only
  rw [if_neg (Nat.not_le.2 h)]
  rfl

end Cm8

end Sys2Proof.Machine

namespace Sys2Proof.Machine.Cm8

variable (c : Cm8)

/-! ### Ticks -/

theorem clock_tail (d : Cm8) : d.advance.chooseIdle.clock = d.clock :=
  ((finishFrame_chooseIdle _).clock).trans (workFrame_advance d).clock

/-- What every tick leaves, once its work is done as far as the next event. `k` is the time before the tick,
with the changes that its cause makes, and `e` the time after it. -/
theorem ticked (instant : Nat) (x : TickInputs) (k e : Timebase) (announced : List Event)
    (frame : k.frame = c.clock.frame) (change : k.change = c.clock.change)
    (he : e.frame = nextFrame k.frame k.change ∧ e.change = none ∧ e.lastTick = some instant) :
    c.Ticked
      ({ { c.finish with clock := k }.tick instant x (announced.map .announce) with
          clock := e }).advance.chooseIdle instant x announced := by
  obtain ⟨eframe, echange, elast⟩ := he
  have delivered := delivers_tick c instant x k e announced eframe
  have clock : ({ { c.finish with clock := k }.tick instant x (announced.map .announce) with
    clock := e }).clock = e := rfl
  generalize { { c.finish with clock := k }.tick instant x (announced.map .announce) with
    clock := e } = d at delivered clock ⊢
  have before (i : Slot) := (finishFrame_finish c).head i
  have after (i : Slot) := ((workFrame_advance d).finishFrame.trans (finishFrame_chooseIdle _)).head i
  have heads := delivered.heads
  constructor
  case frame =>
    rw [clock_tail, clock, eframe, frame, change]
    rfl
  case change => rw [clock_tail, clock, echange]
  case lastTick => rw [clock_tail, clock, elast]
  case tally =>
    intro i
    rw [(after i).tally, heads]
  case tallyChanged =>
    intro i
    rw [(after i).tallyChanged, heads, ← (before i).tallyChanged, ← (before i).tally]
  case interval =>
    intro i
    rw [(after i).interval, heads]
  case delivered => exact ⟨d, delivered, (clock_tail d).symm, rfl⟩

/-- The time after a tick: F and the pending change by R39, and the time of last tick. -/
def ticking (k : Timebase) (instant : Nat) : Timebase :=
  { k with
    now := max k.now instant, frame := nextFrame k.frame k.change, change := none,
    lastTick := some instant }

theorem clock_tick (instant : Nat) (x : TickInputs) (tail : List Work) :
    (c.tick instant x tail).clock = ticking c.clock instant := by
  rw [tick_eq]
  show (c.atTick instant x Slot.all).clock = _
  rw [clock_atTick]
  rfl

/-- A tick with the time that it leaves, as `ticked` speaks of it. -/
theorem ticked_tick (instant : Nat) (x : TickInputs) (k : Timebase) (announced : List Event)
    (frame : k.frame = c.clock.frame) (change : k.change = c.clock.change) :
    c.Ticked ({ c.finish with clock := k }.tick instant x (announced.map .announce)).advance.chooseIdle
      instant x announced := by
  have h := c.ticked instant x k (ticking k instant) announced frame change ⟨rfl, rfl, rfl⟩
  have clock := clock_tick { c.finish with clock := k } instant x (announced.map .announce)
  generalize { c.finish with clock := k }.tick instant x (announced.map .announce) = d at h clock ⊢
  rwa [show { d with clock := ticking k instant } = d by rw [← clock]] at h

/-! ### The causes of ticks -/

theorem bresenhamTick_unlocked (x : TickInputs) (h : c.clock.state = .unlocked) :
    c.bresenhamTick x = ({ c.finish with clock := c.clock.bresenham }.tick
      (c.clock.bresenhamInstant (c.clock.index + 1)) x []).advance.chooseIdle := by
  have same := (finishFrame_finish c).clock
  unfold bresenhamTick onClock
  simp only [same, h]
  rfl

theorem lossExpiry_locked (x : TickInputs) {r : Nat} (h : c.clock.state = .locked)
    (hr : c.clock.phase = some r) :
    c.lossExpiry x = ({ c.finish with clock := { c.clock with state := .freewheel, run := 0 } }.tick
      (r + c.clock.period + c.clock.period / 8) x [.announce .syncLost]).advance.chooseIdle := by
  have same := (finishFrame_finish c).clock
  unfold lossExpiry onClock
  simp only [same, h, hr]

theorem freewheelTick_freewheel (x : TickInputs) {l : Nat} (h : c.clock.state = .freewheel)
    (hl : c.clock.lastTick = some l) :
    c.freewheelTick x = ({ c.finish with clock := c.clock }.tick
      (l + c.clock.period) x []).advance.chooseIdle := by
  have same := (finishFrame_finish c).clock
  have self : { c.finish with clock := c.clock } = c.finish := by rw [← same]
  unfold freewheelTick
  simp only [same, h, hl, self]

/-- The clock as an edge finds it. -/
def reached (k : Timebase) (instant : Nat) : Timebase := { k with now := max k.now instant }

theorem reach_finish (instant : Nat) :
    c.finish.reach instant = { c.finish with clock := reached c.clock instant } := by
  unfold reach reached
  rw [(finishFrame_finish c).clock]

end Sys2Proof.Machine.Cm8
end

section
/-! PROOF. Studio time: the causes of a tick, sync edges, time changes and the clock commands (R30 to
R43). -/

namespace Sys2Proof.Machine.Cm8

variable (c : Cm8)

/-! ### Sync edges -/

/-- A tick's clock is changed once more, by the edge that made it: the tick is delivered all the same. -/
theorem ticked_edge (instant : Nat) (x : TickInputs) (k : Timebase) (announced : List Event)
    (frame : k.frame = c.clock.frame) (change : k.change = c.clock.change) :
    c.Ticked (({ c.finish with clock := k }.tick instant x
      (announced.map .announce)).noteEdge instant).advance.chooseIdle instant x announced := by
  have h := c.ticked instant x k { ticking k instant with lastEdge := some instant } announced frame
    change ⟨rfl, rfl, rfl⟩
  have clock := clock_tick { c.finish with clock := k } instant x (announced.map .announce)
  generalize { c.finish with clock := k }.tick instant x (announced.map .announce) = d at h clock ⊢
  unfold noteEdge onClock
  rw [clock]
  exact h

theorem state_reached (instant : Nat) : (c.finish.reach instant).clock.state = c.clock.state := by
  rw [reach_finish]
  rfl

theorem syncEdge_locked (instant : Nat) (x : TickInputs) (h : c.clock.state = .locked) :
    c.syncEdge instant x =
      (((c.finish.reach instant).lockedEdge instant x).noteEdge instant).advance.chooseIdle := by
  unfold syncEdge
  simp only [state_reached, h]

theorem syncEdge_searching (instant : Nat) (x : TickInputs) (h : c.clock.state ≠ .locked) :
    c.syncEdge instant x =
      (((c.finish.reach instant).searchingEdge instant x).noteEdge instant).advance.chooseIdle := by
  unfold syncEdge
  cases hs : c.clock.state with
  | locked => exact absurd hs h
  | unlocked => simp only [state_reached, hs]
  | freewheel => simp only [state_reached, hs]

theorem inWindow_iff (t : Timebase) (i : Int) : t.inWindow i = true ↔
    (t.period : Int) - (t.period / 16 : Nat) ≤ i ∧ i ≤ t.period + (t.period / 16 : Nat) :=
  decide_eq_true_iff

/-- A LOCKED edge inside the window makes a tick with the tracked period (R33). -/
theorem lockedEdge_inside (instant r : Nat) (x : TickInputs) (hr : c.clock.phase = some r)
    (h : c.clock.inWindow ((instant : Int) - r) = true) :
    (c.finish.reach instant).lockedEdge instant x =
      { c.finish with clock := { reached c.clock instant with
          phase := some instant, period := c.clock.track ((instant : Int) - r) } }.tick instant x [] := by
  have window : (reached c.clock instant).inWindow ((instant : Int) - r) = true := h
  rw [reach_finish]
  unfold lockedEdge
  simp only [show (reached c.clock instant).phase = some r from hr, window, if_true]
  rfl

/-- A LOCKED edge outside the window is a glitch (R34). -/
theorem lockedEdge_outside (instant r : Nat) (x : TickInputs) (hr : c.clock.phase = some r)
    (h : c.clock.inWindow ((instant : Int) - r) = false) :
    (c.finish.reach instant).lockedEdge instant x = (c.finish.reach instant).bump .glitch := by
  have window : (reached c.clock instant).inWindow ((instant : Int) - r) = false := h
  rw [reach_finish]
  unfold lockedEdge
  simp only [show (reached c.clock instant).phase = some r from hr, window]
  rfl

/-- An increment of GLITCH touches nothing else of the clock. -/
theorem clock_bump_glitch : (c.bump .glitch).clock =
    { c.clock with glitch :=
      if c.clock.glitch = 0xFFFF#16 then
        (match c.events.counterMode with | .wrap => 0#16 | .saturate => 0xFFFF#16)
      else c.clock.glitch + 1#16 } := by
  have value : c.counter .glitch = c.clock.glitch := rfl
  unfold bump
  dsimp only
  rw [value]
  split
  · rename_i top
    cases c.events.counterMode
    · rfl
    · show c.clock = { c.clock with glitch := 0xFFFF#16 }
      rw [← top]
  · split
    · rw [clock_post]
      rfl
    · split
      · rw [clock_post]
        rfl
      · rfl

theorem track_inside {t : Timebase} {i : Int} (h : t.inWindow i = true) :
    (t.track i : Int) = t.period + roundDiv (i - t.period) 8 := by
  obtain ⟨lo, hi⟩ := (inWindow_iff t i).1 h
  have near := (roundDiv_nearest (i - t.period) (d := 8) (by omega)).1
  unfold Timebase.track
  omega

/-- The clock of an edge that makes no tick, once the idle arbiter has chosen. -/
theorem clock_edge (d : Cm8) (instant : Nat) :
    ((d.noteEdge instant).advance.chooseIdle).clock = { d.clock with lastEdge := some instant } :=
  clock_tail _

/-- The clock of an edge that makes a tick. -/
theorem clock_edgeTick (instant : Nat) (x : TickInputs) (tail : List Work) :
    (((c.tick instant x tail).noteEdge instant).advance.chooseIdle).clock =
      { ticking c.clock instant with lastEdge := some instant } := by
  rw [clock_edge, clock_tick]

/-- A record told before the edge is noted. -/
theorem noteEdge_post (slot : Option Slot) (tag : Option Byte) (e : Event) (instant : Nat) :
    (c.post slot tag e).noteEdge instant = (c.noteEdge instant).post slot tag e := by
  unfold post
  show (if c.events.enabled e then _ else c : Cm8).noteEdge instant =
    if c.events.enabled e then _ else _
  split <;> rfl

/-- What a locking edge makes of the clock (R37). -/
def locking (k : Timebase) (instant : Nat) : Timebase :=
  { k with state := .locked, phase := some instant, run := 0 }

/-- A locking edge makes its tick when the last one is half a period back (R38). -/
theorem searchingEdge_ticks (instant e : Nat) (x : TickInputs) (he : c.clock.lastEdge = some e)
    (window : c.clock.inWindow ((instant : Int) - e) = true) (run : 4 ≤ c.clock.run + 1)
    (passed : halfPeriodPassed c.clock instant = true) :
    c.searchingEdge instant x =
      (c.onClock fun t => locking t instant).tick instant x [.announce .syncLocked] := by
  unfold searchingEdge lockingEdge
  rw [he]
  dsimp only
  rw [if_pos window, if_pos run, if_pos passed]
  rfl

/-- A locking edge with the last tick nearer than that makes none (R38). -/
theorem searchingEdge_locks (instant e : Nat) (x : TickInputs) (he : c.clock.lastEdge = some e)
    (window : c.clock.inWindow ((instant : Int) - e) = true) (run : 4 ≤ c.clock.run + 1)
    (near : ¬ halfPeriodPassed c.clock instant = true) :
    c.searchingEdge instant x = (c.onClock fun t => locking t instant).post none none .syncLocked := by
  unfold searchingEdge lockingEdge
  rw [he]
  dsimp only
  rw [if_pos window, if_pos run, if_neg near]
  rfl

/-- An edge that does not lock leaves everything but the run (R37). -/
theorem searchingEdge_waits (instant e : Nat) (x : TickInputs) (he : c.clock.lastEdge = some e)
    (short : ¬ (c.clock.inWindow ((instant : Int) - e) = true ∧ 4 ≤ c.clock.run + 1)) :
    c.searchingEdge instant x = c.onClock fun t =>
      { t with run := if c.clock.inWindow ((instant : Int) - e) then t.run + 1 else 0 } := by
  unfold searchingEdge
  rw [he]
  dsimp only
  by_cases window : c.clock.inWindow ((instant : Int) - e) = true
  · simp only [if_pos window, if_neg fun h => short ⟨window, h⟩]
  · simp only [if_neg window]

theorem searchingEdge_first (instant : Nat) (x : TickInputs) (h : c.clock.lastEdge = none) :
    c.searchingEdge instant x = c := by
  unfold searchingEdge
  rw [h]

/-- The clock after an edge in UNLOCKED or FREEWHEEL that makes no tick (R32, R37, R38). -/
theorem clock_searchingEdge (instant : Nat) (x : TickInputs) (state : c.clock.state ≠ .locked)
    {k : Timebase}
    (h : ((c.finish.reach instant).searchingEdge instant x).clock = k) :
    (c.syncEdge instant x).clock = { k with lastEdge := some instant } := by
  rw [syncEdge_searching c instant x state, clock_edge, h]

/-- The test of R38 in the words of the statements. -/
theorem halfPeriodPassed_iff (t : Timebase) (instant : Nat) : halfPeriodPassed t instant = true ↔
    ∀ l, t.lastTick = some l → ((t.period / 2 : Nat) : Int) ≤ (instant : Int) - l := by
  unfold halfPeriodPassed
  cases t.lastTick with
  | none => simp
  | some l => simp

/-- The time of last tick after LOSS_EXPIRY in LOCKED (R35). -/
theorem lastTick_lossExpiry (x : TickInputs) {r : Nat} (h : c.clock.state = .locked)
    (hr : c.clock.phase = some r) :
    (c.lossExpiry x).clock.lastTick = some (r + c.clock.period + c.clock.period / 8) := by
  rw [lossExpiry_locked c x h hr, clock_tail, clock_tick]
  rfl

end Sys2Proof.Machine.Cm8

namespace Sys2Proof

open Sys2Proof.Machine Sys2Proof.Machine.Cm8

/-- Settles O11. -/
theorem lockedEdgeTicksOrGlitches : Obligations.LockedEdgeTicksOrGlitches := by
  unfold Obligations.LockedEdgeTicksOrGlitches
  refine ⟨?_, ?_⟩
  · intro s instant r x state phase p i lo hi
    have window : s.part.clock.inWindow i = true := (inWindow_iff _ _).2 ⟨lo, hi⟩
    have edge := syncEdge_locked s.part instant x state
    rw [lockedEdge_inside s.part instant r x phase window] at edge
    refine ⟨s.onPart fun c => c.syncEdge instant x, rfl, rfl, ?_⟩
    show s.part.Ticked (s.part.syncEdge instant x) instant x [] ∧
      (s.part.syncEdge instant x).clock.state = _ ∧ (s.part.syncEdge instant x).clock.phase = _ ∧
      ((s.part.syncEdge instant x).clock.period : Int) = _ ∧
      (s.part.syncEdge instant x).clock.lastEdge = _ ∧ (s.part.syncEdge instant x).clock.rate = _ ∧ _
    have ticked := s.part.ticked_edge instant x { reached s.part.clock instant with
      phase := some instant, period := s.part.clock.track i } [] rfl rfl
    have clock := clock_edgeTick { s.part.finish with clock := { reached s.part.clock instant with
      phase := some instant, period := s.part.clock.track i } } instant x []
    rw [← edge] at clock
    rw [List.map_nil, ← edge] at ticked
    refine ⟨ticked, ?_⟩
    have locked : (s.part.syncEdge instant x).clock.state = .locked := by rw [clock]; exact state
    have reference : (s.part.syncEdge instant x).clock.phase = some instant := by rw [clock]; rfl
    refine ⟨locked, reference, ?_, by rw [clock], by rw [clock]; rfl, fun y => ?_⟩
    · rw [clock]
      exact track_inside window
    · exact ⟨_, rfl, lastTick_lossExpiry (s.part.syncEdge instant x) y locked reference⟩
  · intro s instant r x state phase p i far
    have window : s.part.clock.inWindow i = false := by
      rw [Bool.eq_false_iff, Ne, inWindow_iff]
      omega
    have edge := syncEdge_locked s.part instant x state
    rw [lockedEdge_outside s.part instant r x phase window] at edge
    have clock := clock_edge ((s.part.finish.reach instant).bump .glitch) instant
    have mode : (s.part.finish.reach instant).events.counterMode = s.part.events.counterMode :=
      (sameSettings_finish s.part).2.2.1
    rw [← edge, clock_bump_glitch, mode, reach_finish] at clock
    refine ⟨s.onPart fun c => c.syncEdge instant x, rfl, rfl, ?_⟩
    show (s.part.syncEdge instant x).clock.state = _ ∧ (s.part.syncEdge instant x).clock.phase = _ ∧
      (s.part.syncEdge instant x).clock.period = _ ∧ (s.part.syncEdge instant x).clock.lastTick = _ ∧
      (s.part.syncEdge instant x).clock.frame = _ ∧ (s.part.syncEdge instant x).clock.change = _ ∧
      (s.part.syncEdge instant x).clock.lastEdge = _ ∧ (s.part.syncEdge instant x).clock.glitch = _
    rw [clock]
    exact ⟨state, phase, rfl, rfl, rfl, rfl, rfl, rfl⟩

/-- The clock before an edge, as finishing the last tick and the edge's instant leave it. -/
theorem clock_reached (c : Cm8) (instant : Nat) :
    (c.finish.reach instant).clock = reached c.clock instant := by
  rw [reach_finish]

/-- Settles O12. -/
theorem searchingEdgeBuildsLock : Obligations.SearchingEdgeBuildsLock := by
  unfold Obligations.SearchingEdgeBuildsLock
  intro s instant x state k
  have clock {k' : Timebase} := clock_searchingEdge s.part instant x state (k := k')
  have before := clock_reached s.part instant
  have row := syncEdge_searching s.part instant x state
  have rowWork : (s.part.finish.reach instant).work = [] := work_finish s.part
  have reachedAt := reach_finish s.part instant
  refine ⟨s.onPart fun c => c.syncEdge instant x, rfl, rfl, ?_⟩
  show (s.part.syncEdge instant x).clock.lastEdge = _ ∧ (s.part.syncEdge instant x).clock.period = _ ∧
    (s.part.syncEdge instant x).clock.rate = _ ∧ (s.part.syncEdge instant x).clock.glitch = _ ∧ _
  have part : (s.onPart fun c => c.syncEdge instant x).part = s.part.syncEdge instant x := rfl
  rw [part]
  generalize s.part.finish.reach instant = d at *
  cases last : k.lastEdge with
  | none =>
    have now := clock (searchingEdge_first d instant x (by rw [before]; exact last) ▸ before)
    rw [now]
    exact ⟨rfl, rfl, rfl, rfl, rfl, rfl, rfl, rfl, rfl⟩
  | some e =>
    have edge : d.clock.lastEdge = some e := by rw [before]; exact last
    have sameWindow : d.clock.inWindow ((instant : Int) - e) = k.inWindow ((instant : Int) - e) := by
      rw [before]; rfl
    have sameRun : d.clock.run = k.run := by rw [before]; rfl
    dsimp only
    by_cases near : d.clock.inWindow ((instant : Int) - e) = true
    · rw [if_pos ((inWindow_iff _ _).1 (sameWindow ▸ near))]
      by_cases run : 4 ≤ d.clock.run + 1
      · rw [if_neg (by omega)]
        by_cases passed : halfPeriodPassed d.clock instant = true
        · have made := searchingEdge_ticks d instant e x edge near run passed
          have now : (s.part.syncEdge instant x).clock =
              { ticking (locking (reached s.part.clock instant) instant) instant with
                lastEdge := some instant } := by
            rw [row, made, clock_edgeTick, ← before]
            rfl
          have ticked : s.part.Ticked (s.part.syncEdge instant x) instant x [.syncLocked] := by
            rw [row, made, reachedAt]
            exact ticked_edge s.part instant x (locking (reached s.part.clock instant) instant)
              [.syncLocked] rfl rfl
          rw [now]
          refine ⟨rfl, rfl, rfl, rfl, rfl, rfl, rfl, ?_⟩
          have test := (halfPeriodPassed_iff k instant).1 (by rw [before] at passed; exact passed)
          split
          · exact ticked
          · rename_i l hl
            rw [if_pos (test l hl)]
            exact ticked
        · have made := searchingEdge_locks d instant e x edge near run passed
          have now : (s.part.syncEdge instant x).clock =
              { locking (reached s.part.clock instant) instant with lastEdge := some instant } := by
            rw [row, made, clock_edge, clock_post, ← before]
            rfl
          have whole : s.part.syncEdge instant x =
              (({ s.part.finish with clock := (s.part.syncEdge instant x).clock } : Cm8).post none none
                .syncLocked).chooseIdle := by
            rw [now, row, made, advance_of_nil _ (by rw [noteEdge_post, work_post]; exact rowWork),
              noteEdge_post, reachedAt]
            rfl
          rw [halfPeriodPassed_iff, before] at passed
          push Not at passed
          obtain ⟨l, hl, far⟩ := passed
          rw [show k.lastTick = some l from hl]
          dsimp only
          rw [if_neg (by exact Int.not_le.2 far)]
          refine ⟨by rw [now], by rw [now]; rfl, by rw [now]; rfl, by rw [now]; rfl, by rw [now]; rfl,
            by rw [now]; rfl, by rw [now]; rfl, by rw [now]; rfl, by rw [now]; exact hl,
            by rw [now]; rfl, whole⟩
      · have made := searchingEdge_waits d instant e x edge fun h => run h.2
        have now : (d.searchingEdge instant x).clock =
            { reached s.part.clock instant with run := k.run + 1 } := by
          rw [made]
          simp only [if_pos near]
          rw [← before]
          exact congrArg (fun n => { d.clock with run := n + 1 }) sameRun
        rw [if_pos (by omega), clock now]
        exact ⟨rfl, rfl, rfl, rfl, rfl, rfl, rfl, rfl, rfl⟩
    · have made := searchingEdge_waits d instant e x edge fun h => near h.1
      have now : (d.searchingEdge instant x).clock = { reached s.part.clock instant with run := 0 } := by
        rw [made]
        simp only [if_neg near]
        rw [← before]
        rfl
      rw [if_neg fun h => near (sameWindow ▸ (inWindow_iff _ _).2 h), clock now]
      exact ⟨rfl, rfl, rfl, rfl, rfl, rfl, rfl, rfl, rfl⟩

/-- Settles O13. -/
theorem freewheelKeepsTime : Obligations.FreewheelKeepsTime := by
  unfold Obligations.FreewheelKeepsTime
  refine ⟨?_, ?_⟩
  · intro s r x state phase
    have row := lossExpiry_locked s.part x state phase
    have ticked := s.part.ticked_tick (r + s.part.clock.period + s.part.clock.period / 8) x
      { s.part.clock with state := .freewheel, run := 0 } [.syncLost] rfl rfl
    have clock := clock_tail (({ s.part.finish with clock :=
      { s.part.clock with state := .freewheel, run := 0 } } : Cm8).tick
        (r + s.part.clock.period + s.part.clock.period / 8) x [.announce .syncLost])
    rw [← row, clock_tick] at clock
    rw [show [Event.syncLost].map Work.announce = [.announce .syncLost] from rfl, ← row] at ticked
    refine ⟨s.onPart fun c => c.lossExpiry x, rfl, rfl, ticked, ?_⟩
    show (s.part.lossExpiry x).clock.state = _ ∧ (s.part.lossExpiry x).clock.run = _ ∧
      (s.part.lossExpiry x).clock.period = _ ∧ (s.part.lossExpiry x).clock.lastEdge = _
    rw [clock]
    exact ⟨rfl, rfl, rfl, rfl⟩
  · intro s l x state last
    have row := freewheelTick_freewheel s.part x state last
    have ticked := s.part.ticked_tick (l + s.part.clock.period) x s.part.clock [] rfl rfl
    have clock := clock_tail (({ s.part.finish with clock := s.part.clock } : Cm8).tick
      (l + s.part.clock.period) x [])
    rw [← row, clock_tick] at clock
    rw [List.map_nil, ← row] at ticked
    refine ⟨s.onPart fun c => c.freewheelTick x, rfl, rfl, ticked, ?_⟩
    show (s.part.freewheelTick x).clock.state = _ ∧ (s.part.freewheelTick x).clock.period = _ ∧
      (s.part.freewheelTick x).clock.run = _ ∧ (s.part.freewheelTick x).clock.lastEdge = _
    rw [clock]
    exact ⟨state, rfl, rfl, rfl⟩

/-- Settles O15. -/
theorem cueComesInHalfCircle : Obligations.CueComesInHalfCircle := by
  unfold Obligations.CueComesInHalfCircle
  intro f cue
  refine ⟨?_, ?_, rfl, ?_⟩
  · unfold cueCome
    rw [decide_eq_true_iff, BitVec.toNat_sub]
    omega
  · exact decide_eq_true_iff.trans ne_comm
  · rintro rfl
    unfold cueCome
    rw [BitVec.sub_self]
    rfl

end Sys2Proof
end

section
/-! PROOF. The work of a tick, piece by piece (O10). -/

namespace Sys2Proof.Machine.Cm8

variable (c : Cm8) (i : Slot)

/-- A due event at the front of the work is what its row does, and an idle port chooses after it (log entry
1). -/
theorem takeEvent_due {w : Work} {ws : List Work} {isDue : Cm8 → Bool} (h : c.work = w :: ws)
    (k : w.isHandover = false) (n : w ≠ .settle) (due : isDue c = true) :
    c.takeEvent w isDue = ({ c with work := ws }.runWork w).advance.chooseIdle :=
  takeEvent_front c w ws isDue h n k due

/-- The motion work of a head is an event when its move completes or its jog runs out (R68, R87). -/
theorem due_motion_iff : c.due (.motion i) = true ↔
    (∃ m held, (c.head i).activity = .moving m held ∧ m.d ≤ m.k + 1) ∨
      ∃ j, (c.head i).activity = .jogging j ∧ j.refresh = 11 := by
  show (c.completionDue i || c.refreshDue i) = true ↔ _
  rw [Bool.or_eq_true, completionDue_iff, refreshDue_iff]

theorem motionStep_jogging {j : Jog} (h : (c.head i).activity = .jogging j) :
    c.motionStep i = { c with work := c.work.erase (.queue i) }.jogTick i j := by
  unfold motionStep
  rw [h]
  rfl

theorem motionStep_still (active : (c.head i).activity.active = none)
    (jog : ∀ j, (c.head i).activity ≠ .jogging j) : c.motionStep i = c := by
  unfold motionStep
  cases h : (c.head i).activity with
  | moving m held => simp [h, Activity.active] at active
  | jogging j => exact absurd h (jog j)
  | _ => rfl

/-- The queue work of a head is an event when its head entry acts (R51, R52, R57). -/
theorem due_queue_iff : c.due (.queue i) = true ↔ ∃ e rest, (c.head i).queue = e :: rest ∧
    (∀ cue, e.cue = some cue → cueCome c.clock.frame cue = true) ∧
    ((c.head i).activity = .idle ∨ (c.head i).activity = .waitCue ∨ (e.rule = .cuedReplace ∧
      ((∃ w, (c.head i).activity = .waitZone w) ∨
        ∃ m held, (c.head i).activity = .moving m held ∧ m.cls ≠ .stop))) := by
  show (c.actingEntry i).isSome = true ↔ _
  rw [Option.isSome_iff_exists]
  refine exists_congr fun e => ?_
  rw [actingEntry_eq_some, cueReady_iff]
  constructor
  · rintro ⟨front, ready, acts⟩
    obtain ⟨rest, hq⟩ := List.head?_eq_some_iff.1 front
    exact ⟨rest, hq, ready, acts⟩
  · rintro ⟨rest, hq, ready, acts⟩
    exact ⟨by rw [hq]; rfl, ready, acts⟩

theorem timerStep_waiting {w : Waiting} (h : (c.head i).activity = .waitZone w) :
    (w.fresh = true → c.timerStep i = c.setActivity i (.waitZone { w with fresh := false })) ∧
    (w.fresh = false → w.timer + 1 < c.policy.waitTimeout →
      c.timerStep i = c.setActivity i (.waitZone { w with timer := w.timer + 1 })) := by
  have waiting : c.waitingOf i = some w := by unfold waitingOf; rw [h]; rfl
  unfold timerStep
  rw [waiting]
  dsimp only
  refine ⟨fun fresh => ?_, fun fresh short => ?_⟩
  · rw [if_pos fresh]
  · rw [if_neg (by rw [fresh]; exact Bool.false_ne_true), if_neg (by omega)]

theorem timerStep_none (h : (c.head i).activity.waiting = none) : c.timerStep i = c := by
  unfold timerStep
  rw [show c.waitingOf i = none from h]

theorem due_page_iff : c.due (.page i) = true ↔
    ∃ n, (c.head i).link.pageTimer = some n ∧ 16 ≤ n + 1 := by
  show ((c.head i).link.pageTimer.any fun t => decide (Config.pageTimeoutTicks ≤ t + 1)) = true ↔ _
  cases (c.head i).link.pageTimer <;> simp [Config.pageTimeoutTicks]

theorem pageStep_counts {n : Nat} (h : (c.head i).link.pageTimer = some n) (short : n + 1 < 16) :
    c.pageStep i = c.setHead i { c.head i with
      link := { (c.head i).link with pageTimer := some (n + 1) } } := by
  unfold pageStep
  rw [h]
  dsimp only
  rw [if_neg (show ¬ Config.pageTimeoutTicks ≤ n + 1 from Nat.not_le.2 short)]
  rfl

theorem pageStep_none (h : (c.head i).link.pageTimer = none) : c.pageStep i = c := by
  unfold pageStep
  rw [h]

theorem lossStep_counts (linked : (c.head i).link.state = .linked)
    (short : (c.head i).link.loss + 1 < (c.pair (c.head i).map.pair).setup.lossTicks) :
    c.lossStep i = c.setHead i { c.head i with
      link := { (c.head i).link with loss := (c.head i).link.loss + 1 } } := by
  have due : ¬ c.lossDue i = true := fun h => Nat.not_le.2 short ((lossDue_iff c i).1 h).2
  unfold lossStep
  rw [if_neg due, if_pos (show (c.head i).isLinked = true from decide_eq_true linked)]
  rfl

theorem lossStep_unlinked (h : (c.head i).link.state ≠ .linked) : c.lossStep i = c := by
  have due : ¬ c.lossDue i = true := fun k => h ((lossDue_iff c i).1 k).1
  unfold lossStep
  rw [if_neg due, if_neg (show ¬ (c.head i).isLinked = true from fun k => h (of_decide_eq_true k))]

/-- The row of a due event at the front of the work (log entry 1). -/
theorem eventRows (s : State) (w : Work) (ws : List Work) (work : s.part.work = w :: ws)
    (due : s.part.due w = true) (moved : .motion i ∉ ws) :
    let done : Host.Outcome State Fault Refusal :=
      .next { s with part := ({ s.part with work := ws }.runWork w).advance.chooseIdle }
    (w = .motion i → (exec (.moveCompletion i) s = done ∨ exec (.jogRefreshTimeout i) s = done)) ∧
    (w = .queue i → (exec (.queueEntryStart i) s = done ∨ exec (.cuedReplaceActs i) s = done)) ∧
    (w = .timer i → exec (.zoneWaitTimeout i) s = done) ∧
    (w = .handover i → exec (.zoneGranted i) s = done) ∧
    (w = .page i → exec (.pageTimeout i) s = done) ∧
    (w = .link i → exec (.linkLoss i) s = done) := by
  have row {d : Cm8} (h : d = ({ s.part with work := ws }.runWork w).advance.chooseIdle) :
      (.next { s with part := d } : Host.Outcome State Fault Refusal) =
        .next { s with part := ({ s.part with work := ws }.runWork w).advance.chooseIdle } := by
    rw [h]
  refine ⟨?_, ?_, ?_, ?_, ?_, ?_⟩ <;> rintro rfl
  · obtain h | h := Bool.or_eq_true _ _ ▸ (show (s.part.completionDue i || s.part.refreshDue i) = true
      from due)
    · exact .inl (row (takeEvent_due _ work rfl nofun h))
    · exact .inr (row (takeEvent_due _ work rfl nofun h))
  · obtain ⟨e, he⟩ := Option.isSome_iff_exists.1
      (show (s.part.actingEntry i).isSome = true from due)
    cases rule : e.rule with
    | after => exact .inl (row (takeQueue_front _ i _ work moved (by simp [actsBy, he, rule])))
    | cuedReplace => exact .inr (row (takeQueue_front _ i _ work moved (by simp [actsBy, he, rule])))
  · exact row (takeEvent_due _ work rfl nofun due)
  · exact row (zoneGranted_front _ i work)
  · exact row (takeEvent_due _ work rfl nofun due)
  · exact row (takeEvent_due _ work rfl nofun due)

/-- One candidate's judgement writes the holders alone (R124). -/
theorem judge_arbiter (a : Cm8 × ZoneSet × List Slot) :
    (judge a i).1 = { a.1 with arbiter := (judge a i).1.arbiter } := by
  unfold judge
  dsimp only
  split
  · rfl
  · split <;> rfl

/-- A pass writes the Zone Arbiter alone (R124, R125). -/
theorem judgePass_arbiter : c.judgePass.1 = { c with arbiter := c.judgePass.1.arbiter } := by
  have judged (l : List Slot) (a : Cm8 × ZoneSet × List Slot) :
      (l.foldl judge a).1 = { a.1 with arbiter := (l.foldl judge a).1.arbiter } := by
    induction l generalizing a with
    | nil => rfl
    | cons i l ih =>
      rw [List.foldl_cons, ih, judge_arbiter i a]
  unfold judgePass
  dsimp only
  split <;> rw [judged]

/-- A pass judges, and owes its hand-overs and what they free before the rest (R122). -/
theorem runWork_pass : c.runWork .pass =
    { c.judgePass.1 with work := c.judgePass.2.map .handover ++ .settle :: c.work } := by
  show { c.judgePass.1 with work := c.judgePass.2.map Work.handover ++ Work.settle :: c.judgePass.1.work } = _
  rw [judgePass_arbiter c]

end Sys2Proof.Machine.Cm8

namespace Sys2Proof

open Sys2Proof.Machine Sys2Proof.Machine.Cm8

/-- Settles O10. -/
theorem bresenhamTickCounts : Obligations.BresenhamTickCounts := by
  unfold Obligations.BresenhamTickCounts
  refine ⟨?_, ?_, ?_, ?_, ?_, ?_⟩
  · intro s x h
    have row := bresenhamTick_unlocked s.part x h
    have ticked := s.part.ticked_tick (s.part.clock.bresenhamInstant (s.part.clock.index + 1)) x
      s.part.clock.bresenham [] rfl rfl
    have clock := clock_tail (({ s.part.finish with clock := s.part.clock.bresenham } : Cm8).tick
      (s.part.clock.bresenhamInstant (s.part.clock.index + 1)) x [])
    rw [← row, clock_tick] at clock
    rw [List.map_nil, ← row] at ticked
    refine ⟨s.onPart fun c => c.bresenhamTick x, rfl, rfl, ticked, ?_⟩
    show (s.part.bresenhamTick x).clock.index = _ ∧ (s.part.bresenhamTick x).clock.state = _ ∧
      (s.part.bresenhamTick x).clock.rate = _ ∧ (s.part.bresenhamTick x).clock.reference = _ ∧
      (s.part.bresenhamTick x).clock.period = _ ∧ (s.part.bresenhamTick x).clock.phase = _ ∧
      (s.part.bresenhamTick x).clock.lastEdge = _ ∧ (s.part.bresenhamTick x).clock.run = _
    rw [clock]
    exact ⟨rfl, h, rfl, rfl, rfl, rfl, rfl, rfl⟩
  · refine fun ws => ⟨rfl, ?_⟩
    intro turn order w first
    have named : workOf turn = w := by cases turn <;> rfl
    have ahead (v : Work) : first v = (decide (v = w) || v.precedes w) := by
      show (_ || _) = _
      congr 1
    refine ⟨fun mem => ?_, fun mem => ?_, arrange_perm _ _⟩
    · have h := arrange_of_mem turn order ws (named ▸ mem)
      rw [named] at h
      simp only [ahead]
      exact h
    · exact arrange_of_not_mem turn order ws (named ▸ mem)
  · refine fun c => ⟨fun h => ⟨advance_of_nil c h, finish_of_nil c h⟩, work_finish c,
      fun w ws h => ⟨?_, ?_, ?_⟩⟩
    · exact finish_cons h
    · intro due
      rw [advance_cons h, if_pos due]
    · intro idle
      rw [advance_cons h, if_neg (Bool.eq_false_iff.1 idle)]
  · intro s w ws i work due moved
    exact eventRows i s w ws work due moved
  · intro c i h
    refine ⟨due_motion_iff c i, fun m held active short => ?_, fun j jog => motionStep_jogging c i jog,
      motionStep_still c i, due_queue_iff c i, fun idle => ?_, rfl, timeoutDue_iff c i,
      fun w waits => timerStep_waiting c i waits, timerStep_none c i, due_page_iff c i,
      fun n => pageStep_counts c i, pageStep_none c i, lossDue_iff c i, lossStep_counts c i,
      lossStep_unlinked c i, rfl, rfl⟩
    · show c.motionStep i = _
      unfold motionStep
      rw [show (c.head i).activity = .moving m held from active]
      exact moveTick_running c i held short
    · refine queueStep_of_none c i ?_
      cases entry : c.actingEntry i with
      | none => rfl
      | some e => exact absurd (show (c.actingEntry i).isSome = true by rw [entry]; rfl) (Bool.eq_false_iff.1 idle)
  · intro c st sent receiving relined e
    refine ⟨?_, fun _ => rfl, runWork_pass c, rfl, rfl, rfl⟩
    intro w hw
    simp only [List.mem_cons, List.not_mem_nil, or_false] at hw
    obtain rfl | rfl | rfl | rfl := hw <;> rfl

end Sys2Proof
end

section
/-! PROOF. The Bresenham sequence (R31): nothing but its own ticks, CLOCK SET and power-on moves it. -/

namespace Sys2Proof.Machine

/-- The place in the Bresenham sequence is as it was. -/
def Timebase.SamePlace (t u : Timebase) : Prop :=
  u.rate = t.rate ∧ u.index = t.index ∧ u.remainder = t.remainder

theorem Timebase.SamePlace.trans {a b c : Timebase} (h : a.SamePlace b) (k : b.SamePlace c) :
    a.SamePlace c :=
  ⟨k.1.trans h.1, k.2.1.trans h.2.1, k.2.2.trans h.2.2⟩

theorem Timebase.SamePlace.of_eq {t u : Timebase} (h : u = t) : t.SamePlace u := h ▸ ⟨rfl, rfl, rfl⟩

/-- One place further: the remainder that is carried is that of the next index. -/
theorem bresenham_remainder (t : Timebase)
    (h : t.remainder = t.periodNumerator * t.index % Config.rateN t.rate) :
    t.bresenham.remainder =
      t.bresenham.periodNumerator * t.bresenham.index % Config.rateN t.bresenham.rate := by
  have hn : 0 < Config.rateN t.rate := by
    generalize t.rate = r
    revert r
    decide
  have next : t.periodNumerator * (t.index + 1) % Config.rateN t.rate =
      (t.remainder + t.periodNumerator % Config.rateN t.rate) % Config.rateN t.rate := by
    rw [Nat.mul_succ, Nat.add_mod, ← h]
  have lo : t.remainder < Config.rateN t.rate := h ▸ Nat.mod_lt _ hn
  have hi : t.periodNumerator % Config.rateN t.rate < Config.rateN t.rate := Nat.mod_lt _ hn
  change (if Config.rateN t.rate ≤ t.remainder + t.periodNumerator % Config.rateN t.rate then _ else _) =
    t.periodNumerator * (t.index + 1) % Config.rateN t.rate
  rw [next]
  generalize t.periodNumerator % Config.rateN t.rate = p at hi ⊢
  split
  · rw [Nat.mod_eq_sub_mod ‹_›, Nat.mod_eq_of_lt (by omega)]
  · rw [Nat.mod_eq_of_lt (by omega)]

namespace Cm8

variable {c d : Cm8}

theorem BresenhamExact.of_samePlace (h : c.BresenhamExact) (k : c.clock.SamePlace d.clock) :
    d.BresenhamExact := by
  obtain ⟨hr, hi, hm⟩ := k
  unfold BresenhamExact Timebase.periodNumerator at h ⊢
  rw [hr, hi, hm]
  exact h

theorem samePlace_setCounter (c : Cm8) (id : CounterId) (v : BitVec 16) :
    c.clock.SamePlace (c.setCounter id v).clock := by
  cases id with
  | line st k => exact .of_eq (workFrame_onStore c st _).clock
  | _ => exact ⟨rfl, rfl, rfl⟩

theorem samePlace_bump (c : Cm8) (id : CounterId) : c.clock.SamePlace (c.bump id).clock := by
  unfold bump
  dsimp only
  split
  · split
    · exact samePlace_setCounter ..
    · exact .of_eq rfl
  · split
    · rw [clock_post]
      exact samePlace_setCounter ..
    · split
      · rw [clock_post]
        exact samePlace_setCounter ..
      · exact samePlace_setCounter ..

theorem samePlace_foldl {α : Type} {f : Cm8 → α → Cm8}
    (step : ∀ (c : Cm8) a, c.clock.SamePlace (f c a).clock) (l : List α) (c : Cm8) :
    c.clock.SamePlace (l.foldl f c).clock := by
  induction l generalizing c with
  | nil => exact .of_eq rfl
  | cons a l ih => exact (step c a).trans (ih _)

/-! ### Commands -/

theorem clock_remap (c : Cm8) (i : Slot) (m : HeadMap) : (c.remap i m).clock = c.clock := by
  unfold remap
  dsimp only
  rw [(((workFrame_flush _ i).trans (workFrame_freeOutside _ i _)).trans (workFrame_settle _)).clock]
  split
  · simp
  · rfl

theorem clock_relineSlots (c : Cm8) (p : Fin 2) (l : LineSetup) : (c.relineSlots p l).clock = c.clock := by
  have unlinked (s : List Slot) (c : Cm8) : (s.foldl unlinkForLine c).clock = c.clock := by
    induction s generalizing c with
    | nil => rfl
    | cons j s ih =>
      rw [List.foldl_cons, ih]
      unfold unlinkForLine
      dsimp only
      split
      · rw [clock_post]
        rfl
      · rfl
  unfold relineSlots
  dsimp only
  rw [((workFrame_dropPass ..).trans (workFrame_dropPass ..)).clock, unlinked]
  simp [writeSetup]

theorem bresenhamExact_commanded (h : c.BresenhamExact) (k : Commanded c d) : d.BresenhamExact := by
  have same (hd : d.clock = c.clock) : d.BresenhamExact := h.of_samePlace (.of_eq hd)
  cases k with
  | counters ids =>
    refine h.of_samePlace ?_
    unfold clearOnRead
    split
    · exact samePlace_foldl (fun c id => samePlace_setCounter c id _) ids c
    · exact .of_eq rfl
  | remap i m => exact same (clock_remap c i m)
  | zonemap map still => exact same (workFrame_rezone { c with zonemap := map }).clock
  | lines p l => exact same (clock_relineSlots c p l)
  | reclock rate => simp [BresenhamExact, reclock]
  | append i e room => exact same (workFrame_refresh _ i).clock
  | cued i e =>
    exact same (((workFrame_flush c i).trans (workFrame_setQueue ..)).trans (workFrame_refresh ..)).clock
  | replaceOver i m free => exact same ((workFrame_flush c i).trans (workFrame_overrideWith ..)).clock
  | replaceFree i x p => exact same (workFrame_replaceFree i c x p).clock
  | priority i m cls room free unstopped =>
    exact same (((workFrame_makeWay i c).trans (workFrame_takeOver ..)).trans (workFrame_post ..)).clock
  | stop i => exact same (workFrame_stopHead i c).clock
  | stopAll =>
    refine same (WorkFrame.foldl_fst (fun a j => ?_) Slot.all (c, 0)).clock
    unfold stopEach
    split
    · exact workFrame_stopHead j _
    · exact .refl _
  | halt i => exact same (workFrame_haltRequest c i _).clock
  | haltAll => exact same (WorkFrame.foldl_fst (workFrame_haltEach _) Slot.all (c, 0)).clock
  | clear i t halted => exact same (workFrame_clearHalted i c t).clock
  | release i halted =>
    exact same ((workFrame_freeOutside c i _).trans (passFrame_grantPass _).workFrame).clock
  | mask m => exact same (passFrame_grantPass { c with arbiter := { c.arbiter with mask := m } }).clock
  | lowest i r =>
    exact same (passFrame_grantPass { c with
      arbiter := { c.arbiter with lowest := i }, policy := { c.policy with rotation := r } }).clock
  | reset =>
    have halted : WorkFrame c (Slot.all.foldl resetHalt (c, 0)).1 := by
      refine WorkFrame.foldl_fst (fun a j => ?_) Slot.all (c, 0)
      unfold resetHalt
      split
      · exact workFrame_haltEach _ a j
      · exact .refl _
    have parts (e : Cm8) : e.clock.SamePlace e.resetParts.clock := ⟨rfl, rfl, rfl⟩
    refine h.of_samePlace (((Timebase.SamePlace.of_eq halted.clock).trans (parts _)).trans (.of_eq ?_))
    rw [clock_post]
  | _ => exact h

theorem bresenhamExact_offer (h : c.BresenhamExact) (kind tag : Byte) (body : List Byte)
    (run : Cm8 → Cm8 × Answer) (k : Commanded c (run c).1) : (c.offer kind tag body run).BresenhamExact := by
  have carried := bresenhamExact_commanded h k
  unfold offer
  split
  · exact carried
  · split
    · exact h
    · exact h.of_samePlace (samePlace_bump ..)

theorem bresenhamExact_pumpN (n : Nat) (h : c.BresenhamExact) : (pumpN n c).BresenhamExact := by
  induction n generalizing c with
  | zero => exact h
  | succ n ih =>
    unfold pumpN
    split
    · exact h
    · rename_i f fs _
      split
      · have carried := bresenhamExact_commanded (c := { c with port := { c.port with buffer := fs } }) h
          (commanded_carryOut f.kind f.tag f.body)
        exact ih carried
      · exact h

/-! ### Head lines -/

theorem worked_firstReport (c : Cm8) (i : Slot) (r : Report) : Worked c (c.firstReport i r) := by
  have placed := worked_onHead c i fun h => (h.adopt r.measured).settleSetpoint
  unfold firstReport
  dsimp only
  split
  · exact placed.trans (worked_haltRequest ..)
  · split
    · exact placed.trans (worked_haltRequest ..)
    · exact placed.trans ((worked_giveFree ..).trans (worked_onHead _ i _))

theorem worked_onTrack (c : Cm8) (i : Slot) (f : Tracker → Tracker) : Worked c (c.onTrack i f) :=
  worked_onHead c i fun h => h.onTrack f

theorem worked_followStep (c : Cm8) (i : Slot) (r : Report) : Worked c (c.followStep i r) := by
  have cleared (d : Cm8) :
      Worked d (if r.localControl then d.onTrack i fun t => { t with run := 0 } else d) := by
    split
    · exact worked_onTrack ..
    · exact .refl d
  unfold followStep
  dsimp only
  split
  · exact (worked_bump ..).trans (cleared _)
  · split
    · exact cleared c
    · split
      · exact (worked_onTrack ..).trans (worked_haltRequest ..)
      · exact worked_onTrack ..

theorem worked_placeReport (c : Cm8) (i : Slot) (r : Report) (stale : Bool) :
    Worked c (c.placeReport i r stale) := worked_onTrack ..

theorem worked_offerReport (c : Cm8) (i : Slot) (r : Report) (stale : Bool) (saved : Nat) :
    Worked c (c.offerReport i r stale saved) := by
  unfold offerReport
  dsimp only
  split
  · exact worked_onTrack ..
  · split
    · exact ((worked_onTrack ..).trans (worked_placeReport ..)).trans (worked_onTrack ..)
    · exact (worked_onTrack ..).trans (worked_onTrack ..)

theorem worked_storeReport (c : Cm8) (i : Slot) (r : Report) : Worked c (c.storeReport i r) := by
  unfold storeReport
  dsimp only
  split
  · exact (worked_onTrack ..).trans (worked_haltRequest ..)
  · exact worked_onTrack ..

theorem worked_trackReport (c : Cm8) (i : Slot) (r : Report) : Worked c (c.trackReport i r) := by
  unfold trackReport
  split
  · exact ((worked_storeReport ..).trans (worked_followStep ..)).trans (worked_offerReport ..)
  · rename_i flag _
    have followed := (((worked_bump c (c.lineOf i) .overrun).trans (worked_storeReport _ i r)).trans
      (worked_onTrack _ i fun t => { t with run := flag.savedRun })).trans (worked_followStep _ i r)
    unfold trackOverrun
    dsimp only
    split
    · exact followed.trans (worked_placeReport ..)
    · exact followed

theorem worked_linkedReport (c : Cm8) (i : Slot) (r : Report) : Worked c (c.linkedReport i r) := by
  have noted := worked_onHead c i fun h => { h with link := { h.link with loss := 0, reported := true } }
  unfold linkedReport
  dsimp only
  split
  · exact (noted.trans (worked_firstReport ..)).trans (worked_trackReport ..)
  · exact noted.trans (worked_trackReport ..)

/-- A REPORT adds no work and leaves the time (R145, R159). -/
theorem worked_arriveReport (c : Cm8) (st : StoreId) (address : Byte) (body : List Byte) :
    Worked c (c.arriveReport st address body) := by
  unfold arriveReport
  split
  · split
    · exact worked_bump ..
    · split
      · exact worked_bump ..
      · dsimp only
        split
        · exact (worked_bump ..).trans (worked_linkedReport ..)
        · exact worked_bump ..
  · exact .refl c

/-- A PAGE adds no work and leaves the time (R145, R152). -/
theorem worked_arrivePage (c : Cm8) (st : StoreId) (address : Byte) (body : List Byte) :
    Worked c (c.arrivePage st address body) := by
  unfold arrivePage
  split
  · split
    · exact worked_bump ..
    · exact (worked_bump ..).trans (worked_onHead _ _ _)
  · exact .refl c

theorem worked_frameSent (c : Cm8) (st : StoreId) : Worked c (c.frameSent st) := by
  unfold frameSent
  split
  · exact .refl c
  · exact (worked_onStore c st _).trans (worked_bump ..)

theorem worked_lineBad (c : Cm8) (st : StoreId) : Worked c (c.lineBad st) := by
  unfold lineBad
  split
  · exact worked_bump ..
  · exact .refl c

/-! ### Ticks -/

theorem samePlace_tick {t : Timebase} {c : Cm8} (h : t.SamePlace c.clock) (instant : Nat)
    (x : TickInputs) (tail : List Work) : t.SamePlace (c.tick instant x tail).clock := by
  rw [clock_tick]
  exact h.trans ⟨rfl, rfl, rfl⟩

theorem clock_closePassN (n : Nat) (c : Cm8) : (closePassN n c).clock = c.clock := by
  induction n generalizing c with
  | zero => rfl
  | succ n ih =>
    unfold closePassN
    split
    · exact (ih _).trans (workFrame_runFront c).clock
    · exact (ih _).trans (workFrame_runFront c).clock
    · rfl

theorem clock_closePass (c : Cm8) : c.closePass.clock = c.clock := clock_closePassN _ c

theorem clock_takeWork (c : Cm8) (w : Work) : (c.takeWork w).clock = c.clock :=
  (workFrame_runWork { c with work := c.work.erase w } w).clock

theorem clock_takeEvent (c : Cm8) (w : Work) (isDue : Cm8 → Bool) :
    (c.takeEvent w isDue).clock = c.clock := by
  unfold takeEvent
  dsimp only
  split
  · rw [clock_tail, clock_takeWork, clock_closePass]
  · rfl

theorem clock_takeQueue (c : Cm8) (rule : StartRule) (i : Slot) : (c.takeQueue rule i).clock = c.clock := by
  have moved : (c.closePass.afterMotion i).clock = c.clock := by
    unfold afterMotion
    split
    · rw [clock_takeWork, clock_closePass]
    · exact clock_closePass c
  unfold takeQueue
  dsimp only
  split
  · rw [clock_tail, clock_takeWork, moved]
  · rfl

theorem clock_handUpTo (i : Slot) (n : Nat) (c : Cm8) : (handUpTo i n c).clock = c.clock := by
  induction n generalizing c with
  | zero => rfl
  | succ n ih =>
    unfold handUpTo
    split
    · split
      · exact (workFrame_runFront c).clock
      · exact (ih _).trans (workFrame_runFront c).clock
    · rfl

theorem clock_passAhead (c : Cm8) : c.passAhead.clock = c.clock := by
  have timed (l : List Slot) (c : Cm8) : (l.foldl afterTimer c).clock = c.clock := by
    induction l generalizing c with
    | nil => rfl
    | cons j l ih =>
      rw [List.foldl_cons, ih]
      unfold afterTimer
      split
      · exact clock_takeWork ..
      · rfl
  unfold passAhead
  dsimp only
  split
  · rw [clock_takeWork, timed, clock_closePass]
  · rw [timed, clock_closePass]

theorem clock_zoneGranted (c : Cm8) (i : Slot) : (c.zoneGranted i).clock = c.clock := by
  have ahead : (if c.work.contains (.handover i) then c else c.passAhead).clock = c.clock := by
    split
    · rfl
    · exact clock_passAhead c
  unfold zoneGranted
  generalize (if c.work.contains (.handover i) then c else c.passAhead) = d at ahead
  dsimp only
  split
  · rw [clock_tail, clock_handUpTo, ahead]
  · rfl

theorem samePlace_syncEdge (c : Cm8) (instant : Nat) (x : TickInputs) :
    c.clock.SamePlace (c.syncEdge instant x).clock := by
  have reach : c.clock.SamePlace (c.finish.reach instant).clock := by
    rw [reach_finish]
    exact ⟨rfl, rfl, rfl⟩
  have noted (d : Cm8) (h : c.clock.SamePlace d.clock) :
      c.clock.SamePlace ((d.noteEdge instant).advance.chooseIdle).clock := by
    rw [clock_edge]
    exact h.trans ⟨rfl, rfl, rfl⟩
  unfold syncEdge
  generalize c.finish.reach instant = d at reach
  have searching : c.clock.SamePlace (d.searchingEdge instant x).clock := by
    refine reach.trans ?_
    unfold searchingEdge
    split
    · exact .of_eq rfl
    · split
      · split
        · unfold lockingEdge
          dsimp only
          split
          · refine samePlace_tick ?_ ..
            exact ⟨rfl, rfl, rfl⟩
          · rw [clock_post]
            exact ⟨rfl, rfl, rfl⟩
        · exact ⟨rfl, rfl, rfl⟩
      · exact ⟨rfl, rfl, rfl⟩
  have locked : c.clock.SamePlace (d.lockedEdge instant x).clock := by
    refine reach.trans ?_
    unfold lockedEdge
    split
    · exact .of_eq rfl
    · dsimp only
      split
      · refine samePlace_tick ?_ ..
        exact ⟨rfl, rfl, rfl⟩
      · exact samePlace_bump ..
  dsimp only
  split
  · exact noted _ locked
  · exact noted _ searching
  · exact noted _ searching

/-! ### The port -/

theorem samePlace_directFrame (c : Cm8) (i : Slot) (body : List Byte) :
    c.clock.SamePlace (c.directFrame i body).clock := by
  unfold directFrame filterDirect
  refine (samePlace_bump c .rxOk).trans ?_
  split
  · exact samePlace_bump ..
  · exact .of_eq (workFrame_onStore ..).clock

theorem samePlace_sentEffect (c : Cm8) (u : Upstream) (receiving : Bool) :
    c.clock.SamePlace (c.sentEffect u receiving).clock := by
  unfold sentEffect
  split
  · dsimp only
    split
    · exact samePlace_bump { c with port := { c.port with settings := _, incoming := none } } .rxBad
    · exact .of_eq rfl
  · exact .of_eq rfl

theorem bresenhamExact_upstreamSent (h : c.BresenhamExact) (receiving : Bool) :
    (c.upstreamSent receiving).BresenhamExact := by
  unfold upstreamSent
  split
  · exact h
  · exact bresenhamExact_pumpN _ (h.of_samePlace ((samePlace_sentEffect ..).trans
      (.of_eq (finishFrame_choose _).clock)))

theorem bresenhamExact_commandFrame (h : c.BresenhamExact) (kind tag : Byte) (body : List Byte) :
    (c.commandFrame kind tag body).BresenhamExact := by
  have counted (id : CounterId) := h.of_samePlace (samePlace_bump c id)
  unfold commandFrame
  split
  · exact bresenhamExact_offer (counted _) _ _ _ _ (commanded_carryOut ..)
  · exact counted _

/-- A tick of the Bresenham sequence goes one place further. -/
theorem bresenhamExact_bresenhamTick (h : c.BresenhamExact) (x : TickInputs) :
    (c.bresenhamTick x).BresenhamExact := by
  have finished : c.finish.BresenhamExact := h.of_samePlace (.of_eq (finishFrame_finish c).clock)
  unfold bresenhamTick
  dsimp only
  split
  · have next : (c.finish.onClock fun _ => c.finish.clock.bresenham).BresenhamExact :=
      bresenham_remainder _ finished
    refine next.of_samePlace ?_
    rw [clock_tail]
    refine samePlace_tick ?_ ..
    exact .of_eq rfl
  · exact finished.of_samePlace (.of_eq (finishFrame_chooseIdle _).clock)

theorem samePlace_lossExpiry (c : Cm8) (x : TickInputs) : c.clock.SamePlace (c.lossExpiry x).clock := by
  have same := (finishFrame_finish c).clock
  unfold lossExpiry
  dsimp only
  split
  · rw [clock_tail]
    refine samePlace_tick ?_ ..
    exact .trans (.of_eq same) ⟨rfl, rfl, rfl⟩
  · exact .of_eq ((finishFrame_chooseIdle _).clock.trans same)

theorem samePlace_freewheelTick (c : Cm8) (x : TickInputs) :
    c.clock.SamePlace (c.freewheelTick x).clock := by
  have same := (finishFrame_finish c).clock
  unfold freewheelTick
  dsimp only
  split
  · rw [clock_tail]
    exact samePlace_tick (.of_eq same) ..
  · exact .of_eq ((finishFrame_chooseIdle _).clock.trans same)

theorem bresenhamExact_stepped (h : c.BresenhamExact) (k : Stepped c d) : d.BresenhamExact := by
  have finished : c.finish.BresenhamExact := h.of_samePlace (.of_eq (finishFrame_finish c).clock)
  have chosen {e : Cm8} (k : e.BresenhamExact) : e.chooseIdle.BresenhamExact :=
    k.of_samePlace (.of_eq (finishFrame_chooseIdle e).clock)
  have reached (n : Nat) : (c.finish.reach n).BresenhamExact := finished.of_samePlace ⟨rfl, rfl, rfl⟩
  have same (e : c.clock.SamePlace d.clock) : d.BresenhamExact := h.of_samePlace e
  cases k with
  | powerOn => rfl
  | bresenham x => exact bresenhamExact_bresenhamTick h x
  | edge n x => exact same (samePlace_syncEdge c n x)
  | loss x => exact same (samePlace_lossExpiry c x)
  | freewheel x => exact same (samePlace_freewheelTick c x)
  | event w isDue plain => exact same (.of_eq (clock_takeEvent c w isDue))
  | queue rule i => exact same (.of_eq (clock_takeQueue c rule i))
  | granted i => exact same (.of_eq (clock_zoneGranted c i))
  | sent st => exact chosen (finished.of_samePlace (.of_eq (worked_frameSent _ st).clock))
  | bad st => exact chosen (finished.of_samePlace (.of_eq (worked_lineBad _ st).clock))
  | report st a b => exact chosen (finished.of_samePlace (.of_eq (worked_arriveReport _ st a b).clock))
  | page st a b => exact chosen (finished.of_samePlace (.of_eq (worked_arrivePage _ st a b).clock))
  | portBad => exact chosen (finished.of_samePlace (samePlace_bump ..))
  | frame n k t b => exact chosen (bresenhamExact_commandFrame (reached n) k t b)
  | direct i b => exact chosen (finished.of_samePlace (samePlace_directFrame _ i b))
  | upstream n r => exact chosen (bresenhamExact_upstreamSent (reached n) r)
  | command k t b run commanded => exact chosen (bresenhamExact_offer finished k t b run (commanded _))
  | commandAt n k t b run commanded =>
    have moved : (c.reach n).finish.BresenhamExact :=
      h.of_samePlace (Timebase.SamePlace.trans (b := (c.reach n).clock) ⟨rfl, rfl, rfl⟩
        (.of_eq (finishFrame_finish (c.reach n)).clock))
    exact chosen (bresenhamExact_offer moved k t b run (commanded _))
  | idle => exact chosen finished

end Cm8

end Sys2Proof.Machine

namespace Sys2Proof

open Sys2Proof.Machine

/-- Settles O6: only a Bresenham tick moves the sequence, and it carries the remainder one index on. -/
theorem stepKeepsBresenhamExact : Obligations.StepKeepsBresenhamExact :=
  fun _ _ => step_keeps fun _ _ => Cm8.bresenhamExact_stepped

end Sys2Proof
end

section
/-! PROOF. The fields of command bodies: what is written is read back, and what has no reading (R188,
R194). -/

namespace Sys2Proof.Machine

/-! ### Codes -/

@[simp] theorem toNat_slotByte (i : Slot) : (slotByte i).toNat = i.val := by
  unfold slotByte
  rw [BitVec.toNat_ofNat]
  omega

@[simp] theorem slotOf_slotByte (i : Slot) : slotOf (slotByte i) = some i := by
  unfold slotOf
  simp

theorem slotOf_none {b : Byte} (h : 8 ≤ b.toNat) : slotOf b = none := dif_neg (Nat.not_lt.2 h)

@[simp] theorem toNat_axisByte (a : Axis) : (axisByte a).toNat = a.num := by cases a <;> rfl

@[simp] theorem axisOf_axisByte (a : Axis) : axisOf (axisByte a) = some a := by cases a <;> rfl

theorem axisOf_none {b : Byte} (h : 6 ≤ b.toNat) : axisOf b = none := by
  unfold axisOf
  obtain ⟨k, hk⟩ := Nat.exists_eq_add_of_le h
  rw [hk, Nat.add_comm]
  rfl

/-- A byte below 6 names its axis. -/
theorem exists_axisByte {b : Byte} (h : b.toNat < 6) : ∃ a : Axis, b = axisByte a := by
  have named (a : Axis) (e : b.toNat = a.num) : ∃ a : Axis, b = axisByte a :=
    ⟨a, BitVec.eq_of_toNat_eq (by rw [toNat_axisByte, e])⟩
  generalize hn : b.toNat = n at h
  rw [hn] at named
  interval_cases n
  · exact named .pan rfl
  · exact named .tilt rfl
  · exact named .zoom rfl
  · exact named .focus rfl
  · exact named .lift rfl
  · exact named .travel rfl

theorem shotOf_ofNat (k : Fin 64) : shotOf (BitVec.ofNat 8 k.val) = some k := by
  have e : (BitVec.ofNat 8 k.val).toNat = k.val := by
    rw [BitVec.toNat_ofNat]
    omega
  unfold shotOf
  simp [e]

theorem shotOf_none {b : Byte} (h : 64 ≤ b.toNat) : shotOf b = none := dif_neg (Nat.not_lt.2 h)

theorem zoneOf_ofNat (z : Zone) : zoneOf (BitVec.ofNat 8 z.val) = some z := by
  have e : (BitVec.ofNat 8 z.val).toNat = z.val := by
    rw [BitVec.toNat_ofNat]
    omega
  unfold zoneOf
  simp [e]

theorem zoneOf_none {b : Byte} (h : 16 ≤ b.toNat) : zoneOf b = none := dif_neg (Nat.not_lt.2 h)

theorem pairOf_ofNat (p : Fin 2) : pairOf (BitVec.ofNat 8 p.val) = some p := by
  fin_cases p <;> rfl

theorem pairOf_none {b : Byte} (h : 2 ≤ b.toNat) : pairOf b = none := dif_neg (Nat.not_lt.2 h)

theorem rateOf_ofNat (r : Fin 8) : rateOf (BitVec.ofNat 8 r.val) = some r := slotOf_slotByte r

theorem rateOf_none {b : Byte} (h : 8 ≤ b.toNat) : rateOf b = none := dif_neg (Nat.not_lt.2 h)

/-- A byte that is neither of two codes is above them. -/
theorem toNat_ge_two {b : Byte} (h : 2 ≤ b.toNat) : b ≠ 0#8 ∧ b ≠ 1#8 :=
  ⟨fun e => by simp [e] at h, fun e => by simp [e] at h⟩

theorem switchOf_none {b : Byte} (h : 2 ≤ b.toNat) : switchOf b = none := by
  obtain ⟨h0, h1⟩ := toNat_ge_two h
  rw [switchOf, if_neg h0, if_neg h1]

theorem lineOfCode_none {b : Byte} (h : 2 ≤ b.toNat) : lineOfCode b = none := by
  obtain ⟨h0, h1⟩ := toNat_ge_two h
  rw [lineOfCode, if_neg h0, if_neg h1]

theorem profileOf_none {b : Byte} (h : 2 ≤ b.toNat) : profileOf b = none := by
  obtain ⟨h0, h1⟩ := toNat_ge_two h
  rw [profileOf, if_neg h0, if_neg h1]

theorem maskOf_setWidth (m : AxisMask) : maskOf (m.setWidth 8) = some m := by
  have e : (m.setWidth 8).toNat = m.toNat := by
    rw [BitVec.toNat_setWidth]
    omega
  unfold maskOf
  rw [if_pos (by omega)]
  exact congrArg some (BitVec.eq_of_toNat_eq (by
    rw [BitVec.toNat_setWidth, e]
    exact Nat.mod_eq_of_lt m.isLt))

theorem maskOf_none {b : Byte} (h : 64 ≤ b.toNat) : maskOf b = none := if_neg (Nat.not_lt.2 h)

/-! ### Positions (R188) -/

theorem fitsPosition_be3 (b2 b1 b0 : Byte) : fitsPosition (be3 b2 b1 b0) = true := by
  unfold fitsPosition be3
  rw [decide_eq_true_iff]
  have lo := BitVec.le_toInt (b2 ++ b1 ++ b0 : BitVec 24)
  have hi := BitVec.toInt_lt (x := (b2 ++ b1 ++ b0 : BitVec 24))
  omega

/-- Three bytes are read as the word that they were written from. -/
theorem enc3_append (b2 b1 b0 : Byte) : enc3 (b2 ++ b1 ++ b0 : BitVec 24) = [b2, b1, b0] := by
  unfold enc3
  rw [BitVec.extractLsb'_append_eq_of_le (by omega), BitVec.extractLsb'_append_eq_of_le (by omega),
    BitVec.extractLsb'_append_eq_of_le (by omega), BitVec.extractLsb'_append_eq_of_add_le (by omega),
    BitVec.extractLsb'_append_eq_right]
  simp

theorem append_enc3 (w : BitVec 24) :
    (w.extractLsb' 16 8 ++ w.extractLsb' 8 8 ++ w.extractLsb' 0 8 : BitVec 24) = w := by
  rw [BitVec.extractLsb'_append_extractLsb'_eq_extractLsb' (by rfl),
    BitVec.extractLsb'_append_extractLsb'_eq_extractLsb' (by rfl)]
  simp

/-- A position that three bytes hold is read back exactly (R188). -/
theorem encPos_eq {p : Int} (h : fitsPosition p = true) :
    ∃ b2 b1 b0 : Byte, encPos p = [b2, b1, b0] ∧ be3 b2 b1 b0 = p := by
  obtain ⟨lo, hi⟩ := of_decide_eq_true h
  refine ⟨_, _, _, by unfold encPos enc3; rfl, ?_⟩
  unfold be3
  rw [append_enc3, if_pos h, BitVec.toInt_ofInt]
  exact Int.bmod_eq_of_le (by omega) (by omega)

/-- Three bytes give a position, and that position those bytes. -/
theorem encPos_be3 (b2 b1 b0 : Byte) : encPos (be3 b2 b1 b0) = [b2, b1, b0] := by
  unfold encPos
  rw [if_pos (fitsPosition_be3 ..)]
  unfold be3
  rw [BitVec.ofInt_toInt, enc3_append]

@[simp] theorem length_encPos (p : Int) : (encPos p).length = 3 := rfl

/-- Four bytes are read as the word that they were written from (R188). -/
theorem be4_enc4 (w : BitVec 32) :
    be4 (w.extractLsb' 24 8) (w.extractLsb' 16 8) (w.extractLsb' 8 8) (w.extractLsb' 0 8) = w := by
  unfold be4
  rw [BitVec.extractLsb'_append_extractLsb'_eq_extractLsb' (by rfl),
    BitVec.extractLsb'_append_extractLsb'_eq_extractLsb' (by rfl),
    BitVec.extractLsb'_append_extractLsb'_eq_extractLsb' (by rfl)]
  simp

/-- Two bytes are read as the number that they were written from, when it fits them. -/
theorem be2_enc2 {n : Nat} (h : n < 65536) : be2 (BitVec.ofNat 8 (n / 256)) (BitVec.ofNat 8 n) = n := by
  unfold be2
  rw [BitVec.toNat_ofNat, BitVec.toNat_ofNat]
  omega

/-! ### Lists that follow a count byte -/

theorem axisPairs_rawPairBytes (l : List (Byte × Int)) (h : ∀ t ∈ l, fitsPosition t.2 = true) :
    axisPairs (rawPairBytes l) = some l := by
  induction l with
  | nil => rfl
  | cons t l ih =>
    obtain ⟨b2, b1, b0, he, hv⟩ := encPos_eq (h t (List.mem_cons_self ..))
    have tail := ih fun u hu => h u (List.mem_cons_of_mem _ hu)
    have head : rawPairBytes (t :: l) = t.1 :: b2 :: b1 :: b0 :: rawPairBytes l := by
      simp [rawPairBytes, he]
    rw [head]
    simp [axisPairs, tail, hv]

/-- The pairs of a list of axes, as a body gives them. -/
def rawPairs (l : List (Axis × Int)) : List (Byte × Int) := l.map fun t => (axisByte t.1, t.2)

theorem rawPairBytes_rawPairs (l : List (Axis × Int)) : rawPairBytes (rawPairs l) = pairBytes l := by
  simp [rawPairBytes, rawPairs, pairBytes, List.flatMap_map]

theorem axisPairs_pairBytes (l : List (Axis × Int)) (h : ∀ t ∈ l, fitsPosition t.2 = true) :
    axisPairs (pairBytes l) = some (rawPairs l) := by
  rw [← rawPairBytes_rawPairs]
  refine axisPairs_rawPairBytes _ fun t ht => ?_
  obtain ⟨u, hu, rfl⟩ := List.mem_map.1 ht
  exact h u hu

/-- A list of pairs that is read took four bytes for each. -/
theorem length_axisPairs {body : List Byte} {ps : List (Byte × Int)} (h : axisPairs body = some ps) :
    body.length = 4 * ps.length := by
  induction body using axisPairs.induct generalizing ps with
  | case1 =>
    cases h
    rfl
  | case2 a b2 b1 b0 rest ih =>
    obtain ⟨qs, hq, rfl⟩ := Option.map_eq_some_iff.1 h
    simp only [List.length_cons, ih hq]
    omega
  | case3 body not1 not2 =>
    unfold axisPairs at h
    split at h
    · exact absurd rfl not1
    · exact absurd rfl (not2 _ _ _ _ _)
    · cases h

theorem counted_eq {α : Type} {n : Byte} {l : List α} (h : l.length = n.toNat) :
    counted n (some l) = some l := by
  simp [counted, h]

theorem counted_none {α : Type} {n : Byte} {x : Option (List α)}
    (h : ∀ l, x = some l → l.length ≠ n.toNat) : counted n x = none := by
  unfold counted
  rw [Option.filter_eq_none_iff]
  intro l hl
  simpa using h l hl

/-- A list of pairs that takes another number of bytes than its count says is not read. -/
theorem counted_axisPairs_none {n : Byte} {rest : List Byte} (h : rest.length ≠ 4 * n.toNat) :
    counted n (axisPairs rest) = none :=
  counted_none fun l hl e => h (by rw [length_axisPairs hl, e])

@[simp] theorem nameAxes_rawPairs (l : List (Axis × Int)) : nameAxes (rawPairs l) = some l := by
  induction l with
  | nil => rfl
  | cons t l ih =>
    have head : rawPairs (t :: l) = (axisByte t.1, t.2) :: rawPairs l := rfl
    rw [head]
    simp [nameAxes, ih]

/-- Pairs whose bytes name axes are the pairs of a list of axes, and any other pairs have no reading. -/
theorem nameAxes_eq_some_iff (ps : List (Byte × Int)) (l : List (Axis × Int)) :
    nameAxes ps = some l ↔ ps = rawPairs l := by
  constructor
  · intro h
    induction ps generalizing l with
    | nil => cases h; rfl
    | cons p ps ih =>
      unfold nameAxes at h
      split at h
      · rename_i a rest ha hr
        cases h
        have byte : p.1 = axisByte a := by
          by_cases small : p.1.toNat < 6
          · obtain ⟨b, hb⟩ := exists_axisByte small
            rw [hb, axisOf_axisByte] at ha
            rw [hb, Option.some.inj ha]
          · rw [axisOf_none (Nat.not_lt.1 small)] at ha
            cases ha
        rw [ih rest hr]
        exact congrArg (fun b => (b, p.2) :: rawPairs rest) byte
      · cases h
  · rintro rfl
    exact nameAxes_rawPairs l

theorem exists_rawPairs {ps : List (Byte × Int)} (h : ∀ t ∈ ps, t.1.toNat < 6) :
    ∃ l, ps = rawPairs l := by
  induction ps with
  | nil => exact ⟨[], rfl⟩
  | cons p ps ih =>
    obtain ⟨l, rfl⟩ := ih fun t ht => h t (List.mem_cons_of_mem _ ht)
    obtain ⟨a, ha⟩ := exists_axisByte (h p (List.mem_cons_self ..))
    exact ⟨(a, p.2) :: l, congrArg (fun b => (b, p.2) :: rawPairs l) ha⟩

/-- The axis numbers rise strictly, each above `lo`. -/
theorem ascendingFrom_iff (lo : Int) (ps : List (Byte × Int)) : ascendingFrom lo ps = true ↔
    (∀ t ∈ ps, lo < t.1.toNat) ∧ (ps.map fun t => t.1.toNat).Pairwise (· < ·) := by
  induction ps generalizing lo with
  | nil => simp [ascendingFrom]
  | cons p ps ih =>
    simp only [ascendingFrom, Bool.and_eq_true, decide_eq_true_eq, ih, List.map_cons, List.pairwise_cons,
      List.mem_cons, List.mem_map, forall_exists_index, and_imp, forall_eq_or_imp,
      forall_apply_eq_imp_iff₂]
    constructor
    · rintro ⟨first, above, rising⟩
      exact ⟨⟨first, fun t ht => first.trans (above t ht)⟩,
        fun t ht => by exact_mod_cast above t ht, rising⟩
    · rintro ⟨⟨first, _⟩, above, rising⟩
      exact ⟨first, fun t ht => by exact_mod_cast above t ht, rising⟩

theorem ascendingFrom_neg_iff (ps : List (Byte × Int)) : ascendingFrom (-1) ps = true ↔
    (ps.map fun t => t.1.toNat).Pairwise (· < ·) := by
  rw [ascendingFrom_iff]
  exact and_iff_right fun t _ => by omega

/-- A list of configured axes in strictly ascending order is read, and no other (R20, R86). -/
theorem axisList_eq_some_iff (mask : AxisMask) (ps : List (Byte × Int)) (l : List (Axis × Int)) :
    axisList mask ps = some l ↔ ps = rawPairs l ∧ (l.map fun t => t.1.num).Pairwise (· < ·) ∧
      ∀ t ∈ l, mask.getLsbD t.1.num = true := by
  have numbers (l : List (Axis × Int)) :
      (rawPairs l).map (fun t => t.1.toNat) = l.map fun t => t.1.num := by
    simp [rawPairs, Function.comp_def]
  unfold axisList
  constructor
  · intro h
    split at h
    · rename_i rising
      obtain ⟨named, all⟩ := Option.filter_eq_some_iff.1 h
      obtain rfl := (nameAxes_eq_some_iff ..).1 named
      rw [ascendingFrom_neg_iff, numbers] at rising
      exact ⟨rfl, rising, by simpa using all⟩
    · cases h
  · rintro ⟨rfl, rising, configured⟩
    rw [if_pos ((ascendingFrom_neg_iff _).2 ((numbers l).symm ▸ rising)), nameAxes_rawPairs]
    exact Option.filter_eq_some_iff.2 ⟨rfl, by simpa using configured⟩

/-- The same for a list as a body gives it. -/
theorem axisList_none {mask : AxisMask} {ps : List (Byte × Int)}
    (h : ¬ ((ps.map fun t => t.1.toNat).Pairwise (· < ·) ∧
      ∀ t ∈ ps, ∃ a : Axis, t.1 = axisByte a ∧ mask.getLsbD a.num = true)) :
    axisList mask ps = none := by
  rw [Option.eq_none_iff_forall_ne_some]
  rintro l e
  obtain ⟨rfl, rising, configured⟩ := (axisList_eq_some_iff ..).1 e
  refine h ⟨by simpa [rawPairs, Function.comp_def] using rising, fun t ht => ?_⟩
  obtain ⟨u, hu, rfl⟩ := List.mem_map.1 ht
  exact ⟨u.1, rfl, configured u hu⟩

theorem within_iff (lo hi n : Nat) : within lo hi n = true ↔ lo ≤ n ∧ n ≤ hi := decide_eq_true_iff

theorem withinInt_iff (lo hi n : Int) : withinInt lo hi n = true ↔ lo ≤ n ∧ n ≤ hi := decide_eq_true_iff

@[simp] theorem length_rawPairs (l : List (Axis × Int)) : (rawPairs l).length = l.length := by
  simp [rawPairs]

/-! ### Commands that find the part ready (R178, R179) -/

section

variable (s : State) (k : CommandKind) (tag : Byte) (body : List Byte) (run : Cm8 → Cm8 × Answer)
  (ready : s.part.Ready)

include ready

theorem State.command_accepts {d : Cm8} {data : List Byte} (h : run s.part = (d, .accepted data)) :
    s.command k tag body run = s.accepts d k.code tag data := by
  rw [s.command_ready k tag body run ready, h]
  rfl

theorem State.command_refuses {d : Cm8} {why : Reason} (h : run s.part = (d, .refused why)) :
    s.command k tag body run = s.refuses d k.code tag why := by
  rw [s.command_ready k tag body run ready, h]
  rfl

end

/-- A command whose checks and effect are a verdict, when it accepts. -/
theorem State.verdict_accepts (s : State) (k : CommandKind) (tag : Byte) (body : List Byte)
    (f : Cm8 → Verdict) (ready : s.part.Ready) {d : Cm8} {data : List Byte}
    (h : f s.part = .ok (d, data)) :
    (.next (s.command k tag body fun c => (f c).settle c) : Host.Outcome State Fault Refusal) =
      .next (s.accepts d k.code tag data) := by
  rw [s.command_accepts k tag body _ ready (by rw [h]; rfl)]

/-- A command whose checks and effect are a verdict, when it refuses. -/
theorem State.verdict_refuses (s : State) (k : CommandKind) (tag : Byte) (body : List Byte)
    (f : Cm8 → Verdict) (ready : s.part.Ready) {why : Reason} (h : f s.part = .error why) :
    (.next (s.command k tag body fun c => (f c).settle c) : Host.Outcome State Fault Refusal) =
      .next (s.refuses s.part k.code tag why) := by
  rw [s.command_refuses k tag body _ ready (by rw [h]; rfl)]

end Sys2Proof.Machine
end

section
/-! PROOF. The state after reset, moves that share no zone, and the clock commands (R29, R39, R42, R43,
R115). -/

namespace Sys2Proof.Machine.Cm8

theorem floorSafe_reset : Cm8.reset.FloorSafe where
  active i m held h := by rw [head_reset] at h; cases h
  held i m x h := by rw [head_reset] at h; cases h
  granted i w h := nomatch h
  front := rfl

/-- Zones that two heads hold have none in common. -/
theorem HoldsAll.disjoint {c : Cm8} {i j : Slot} {a b : ZoneSet} (ha : c.HoldsAll i a)
    (hb : c.HoldsAll j b) (ne : i ≠ j) : a &&& b = 0#16 := by
  apply BitVec.eq_of_getLsbD_eq
  intro n hn
  rw [BitVec.getLsbD_and, BitVec.getLsbD_zero, Bool.and_eq_false_iff]
  by_contra both
  rw [not_or, Bool.not_eq_false, Bool.not_eq_false] at both
  have mine := ha ⟨n, hn⟩ both.1
  rw [hb ⟨n, hn⟩ both.2] at mine
  exact ne (Option.some.inj mine).symm

/-- Every counter is 0 after power-on (R203). -/
theorem counter_reset (id : CounterId) : Cm8.reset.counter id = 0#16 := by
  cases id with
  | line st k =>
    show (Cm8.reset.store st).counters.get k = _
    rw [store_reset]
    cases k <;> rfl
  | _ => rfl

/-- Every kind of event is enabled after power-on (R207). -/
theorem enabled_reset (e : Event) : Cm8.reset.events.enabled e = true := by
  have kinds : ∀ n ∈ [1, 2, 3, 4, 5, 6, 7, 8, 0x10, 0x11, 0x12, 0x13, 0x14, 0x20, 0x21, 0x30, 0x31],
      everyKind.getLsbD n = true := by decide
  refine kinds e.code ?_
  cases e <;> simp [Event.code]

theorem pair_reset (p : Fin 2) : Cm8.reset.pair p = .reset := by
  fin_cases p <;> rfl

/-- The heads are still enough for CLOCK SET (R42 check 3). -/
theorem clockFree_iff (c : Cm8) : c.clockFree = true ↔ ∀ i : Slot, (c.head i).activity = .offline ∨
    (c.head i).activity = .idle ∨ ∃ w, (c.head i).activity = .halted w := by
  have slots (i : Slot) : i ∈ Slot.all := by
    fin_cases i <;> decide
  unfold clockFree
  rw [List.all_eq_true]
  constructor
  · intro h i
    have free := h i (slots i)
    revert free
    cases (c.head i).activity <;> simp
  · intro h i _
    obtain e | e | ⟨w, e⟩ := h i <;> rw [e]

theorem clearOnRead_glitch (c : Cm8) : c.clearOnRead [.glitch] =
    if c.events.clearOnRead then { c with clock := { c.clock with glitch := 0#16 } } else c := rfl

/-- The frame number after a slew, taken as a number (R39). -/
theorem toNat_slewed (f a : BitVec 32) :
    (f + 1#32 + a).toNat = (((f.toNat : Int) + 1 + a.toInt) % 4294967296).toNat := by
  have h := f.isLt
  have k := a.isLt
  rw [BitVec.toNat_add, BitVec.toNat_add, BitVec.toInt_eq_toNat_cond]
  simp only [BitVec.toNat_ofNat]
  split <;> omega

theorem periodWord_eq {p : Nat} {w : BitVec 32} (fits : p < 4294967296 → w.toNat = p)
    (free : 4294967296 ≤ p → w = Config.unfitPeriod p) : periodWord p = w := by
  unfold periodWord
  split
  · rename_i h
    rw [← fits h, BitVec.ofNat_toNat, BitVec.setWidth_eq]
  · rename_i h
    exact (free (Nat.not_lt.1 h)).symm

theorem code_state (x : ClockState) : [x.code] = match x with
    | .unlocked => [0#8]
    | .locked => [1#8]
    | .freewheel => [2#8] := by
  cases x <;> rfl

theorem clockSet_cases (c : Cm8) (rate : Fin 8) :
    c.clockSet [BitVec.ofNat 8 rate.val] =
      if !c.clockFree then .error .busy
      else if !{ c with clock := { c.clock with rate := rate } }.linesFit then .error .capacity
      else .ok ({ c with clock := reclock c.clock rate }, []) := by
  unfold clockSet
  dsimp only
  rw [rateOf_ofNat]

end Sys2Proof.Machine.Cm8

namespace Sys2Proof.Machine

/-- A part that has only come to a later instant is as ready as before. -/
theorem Cm8.Ready.reach {c : Cm8} (h : c.Ready) (instant : Nat) : (c.reach instant).Ready :=
  ⟨h.work, h.buffer, h.replies⟩

end Sys2Proof.Machine

namespace Sys2Proof

open Sys2Proof.Machine Sys2Proof.Machine.Cm8

/-- Settles O2. -/
theorem powerOnSetsEveryStore : Obligations.PowerOnSetsEveryStore := by
  unfold Obligations.PowerOnSetsEveryStore
  refine ⟨fun s => ⟨s.onPart fun _ => .reset, rfl, rfl, rfl, rfl, rfl, rfl, rfl, rfl, rfl, rfl, rfl, rfl,
    rfl, rfl, rfl, rfl⟩, fun s => ⟨s.onPart fun _ => .reset, rfl, fun i => ?_, fun z => ?_, rfl, rfl,
    rfl, fun e => Vector.getElem_replicate .., fun p => ?_, fun st => ?_, rfl, rfl, rfl, rfl, rfl, rfl, rfl, rfl, rfl, rfl, rfl,
    enabled_reset, counter_reset⟩⟩
  · rw [show (s.onPart fun _ => Cm8.reset).part.head i = Head.reset from head_reset i]
    exact ⟨rfl, fun a => PerAxis.get_const .., rfl, fun n => Vector.getElem_replicate .., rfl, rfl, rfl, rfl,
      rfl, rfl, fun a => ⟨PerAxis.get_const .., PerAxis.get_const ..⟩, rfl, rfl, rfl, rfl, rfl, rfl,
      fun a => PerAxis.get_const .., rfl, rfl, rfl, rfl, rfl, rfl, rfl, rfl, rfl, rfl, rfl, rfl⟩
  · exact Vector.getElem_replicate ..
  · show (Cm8.reset.pair p).setup = _
    rw [pair_reset]
    rfl
  · show (Cm8.reset.store st).pass = [] ∧ (Cm8.reset.store st).counters = _ ∧
      (Cm8.reset.store st).roundRobin = 7 ∧ (Cm8.reset.store st).incoming = none
    rw [store_reset]
    exact ⟨rfl, rfl, rfl, rfl⟩

/-- Settles O3. -/
theorem resetMeetsInvariants : Obligations.ResetMeetsInvariants :=
  ⟨bounded_reset, floorSafe_reset, rfl⟩

/-- Settles O7. -/
theorem movingHeadsShareNoZone : Obligations.MovingHeadsShareNoZone := by
  unfold Obligations.MovingHeadsShareNoZone
  intro c i j m n x y safe ne hi hj moving other
  refine ⟨(safe.active i m x hi moving).disjoint (safe.active j n y hj other) ne, ?_, ?_⟩
  · rintro u rfl
    exact (safe.held i m u hi).2.disjoint (safe.active j n y hj other) ne
  · rintro u v rfl rfl
    exact (safe.held i m u hi).2.disjoint (safe.held j n v hj).2 ne

/-- Settles O14. -/
theorem timeChangeWaitsForTick : Obligations.TimeChangeWaitsForTick := by
  unfold Obligations.TimeChangeWaitsForTick
  intro s tag ready
  refine ⟨fun body length => ?_, fun b3 b2 b1 b0 => ⟨?_, ?_⟩, fun c instant => ⟨rfl, ?_, ?_, ?_⟩⟩
  · have short {x : Byte → Byte → Byte → Byte → Verdict} : (match body with
        | [b3, b2, b1, b0] => x b3 b2 b1 b0
        | _ => (.error .malformed : Verdict)) = .error .malformed := by
      split
      · exact absurd rfl length
      · rfl
    exact ⟨s.verdict_refuses .timeSet tag body (fun c => c.timeSet body) ready short,
      s.verdict_refuses .timeSlew tag body (fun c => c.timeSlew body) ready short⟩
  · exact s.verdict_accepts .timeSet tag _ (fun c => c.timeSet _) ready rfl
  · exact s.verdict_accepts .timeSlew tag _ (fun c => c.timeSlew _) ready rfl
  · intro v h
    show nextFrame c.clock.frame c.clock.change = v
    rw [h]
    rfl
  · intro a h
    show (nextFrame c.clock.frame c.clock.change).toNat = _
    rw [h]
    exact toNat_slewed ..
  · intro h
    show nextFrame c.clock.frame c.clock.change = _
    rw [h]
    rfl

/-- Settles O16. -/
theorem clockCommands : Obligations.ClockCommands := by
  unfold Obligations.ClockCommands
  refine ⟨?_, ?_, ?_⟩
  · intro s instant tag rate ready free fits
    have effect : (s.part.reach instant).clockSet [BitVec.ofNat 8 rate.val] =
        .ok ({ s.part.reach instant with clock := reclock (s.part.reach instant).clock rate }, []) := by
      have still : (s.part.reach instant).clockFree = true := (clockFree_iff _).2 free
      have fitting : { s.part.reach instant with
          clock := { (s.part.reach instant).clock with rate := rate } }.linesFit = true := fits
      rw [clockSet_cases, still, fitting]
      rfl
    exact State.verdict_accepts (s.onPart fun c => c.reach instant) .clockSet tag _
      (fun c => c.clockSet _) (ready.reach instant) effect
  · intro s tag period ready fits free k
    refine ⟨?_, fun body length => ?_⟩
    · refine (s.verdict_accepts .clockGet tag [] (fun c => c.clockGet []) ready rfl).trans ?_
      rw [clearOnRead_glitch]
      refine congrArg (fun d => (Host.Outcome.next (s.accepts _ 0x39#8 tag d) :
        Host.Outcome State Fault Refusal)) ?_
      unfold clockData
      rw [periodWord_eq fits free, code_state]
      rfl
    · refine s.verdict_refuses .clockGet tag body (fun c => c.clockGet body) ready ?_
      cases body with
      | nil => exact absurd rfl length
      | cons b l => rfl
  · intro s instant tag ready c free
    have refused {b : Byte} {why : Reason} (h : c.clockSet [b] = .error why) :
        exec (.clockSet instant tag [b]) s = .next (s.refuses c 0x38#8 tag why) :=
      State.verdict_refuses (s.onPart fun c => c.reach instant) .clockSet tag [b]
        (fun c => c.clockSet [b]) (ready.reach instant) h
    refine ⟨fun b hb => refused ?_, fun rate => ⟨fun busy => refused ?_, fun still over' => refused ?_⟩⟩
    · unfold clockSet
      dsimp only
      rw [rateOf_none hb]
    · rw [clockSet_cases, Bool.eq_false_iff.2 fun h => busy ((clockFree_iff c).1 h)]
      rfl
    · rw [clockSet_cases, (clockFree_iff c).2 still, over']
      rfl

end Sys2Proof

namespace Sys2Proof.Machine

/-- Each command's row, at the present instant, carries out its kind. -/
theorem exec_commandRow (s : State) (k : CommandKind) (tag : Byte) (body : List Byte) :
    exec (commandRow s.part.clock.now k tag body) s = .next (s.command k tag body (runKind k tag body)) := by
  have now : (s.onPart fun c => c.reach s.part.clock.now) = s := by
    show ({ s with part := s.part.reach s.part.clock.now } : State) = s
    have same : s.part.reach s.part.clock.now = s.part := by
      show { s.part with clock := { s.part.clock with now := max s.part.clock.now s.part.clock.now } } = _
      rw [Nat.max_self]
    rw [same]
  cases k with
  | clockSet =>
    show (.next ((s.onPart fun c => c.reach s.part.clock.now).command .clockSet tag body _) :
      Host.Outcome State Fault Refusal) = _
    rw [now]
    rfl
  | _ => rfl

/-- A verdict that refuses leaves the part (R179). -/
theorem Verdict.settle_refused {c : Cm8} {v : Verdict} {why : Reason}
    (h : (v.settle c).2 = .refused why) : (v.settle c).1 = c := by
  cases v with
  | error _ => rfl
  | ok r => cases h

/-- PORT SET refuses and leaves the part, or accepts with the settings that it asks for (R183). -/
theorem portSet_cases (c : Cm8) (body : List Byte) :
    (∃ why, c.portSet body = (c, .refused why)) ∨ ∃ n data, c.portSet body =
      (c.clearOnRead [.rxOk, .rxBad, .rxOverrun], .acceptedSettings n data) := by
  unfold Cm8.portSet
  split
  · split
    · split
      · exact .inr ⟨_, _, rfl⟩
      · exact .inl ⟨_, rfl⟩
    · exact .inl ⟨_, rfl⟩
  · exact .inl ⟨_, rfl⟩

/-- Every refusal but that of a CLEAR leaves the part as it was (R179). -/
theorem runKind_refused {k : CommandKind} {tag : Byte} {body : List Byte} {c : Cm8} {why : Reason}
    (other : k ≠ .clear) (h : (runKind k tag body c).2 = .refused why) : (runKind k tag body c).1 = c := by
  cases k with
  | clear => exact absurd rfl other
  | portSet =>
    obtain e | ⟨n, data, e⟩ := portSet_cases c body
    · obtain ⟨other, e⟩ := e
      exact congrArg Prod.fst e
    · rw [show runKind .portSet tag body c = _ from e] at h
      cases h
  | _ => exact Verdict.settle_refused h

end Sys2Proof.Machine

namespace Sys2Proof

open Sys2Proof.Machine Sys2Proof.Machine.Cm8

/-- Settles O17. -/
theorem everyCommandAnsweredOnce : Obligations.EveryCommandAnsweredOnce := by
  unfold Obligations.EveryCommandAnsweredOnce
  intro s k tag body ready
  refine ⟨(runKind k tag body s.part).1, (runKind k tag body s.part).2, ?_, rfl, fun other why h => ?_⟩
  · rw [exec_commandRow, s.command_ready k tag body _ ready]
  · exact runKind_refused other h

end Sys2Proof
end

section
/-! PROOF. The floor stays safe through every operation on the heads and the zones (R113 to R130). -/

namespace Sys2Proof.Machine

namespace Cm8

/-- What a safe floor asks of one head: its running move, unless it is a stop move, and its held move have
the zones that they need, and a held move stands under a PRIORITY move alone (R66, R115). -/
structure Covered (c : Cm8) (i : Slot) : Prop where
  active : ∀ m held, (c.head i).activity = .moving m held → m.cls ≠ .stop → c.HoldsAll i m.zones
  held : ∀ m x, (c.head i).activity = .moving m (some x) → m.cls = .priority ∧ c.HoldsAll i x.zones

structure SafeHeads (c : Cm8) : Prop where
  covered : ∀ i, c.Covered i

/-- Every waiting head of a list of grants has the zones of its grant (R124). -/
def Granted (c : Cm8) (l : List Slot) : Prop :=
  ∀ i ∈ l, ∀ w, (c.head i).activity = .waitZone w → c.HoldsAll i w.move.zones

variable {c d : Cm8} (i : Slot)

theorem Covered.of_still (h : ∀ m held, (c.head i).activity ≠ .moving m held) : c.Covered i :=
  ⟨fun m held a => absurd a (h m held), fun m x a => absurd a (h m (some x))⟩

/-- A head with a move that no other is held under. -/
theorem Covered.of_moving {m : Move} (a : (c.head i).activity = .moving m none)
    (zones : m.cls ≠ .stop → c.HoldsAll i m.zones) : c.Covered i where
  active n held e moving := by
    rw [a] at e
    cases e
    exact zones moving
  held n x e := by
    rw [a] at e
    cases e

/-- A head keeps its activity and its zones. -/
theorem Covered.of_keeps (h : c.Covered i) (a : (d.head i).activity = (c.head i).activity)
    (zones : ∀ z, c.holder z = some i → d.holder z = some i) : d.Covered i where
  active m held e moving z hz := zones z (h.active m held (a ▸ e) moving z hz)
  held m x e := (h.held m x (a ▸ e)).imp_right fun k z hz => zones z (k z hz)

/-- Every moving head of `d` moved before by the same move, and has lost no zone. -/
def Tame (c d : Cm8) : Prop :=
  ∀ j m held, (d.head j).activity = .moving m held → (c.head j).activity = .moving m held ∧
    ∀ z, c.holder z = some j → d.holder z = some j

theorem Tame.refl (c : Cm8) : Tame c c := fun _ _ _ h => ⟨h, fun _ k => k⟩

theorem Tame.trans {a b c : Cm8} (h : Tame a b) (k : Tame b c) : Tame a c := fun j m held e =>
  have later := k j m held e
  have before := h j m held later.1
  ⟨before.1, fun z hz => later.2 z (before.2 z hz)⟩

theorem Tame.of_eq (heads : ∀ j, (d.head j).activity = (c.head j).activity)
    (holders : ∀ z, d.holder z = c.holder z) : Tame c d := fun j _ _ h =>
  ⟨(heads j).symm.trans h, fun z k => (holders z).trans k⟩

theorem Tame.foldl {α : Type} {f : Cm8 → α → Cm8} (step : ∀ c a, Tame c (f c a)) (l : List α)
    (c : Cm8) : Tame c (l.foldl f c) := by
  induction l generalizing c with
  | nil => exact .refl c
  | cons a l ih => exact (step c a).trans (ih _)

theorem SafeHeads.of_tame (h : c.SafeHeads) (k : Tame c d) : d.SafeHeads where
  covered j :=
    { active := fun m held e moving z hz =>
        have before := k j m held e
        before.2 z ((h.covered j).active m held before.1 moving z hz)
      held := fun m x e =>
        have before := k j m (some x) e
        ((h.covered j).held m x before.1).imp_right fun hold z hz => before.2 z (hold z hz) }

/-- Nothing that the floor rests on has changed. -/
theorem SafeHeads.of_eq (h : c.SafeHeads) (heads : ∀ j, (d.head j).activity = (c.head j).activity)
    (holders : ∀ z, d.holder z = c.holder z) : d.SafeHeads := h.of_tame (.of_eq heads holders)

/-- The other heads keep what they do and the zones that they hold. -/
structure Apart (c d : Cm8) (i : Slot) : Prop where
  others : ∀ j, j ≠ i →
    (d.head j).activity = (c.head j).activity ∧ ∀ z, c.holder z = some j → d.holder z = some j

theorem Apart.refl (c : Cm8) : Apart c c i := ⟨fun _ _ => ⟨rfl, fun _ k => k⟩⟩

theorem Apart.trans {a b c : Cm8} {i : Slot} (h : Apart a b i) (k : Apart b c i) : Apart a c i where
  others j ne := ⟨(k.others j ne).1.trans (h.others j ne).1,
    fun z hz => (k.others j ne).2 z ((h.others j ne).2 z hz)⟩

/-- Nothing that the floor rests on has changed. -/
theorem Apart.of_eq (heads : ∀ j, (d.head j).activity = (c.head j).activity)
    (holders : ∀ z, d.holder z = c.holder z) : Apart c d i :=
  ⟨fun j _ => ⟨heads j, fun z k => (holders z).trans k⟩⟩

theorem apart_post (c : Cm8) (s : Option Slot) (t : Option Byte) (e : Event) : Apart c (c.post s t e) i :=
  .of_eq i (by simp) (by simp)

theorem apart_onHead (c : Cm8) (f : Head → Head) : Apart c (c.onHead i f) i :=
  ⟨fun j ne => ⟨by simp [ne], fun _ h => h⟩⟩

theorem apart_skipMotion (c : Cm8) : Apart c (c.skipMotion i) i := .of_eq i (fun _ => rfl) fun _ => rfl

theorem apart_giveFree (c : Cm8) (zs : ZoneSet) : Apart c (c.giveFree i zs) i :=
  ⟨fun j _ => ⟨by simp, fun _ h => holder_giveFree_of_some c i zs h⟩⟩

theorem apart_freeOutside (c : Cm8) (zs : ZoneSet) : Apart c (c.freeOutside i zs) i := by
  refine ⟨fun j ne => ⟨by simp, fun z h => ?_⟩⟩
  rw [holder_freeOutside, h]
  have other : ¬ some j = some i := fun e => ne (Option.some.inj e)
  simp [other]

theorem apart_recompute (c : Cm8) : Apart c (c.recompute i) i :=
  ⟨fun j ne => ⟨by simp, fun _ h => (holder_recompute_of_ne c i ne).2 h⟩⟩

theorem apart_dropMove (c : Cm8) (m : Move) (why : DropReason) : Apart c (c.dropMove i m why) i := by
  unfold dropMove
  split
  · exact .refl i c
  · exact apart_post ..

theorem SafeHeads.step {i : Slot} (h : c.SafeHeads) (apart : Apart c d i) (own : d.Covered i) :
    d.SafeHeads where
  covered j := by
    by_cases e : j = i
    · exact e ▸ own
    · exact (h.covered j).of_keeps j (apart.others j e).1 (apart.others j e).2

/-- Grants that are still to be handed over keep their zones when one is handed over. -/
theorem Granted.step {i : Slot} {l : List Slot} (h : c.Granted l) (apart : Apart c d i)
    (own : ∀ w, (d.head i).activity ≠ .waitZone w) : d.Granted l := fun j hj w e => by
  by_cases same : j = i
  · exact absurd (same ▸ e) (own w)
  · exact fun z hz => (apart.others j same).2 z (h j hj w ((apart.others j same).1 ▸ e) z hz)

/-! ### One head's operations -/

theorem safe_post (h : c.SafeHeads) (s : Option Slot) (t : Option Byte) (e : Event) :
    (c.post s t e).SafeHeads :=
  h.of_tame (.of_eq (by simp) (by simp))

theorem safe_onHead (h : c.SafeHeads) (f : Head → Head)
    (a : (f (c.head i)).activity = (c.head i).activity) : (c.onHead i f).SafeHeads :=
  h.step (apart_onHead i c f) ((h.covered i).of_keeps i (by rw [head_onHead_self, a]) fun _ k => k)

/-- A head that no longer moves needs no zone. -/
theorem safe_rest (h : c.SafeHeads) (f : Head → Head) (a : (f (c.head i)).activity.active = none) :
    (c.onHead i f).SafeHeads := by
  refine h.step (apart_onHead i c f) (.of_still i fun m held e => ?_)
  rw [head_onHead_self] at e
  rw [e] at a
  cases a

theorem active_freeActivity (f : BitVec 32) (q : List QueueEntry) : (freeActivity f q).active = none := by
  unfold freeActivity
  split
  · split
    · split <;> rfl
    · rfl
  · rfl

theorem safe_toFree (h : c.SafeHeads) : (c.toFree i).SafeHeads :=
  safe_rest i h (fun h => { h with activity := freeActivity c.frame h.queue })
    (active_freeActivity ..)

theorem safe_refresh (h : c.SafeHeads) : (c.refresh i).SafeHeads := by
  unfold refresh
  split
  · exact safe_toFree i h
  · exact h

theorem safe_giveFree (h : c.SafeHeads) (zs : ZoneSet) : (c.giveFree i zs).SafeHeads :=
  h.step (apart_giveFree i c zs)
    ((h.covered i).of_keeps i (by simp) fun _ k => holder_giveFree_of_some c i zs k)

/-- A recomputation leaves the zones of the moves of its head (R115). -/
theorem covered_recompute (h : c.Covered i) : (c.recompute i).Covered i where
  active m held e moving z hz := by
    rw [head_recompute] at e
    refine holder_recompute_keeps _ _ (z := z) ?_ (h.active m held e moving z hz)
    unfold moveZones
    rw [e]
    cases held with
    | none => exact hz
    | some x => rw [BitVec.getLsbD_or, hz, Bool.true_or]
  held m x e := by
    rw [head_recompute] at e
    refine (h.held m x e).imp_right fun hold z hz => holder_recompute_keeps _ _ (z := z) ?_ (hold z hz)
    unfold moveZones
    rw [e, BitVec.getLsbD_or, hz, Bool.or_true]

theorem safe_recompute (h : c.SafeHeads) : (c.recompute i).SafeHeads :=
  h.step (apart_recompute i c) (covered_recompute i (h.covered i))

theorem safe_skipQueue (h : c.SafeHeads) : (c.skipQueue i).SafeHeads :=
  h.of_eq (fun _ => rfl) fun _ => rfl

theorem safe_dropMove (h : c.SafeHeads) (m : Move) (why : DropReason) : (c.dropMove i m why).SafeHeads := by
  unfold dropMove
  split
  · exact h
  · exact safe_post h ..

theorem safe_dropHeld? (h : c.SafeHeads) (x : Option Held) (why : DropReason) :
    (c.dropHeld? i x why).SafeHeads := by
  cases x
  · exact h
  · exact safe_post h ..

/-- A move becomes the active move of a head that holds its zones. -/
theorem safe_makeActive (h : c.SafeHeads) {m : Move} (zones : m.cls ≠ .stop → c.HoldsAll i m.zones) :
    (c.makeActive i m).SafeHeads :=
  h.step ((apart_skipMotion i c).trans (apart_onHead i (c.skipMotion i) fun h =>
    { h with activity := .moving m none })) (.of_moving i (by simp [makeActive]) zones)

theorem apart_makeActive (c : Cm8) (m : Move) : Apart c (c.makeActive i m) i :=
  (apart_skipMotion i c).trans (apart_onHead i (c.skipMotion i) fun h =>
    { h with activity := .moving m none })

theorem safe_startMove (h : c.SafeHeads) (m : Move) (cue : Option (BitVec 32))
    (zones : c.HoldsAll i m.zones) : (c.startMove i m cue).SafeHeads := by
  refine safe_recompute i (safe_post (safe_makeActive i h ?_) ..)
  exact fun _ => zones

theorem apart_startMove (c : Cm8) (m : Move) (cue : Option (BitVec 32)) : Apart c (c.startMove i m cue) i :=
  ((apart_makeActive i c _).trans (apart_post i _ _ _ _)).trans (apart_recompute i _)

theorem activity_startMove (c : Cm8) (m : Move) (cue : Option (BitVec 32)) (w : Waiting) :
    ((c.startMove i m cue).head i).activity ≠ .waitZone w := by
  simp [startMove, postStarted, makeActive]

/-! ### The hand-over of grants (R125) -/

/-- The check at a grant keeps the zones of the move (R75). -/
theorem grantCheck_zones {w : Waiting} {m : Move} (h : c.grantCheck i w = some m) :
    m.zones = w.move.zones := by
  unfold grantCheck at h
  split at h
  · split at h
    · cases h
    · cases h; rfl
    · cases h; rfl
  · cases h; rfl

theorem activity_of_waitingOf {w : Waiting} (h : c.waitingOf i = some w) :
    (c.head i).activity = .waitZone w := by
  unfold waitingOf Activity.waiting at h
  split at h
  · rename_i e
    rw [e, Option.some.inj h]
  · cases h

theorem waitingOf_eq_none (h : c.waitingOf i = none) (w : Waiting) : (c.head i).activity ≠ .waitZone w := by
  intro e
  unfold waitingOf at h
  rw [e] at h
  cases h

/-- What the hand-over of a grant keeps: the floor is safe, the other heads are left alone, and the head
waits no longer. -/
structure Handed (c d : Cm8) (i : Slot) : Prop where
  safe : d.SafeHeads
  apart : Apart c d i
  done : ∀ w, (d.head i).activity ≠ .waitZone w

theorem Handed.granted {l : List Slot} (k : Handed c d i) (h : c.Granted (i :: l)) : d.Granted l :=
  Granted.step (fun j hj => h j (List.mem_cons_of_mem _ hj)) k.apart k.done

theorem handed_handGrant {l : List Slot} (h : c.SafeHeads) (g : c.Granted (i :: l)) :
    Handed c (c.handGrant i) i := by
  unfold handGrant
  split
  · rename_i none
    exact ⟨h, .refl i c, waitingOf_eq_none i none⟩
  · rename_i w waits
    have zones := g i (List.mem_cons_self ..) w (activity_of_waitingOf i waits)
    have told := safe_post h (some i) w.move.tag (.zoneGranted w.move.zones w.timer)
    have hold : (c.post (some i) w.move.tag (.zoneGranted w.move.zones w.timer)).HoldsAll i w.move.zones :=
      fun z hz => by rw [holder_post]; exact zones z hz
    dsimp only
    split
    · rename_i m check
      exact ⟨safe_startMove i told m w.cue (grantCheck_zones i check ▸ hold),
        (apart_post i c ..).trans (apart_startMove i _ _ _), activity_startMove i _ _ _⟩
    · refine ⟨safe_recompute i (safe_toFree i (safe_dropMove i told _ _)), ?_, fun v => ?_⟩
      · exact (apart_post ..).trans ((apart_dropMove ..).trans
          ((apart_onHead i _ _).trans (apart_recompute ..)))
      · simp only [head_recompute, toFree, head_onHead_self]
        unfold freeActivity
        split
        · split
          · split <;> nofun
          · nofun
        · nofun

theorem handed_answerRequest {l : List Slot} (h : c.SafeHeads) (g : c.Granted (i :: l)) :
    Handed c (c.answerRequest i) i := by
  unfold answerRequest
  split
  · rename_i none
    exact ⟨h, .refl i c, waitingOf_eq_none i none⟩
  · rename_i w waits
    exact ⟨safe_startMove i h _ _ (g i (List.mem_cons_self ..) w (activity_of_waitingOf i waits)),
      apart_startMove i _ _ _, activity_startMove i _ _ _⟩

theorem handed_handOver {l : List Slot} (r : Option Slot) (h : c.SafeHeads) (g : c.Granted (i :: l)) :
    Handed c (handOver r c i) i := by
  unfold handOver
  split
  · exact handed_answerRequest i h g
  · exact handed_handGrant i h g

theorem safe_handOvers (r : Option Slot) (l : List Slot) (h : c.SafeHeads) (g : c.Granted l) :
    (l.foldl (handOver r) c).SafeHeads := by
  induction l generalizing c with
  | nil => exact h
  | cons i l ih =>
    have handed := handed_handOver i r h g
    exact ih handed.safe (handed.granted i g)

/-! ### Passes (R122 to R125) -/

/-- A judgement keeps the floor and the grants before it, and a new grant has its zones (R124). -/
theorem judge_safe {a : Cm8 × ZoneSet × List Slot} (h : a.1.SafeHeads) (g : a.1.Granted a.2.2) :
    (judge a i).1.SafeHeads ∧ (judge a i).1.Granted (judge a i).2.2 := by
  unfold judge
  dsimp only
  split
  · exact ⟨h, g⟩
  · rename_i w waits
    split
    · rename_i ok
      have own : (a.1.giveFree i w.move.zones).HoldsAll i w.move.zones := by
        intro z hz
        have each := List.all_eq_true.1 ok z ((ZoneSet.mem_zones w.move.zones z).2 hz)
        rw [holder_giveFree]
        split
        · rfl
        · rename_i taken
          rcases Bool.or_eq_true _ _ ▸ each with mine | free
          · exact (holdsZone_iff ..).1 mine
          · exact absurd ⟨hz, (isFree_iff ..).1 (Bool.and_eq_true _ _ ▸ free).1⟩ taken
      refine ⟨safe_giveFree i h _, fun j hj v e => ?_⟩
      rw [head_giveFree] at e
      rcases List.mem_append.1 hj with before | last
      · exact fun z hz => holder_giveFree_of_some _ i _ (g j before v e z hz)
      · obtain rfl := List.mem_singleton.1 last
        rw [activity_of_waitingOf j waits] at e
        cases e
        exact own
    · exact ⟨h, g⟩

theorem judgePass_safe (h : c.SafeHeads) : c.judgePass.1.SafeHeads ∧ c.judgePass.1.Granted c.judgePass.2 := by
  have judged (l : List Slot) (a : Cm8 × ZoneSet × List Slot) (h : a.1.SafeHeads) (g : a.1.Granted a.2.2) :
      (l.foldl judge a).1.SafeHeads ∧ (l.foldl judge a).1.Granted (l.foldl judge a).2.2 := by
    induction l generalizing a with
    | nil => exact ⟨h, g⟩
    | cons i l ih =>
      obtain ⟨hs, hg⟩ := judge_safe i h g
      exact ih _ hs hg
  have start : { c with arbiter := { c.arbiter with released := false } }.SafeHeads :=
    h.of_eq (fun _ => rfl) fun _ => rfl
  have all := judged (candidates { c with arbiter := { c.arbiter with released := false } })
    (_, 0#16, []) start nofun
  unfold judgePass
  dsimp only
  generalize (candidates { c with arbiter := { c.arbiter with released := false } }).foldl judge
    ({ c with arbiter := { c.arbiter with released := false } }, 0#16, []) = r at all
  split
  · exact ⟨all.1.of_eq (fun _ => rfl) fun _ => rfl, all.2⟩
  · exact all

theorem safe_settle (h : c.SafeHeads) : c.settle.SafeHeads := by
  have all (n : Nat) : ∀ {c : Cm8}, c.SafeHeads → (settleN n c).SafeHeads := by
    induction n with
    | zero => exact fun h => h
    | succ n ih =>
      intro c h
      unfold settleN
      split
      · obtain ⟨judged, grants⟩ := judgePass_safe h
        exact ih (safe_handOvers none _ judged grants)
      · exact h
  exact all 9 h

theorem safe_grantPass (h : c.SafeHeads) : c.grantPass.SafeHeads := by
  obtain ⟨judged, grants⟩ := judgePass_safe h
  exact safe_settle (safe_handOvers none _ judged grants)

theorem safe_waiting (h : c.SafeHeads) (w : Waiting) : (c.setActivity i (.waitZone w)).SafeHeads :=
  safe_rest i h _ rfl

theorem safe_beginWait (h : c.SafeHeads) (w : Waiting) : (c.beginWait i w).SafeHeads :=
  safe_recompute i (safe_post h ..)

theorem holdsAll_zero (c : Cm8) : c.HoldsAll i 0#16 := fun z hz => by
  rw [ZoneSet.getLsbD_zero] at hz
  cases hz

theorem safe_request (h : c.SafeHeads) (p : Planned) (cue : Option (BitVec 32)) (back : QueueEntry) :
    (c.request i p cue back).SafeHeads := by
  unfold request
  split
  · rename_i none
    exact safe_settle (safe_startMove i h _ _ (none ▸ holdsAll_zero i c))
  · obtain ⟨judged, grants⟩ := judgePass_safe (safe_waiting i h (c.asWaiting i p cue back))
    have handed := safe_handOvers (some i) _ judged grants
    dsimp only
    split
    · exact safe_settle handed
    · exact safe_settle (safe_beginWait i handed _)

/-- A REPLACE's own move starts with the zones that the pass has given it. -/
theorem safe_handOversUntold (m : Move) (l : List Slot) (h : c.SafeHeads) (g : c.Granted l)
    (zones : i ∈ l → c.HoldsAll i m.zones) : (l.foldl (handOverUntold i m) c).SafeHeads := by
  induction l generalizing c with
  | nil => exact h
  | cons j l ih =>
    rw [List.foldl_cons]
    unfold handOverUntold
    split
    · rename_i same
      subst same
      have own := zones (List.mem_cons_self ..)
      have moved := safe_makeActive i h (m := m) fun _ => own
      refine ih (safe_recompute i moved) ?_ fun _ => ?_
      · exact Granted.step (fun j hj => g j (List.mem_cons_of_mem _ hj))
          ((apart_makeActive i c m).trans (apart_recompute i _)) (by simp [makeActive])
      · intro z hz
        refine holder_recompute_keeps _ _ (z := z) ?_ (own z hz)
        have activity : ((c.makeActive i m).head i).activity = .moving m none := by simp [makeActive]
        unfold moveZones
        rw [activity]
        exact hz
    · rename_i other
      have handed := handed_handGrant j h g
      exact ih handed.safe (handed.granted j g) fun hi z hz =>
        (handed.apart.others i other).2 z (zones (List.mem_cons_of_mem _ hi) z hz)

theorem safe_waitTold (h : c.SafeHeads) (w : Waiting) : (c.waitTold i w).SafeHeads := by
  unfold waitTold
  dsimp only
  split
  · exact safe_post (safe_settle (safe_recompute i h)) ..
  · exact safe_settle (safe_beginWait i h w)

theorem safe_requestTold (h : c.SafeHeads) (p : Planned) (back : QueueEntry) :
    (c.requestTold i p back).SafeHeads := by
  unfold requestTold
  dsimp only
  split
  · rename_i none
    refine safe_post (safe_settle (safe_recompute i (safe_makeActive i h fun _ => ?_))) ..
    show c.HoldsAll i p.move.zones
    exact none ▸ holdsAll_zero i c
  · have waiting := safe_waiting i h (c.asWaiting i p none back)
    have wait : ((c.setActivity i (.waitZone (c.asWaiting i p none back))).head i).activity =
        .waitZone (c.asWaiting i p none back) := by simp
    generalize c.setActivity i (.waitZone (c.asWaiting i p none back)) = e at waiting wait ⊢
    obtain ⟨judged, grants⟩ := judgePass_safe waiting
    have still : (e.judgePass.1.head i).activity = .waitZone (c.asWaiting i p none back) := by
      rw [judgePass_arbiter]
      exact wait
    have handed := safe_handOversUntold i { p.move with flags := { p.move.flags with late := false } } _
      judged grants fun hi => grants i hi _ still
    split
    · exact safe_post (safe_settle handed) ..
    · exact safe_waitTold i handed _

/-! ### Moves that take over, ends of moves, and halts -/

theorem safe_takeOver (h : c.SafeHeads) {m : Move} {held : Option Held}
    (zones : m.cls ≠ .stop → c.obtainable i m.zones = true)
    (under : ∀ x, held = some x → m.cls = .priority ∧ c.HoldsAll i x.zones) :
    (c.takeOver i m held).SafeHeads := by
  have given := safe_giveFree i h m.zones
  refine safe_settle (safe_recompute i (given.step (apart_onHead i _ _) ?_))
  have activity : (((c.giveFree i m.zones).setActivity i (.moving m held)).head i).activity =
      .moving m held := by simp
  constructor
  · intro n x e moving z hz
    rw [activity] at e
    cases e
    exact holder_giveFree_of_obtainable _ _ _ _ (zones moving) hz
  · intro n x e
    rw [activity] at e
    cases e
    exact (under x rfl).imp_right fun hold z hz => holder_giveFree_of_some c i _ (hold z hz)

theorem planStop_cls (c : Cm8) (m : Move) : (c.planStop i m).cls = .stop := rfl

theorem safe_beginStop (h : c.SafeHeads) (m : Move) : (c.beginStop i m).SafeHeads :=
  safe_takeOver i h (fun moving => absurd (planStop_cls i c m) moving) fun _ e => by cases e

theorem safe_restFree (h : c.SafeHeads) : (c.restFree i).SafeHeads :=
  safe_settle (safe_recompute i (safe_toFree i h))

theorem safe_dropDisplaced (h : c.SafeHeads) : (c.dropDisplaced i).SafeHeads := by
  unfold dropDisplaced
  split
  · exact safe_dropHeld? i (safe_dropMove i h ..) ..
  · exact safe_dropMove i h ..
  · exact h

theorem obtainable_of_holder {zs : ZoneSet} (same : ∀ z, d.holder z = c.holder z) :
    d.obtainable i zs = c.obtainable i zs := by
  unfold obtainable heldByOther
  simp only [same]

theorem holder_dropDisplaced (c : Cm8) (z : Zone) : (c.dropDisplaced i).holder z = c.holder z := by
  have moves (c : Cm8) (m : Move) (why : DropReason) : (c.dropMove i m why).holder z = c.holder z := by
    unfold dropMove
    split <;> simp
  unfold dropDisplaced
  split
  · rename_i held _
    cases held
    · exact moves ..
    · exact (holder_post ..).trans (moves ..)
  · exact moves ..
  · rfl

theorem safe_overrideWith (h : c.SafeHeads) {m : Move} (zones : c.obtainable i m.zones = true) :
    (c.overrideWith i m).SafeHeads := by
  refine safe_post (safe_takeOver i (safe_dropDisplaced i h) (fun _ => ?_) fun _ e => by cases e) ..
  rw [obtainable_of_holder i (holder_dropDisplaced i c)]
  exact zones

theorem holder_flush (c : Cm8) (z : Zone) : (c.flush i).holder z = c.holder z := by
  unfold flush
  rw [show ∀ d : Cm8, (d.setQueue i []).holder z = d.holder z from fun _ => rfl]
  exact foldl_field (fun c : Cm8 => c.holder z) (fun c e => holder_post ..) _ _

theorem activity_flush (c : Cm8) (j : Slot) : ((c.flush i).head j).activity = (c.head j).activity := by
  unfold flush
  have told : (((c.head i).queue.foldl (fun c e => c.dropEntry i e .flushed) c).head j).activity =
      (c.head j).activity :=
    foldl_field (fun c : Cm8 => (c.head j).activity) (fun c e => by simp [dropEntry]) _ _
  by_cases e : j = i
  · subst e
    simpa [setQueue] using told
  · simpa [setQueue, e] using told

theorem tame_flush (c : Cm8) : Tame c (c.flush i) := .of_eq (activity_flush i c) (holder_flush i c)

theorem safe_flush (h : c.SafeHeads) : (c.flush i).SafeHeads := h.of_tame (tame_flush i c)

theorem safe_enterHalted (h : c.SafeHeads) (cause : HaltCause) : (c.enterHalted i cause).SafeHeads := by
  have halted : (c.setActivity i (.halted cause)).SafeHeads := safe_rest i h _ rfl
  have dropped {c : Cm8} (h : c.SafeHeads) (a : Activity) : (c.dropRecords i a).SafeHeads := by
    unfold dropRecords
    split
    · exact safe_dropHeld? i (safe_dropMove i h ..) ..
    · exact safe_dropMove i h ..
    · exact h
  exact safe_post (safe_flush i (dropped halted _)) ..

theorem safe_haltRequest (h : c.SafeHeads) (cause : HaltCause) : (c.haltRequest i cause).SafeHeads := by
  unfold haltRequest
  split
  · split
    · exact safe_enterHalted i h cause
    · exact h
  · exact h
  · exact safe_enterHalted i h cause

theorem safe_resume (h : c.SafeHeads) (x : Held) : (c.resume i x).SafeHeads := by
  unfold resume
  split
  · exact safe_restFree i (safe_post h ..)
  · exact safe_request i (safe_post (safe_rest i h _ rfl) ..) ..

theorem safe_complete (h : c.SafeHeads) (m : Move) (held : Option Held) : (c.complete i m held).SafeHeads := by
  have told : (if m.cls = .stop then c else c.post (some i) m.tag (.moveDone m.source)).SafeHeads := by
    split
    · exact h
    · exact safe_post h ..
  unfold complete
  dsimp only
  split
  · exact safe_resume i told _
  · exact safe_restFree i told

/-! ### A head's work at a tick -/

theorem safe_motionStep (h : c.SafeHeads) : (c.motionStep i).SafeHeads := by
  have claimed {c : Cm8} (h : c.SafeHeads) (p q : Int) : (c.jogClaim i p q).1.SafeHeads := by
    have travelled (n : Nat) : ∀ {c : Cm8}, c.SafeHeads → (jogTravel i p q n c).1.SafeHeads := by
      induction n with
      | zero => exact fun h => h
      | succ n ih =>
        intro c h
        unfold jogTravel
        split
        · exact h
        · split
          · exact ih (safe_giveFree i h _)
          · exact h
    unfold jogClaim
    split
    · exact travelled _ h
    · exact h
  unfold motionStep
  split
  · rename_i m held moving
    have ticked : (c.onHead i fun h => { h.evaluate { m with k := m.k + 1 } with
        activity := .moving { m with k := m.k + 1 } held }).SafeHeads := by
      refine h.step (apart_onHead i c _) ⟨?_, ?_⟩
      · intro n x e run
        rw [head_onHead_self] at e
        cases e
        exact (h.covered i).active m held moving run
      · intro n x e
        rw [head_onHead_self] at e
        cases e
        exact (h.covered i).held m x moving
    unfold moveTick
    dsimp only
    split
    · exact safe_complete i (safe_skipQueue i ticked) _ _
    · exact ticked
  · rename_i j jogging
    have stepped : ((c.skipQueue i).jogStep i j.refreshed).1.SafeHeads := by
      unfold jogStep
      dsimp only
      exact safe_onHead i (claimed (safe_skipQueue i h) _ _) _ rfl
    unfold jogTick
    dsimp only
    split
    · exact safe_settle (safe_recompute i (safe_toFree i stepped))
    · exact safe_rest i stepped _ rfl
  · exact h

theorem safe_queueStep (h : c.SafeHeads) : (c.queueStep i).SafeHeads := by
  have taken : (c.takeEntry i).SafeHeads := safe_onHead i h _ rfl
  unfold queueStep
  split
  · exact h
  · split
    · unfold startEntry
      dsimp only
      split
      · exact safe_toFree i (safe_post taken ..)
      · exact safe_request i taken ..
    · unfold cuedReplace
      dsimp only
      split
      · exact safe_refresh i (safe_post taken ..)
      · split
        · rename_i free
          exact safe_overrideWith i taken free
        · exact safe_refresh i (safe_post taken ..)

theorem planSoften_cls {m n : Move} (h : c.planSoften i m = some n) : n.cls = m.cls := by
  unfold planSoften at h
  obtain ⟨p, hp, rfl⟩ := Option.map_eq_some_iff.1 h
  exact plan_cls hp

theorem safe_softenStep (h : c.SafeHeads) : (c.softenStep i).SafeHeads := by
  have fails (m : Move) (held : Option Held) (why : DropReason) : (c.softenFails i m held why).SafeHeads :=
    safe_beginStop i (safe_dropHeld? i (safe_dropMove i h ..) ..) m
  unfold softenStep
  split
  · rename_i m held moving
    split
    · split
      · exact fails ..
      · rename_i n planned
        split
        · rename_i free
          refine safe_post (safe_takeOver i h (fun _ => free) fun x e => ?_) ..
          have under := (h.covered i).held m x (by rw [moving, e])
          exact ⟨(planSoften_cls i planned).trans under.1, under.2⟩
        · exact fails ..
    · exact h
  · exact h

theorem safe_timerStep (h : c.SafeHeads) : (c.timerStep i).SafeHeads := by
  unfold timerStep
  split
  · exact h
  · split
    · exact safe_waiting i h _
    · split
      · exact safe_restFree i (safe_dropMove i h ..)
      · exact safe_waiting i h _

theorem safe_lossStep (h : c.SafeHeads) : (c.lossStep i).SafeHeads := by
  unfold lossStep
  split
  · exact safe_post (safe_onHead i (safe_haltRequest i h _) _ rfl) ..
  · split
    · exact safe_onHead i h _ rfl
    · exact h

theorem safe_pageStep (h : c.SafeHeads) : (c.pageStep i).SafeHeads := by
  unfold pageStep
  split
  · exact h
  · split
    · exact safe_onHead i h _ rfl
    · exact safe_onHead i h _ rfl

theorem safe_onStore (h : c.SafeHeads) (st : StoreId) (f : LineStore → LineStore) :
    (c.onStore st f).SafeHeads :=
  h.of_tame (.of_eq (by simp) (by simp))

theorem safe_setCounter (h : c.SafeHeads) (id : CounterId) (v : BitVec 16) : (c.setCounter id v).SafeHeads := by
  cases id with
  | line st k => exact safe_onStore h st fun s => { s with counters := s.counters.set k v }
  | _ => exact h.of_eq (fun _ => rfl) fun _ => rfl

theorem safe_bump (h : c.SafeHeads) (id : CounterId) : (c.bump id).SafeHeads := by
  have counted := safe_setCounter h id
  unfold bump
  dsimp only
  split
  · split
    · exact counted _
    · exact h
  · split
    · exact safe_post (counted _) ..
    · split
      · exact safe_post (counted _) ..
      · exact counted _

theorem safe_bumps (h : c.SafeHeads) (id : CounterId) (n : Nat) : (c.bumps id n).SafeHeads := by
  induction n generalizing c with
  | zero => exact h
  | succ n ih => exact ih (safe_bump h id)

theorem safe_foldl {α : Type} {f : Cm8 → α → Cm8} (step : ∀ {c : Cm8} (a : α), c.SafeHeads → (f c a).SafeHeads)
    (l : List α) (h : c.SafeHeads) : (l.foldl f c).SafeHeads := by
  induction l generalizing c with
  | nil => exact h
  | cons a l ih => exact ih (step a h)

theorem safe_enterLinked (h : c.SafeHeads) : (c.enterLinked i).SafeHeads := by
  have halts {c : Cm8} (h : c.SafeHeads) (mask : AxisMask) : (c.linkHalts i mask).SafeHeads := by
    unfold linkHalts
    dsimp only
    split
    · exact safe_rest i h _ rfl
    · have first : (if lacksAxis (c.head i) mask then c.haltRequest i .mismatch else c).SafeHeads := by
        split
        · exact safe_haltRequest i h _
        · exact h
      split
      · exact safe_haltRequest i first _
      · exact first
  unfold enterLinked
  dsimp only
  refine halts ?_ _
  have linked : (c.setHead i (linkHead (c.head i) ((c.head i).link.headMask.getD 0#6))).SafeHeads :=
    safe_onHead i h (fun _ => linkHead (c.head i) ((c.head i).link.headMask.getD 0#6)) rfl
  split
  · exact safe_post linked ..
  · exact safe_post (safe_post linked ..) ..

theorem safe_enrolPlaced (h : c.SafeHeads) : (c.enrolPlaced i).SafeHeads := by
  unfold enrolPlaced
  dsimp only
  split
  · split
    · exact safe_enterLinked i h
    · exact safe_onHead i h _ rfl
  · exact h

theorem safe_placeEnrol (h : c.SafeHeads) (st : StoreId) (room : Int) :
    (c.placeEnrol st room).1.SafeHeads := by
  unfold placeEnrol
  split
  · exact h
  · split
    · exact h
    · split
      · exact safe_enrolPlaced _ (safe_onStore (safe_onStore h st _) st _)
      · exact h

theorem safe_formSchedule (h : c.SafeHeads) (st : StoreId) (sent : Nat) (receiving relined : Bool) :
    (c.formSchedule st sent receiving relined).SafeHeads := by
  have setpoints : (c.placeSetpoints st).SafeHeads :=
    safe_foldl (fun j h => safe_onHead j (safe_onStore h st _) Head.sendSetpoint rfl) _ h
  unfold formSchedule cutReception
  dsimp only
  have passed {c : Cm8} (h : c.SafeHeads) (room : Int) : (c.placePass st room).SafeHeads :=
    safe_bumps (safe_onStore (safe_onStore h st _) st _) _ _
  split
  · exact safe_bump (safe_onStore (passed (safe_placeEnrol setpoints st _) _) st _) _
  · exact passed (safe_placeEnrol setpoints st _) _

theorem safe_runWork (h : c.SafeHeads) {w : Work} (plain : w ≠ .pass) (handed : w.isHandover = false) :
    (c.runWork w).SafeHeads := by
  cases w with
  | motion i => exact safe_motionStep i h
  | queue i => exact safe_queueStep i h
  | soften i => exact safe_softenStep i h
  | timer i => exact safe_timerStep i h
  | pass => exact absurd rfl plain
  | handover i => cases handed
  | settle => exact safe_settle h
  | page i => exact safe_pageStep i h
  | link i => exact safe_lossStep i h
  | schedule st sent receiving relined => exact safe_formSchedule h ..
  | announce e => exact safe_post h ..

end Cm8

end Sys2Proof.Machine
end

section
/-! PROOF. The floor stays safe through the work of a tick, the rows and the commands. -/

namespace Sys2Proof.Machine

/-- Hand-overs stand first: nothing that is not one stands before one. -/
theorem handoversFirst_iff (ws : List Work) : handoversFirst ws = true ↔
    ws.Pairwise fun v w => w.isHandover = true → v.isHandover = true := by
  induction ws with
  | nil => simp [handoversFirst]
  | cons w ws ih =>
    rw [List.pairwise_cons, ← ih]
    have step : handoversFirst (w :: ws) =
        if w.isHandover then handoversFirst ws else ws.all fun v => !v.isHandover := rfl
    rw [step]
    cases h : w.isHandover with
    | true => simp
    | false =>
      simp only [Bool.false_eq_true, if_false, List.all_eq_true, Bool.not_eq_true', imp_false,
        Bool.not_eq_true]
      refine ⟨fun all => ⟨all, ?_⟩, fun both => both.1⟩
      rw [ih]
      exact List.Pairwise.imp_of_mem (R := fun _ _ => True)
        (fun _ hw _ k => absurd k (by rw [all _ hw]; exact Bool.false_ne_true))
        (List.pairwise_of_forall fun _ _ => trivial)

theorem handoversFirst_sublist {l k : List Work} (h : l.Sublist k) (first : handoversFirst k = true) :
    handoversFirst l = true :=
  (handoversFirst_iff l).2 (((handoversFirst_iff k).1 first).sublist h)

/-- No hand-over is owed. -/
def Unhanded (ws : List Work) : Prop := ∀ w ∈ ws, w.isHandover = false

theorem Unhanded.sublist {l k : List Work} (h : l.Sublist k) (u : Unhanded k) : Unhanded l :=
  fun w hw => u w (h.subset hw)

theorem Unhanded.append {l k : List Work} (h : Unhanded l) (j : Unhanded k) : Unhanded (l ++ k) :=
  fun w hw => (List.mem_append.1 hw).elim (h w) (j w)

theorem unhanded_map {α : Type} {f : α → Work} (l : List α) (h : ∀ a, (f a).isHandover = false) :
    Unhanded (l.map f) := fun w hw => by
  obtain ⟨a, _, rfl⟩ := List.mem_map.1 hw
  exact h a

theorem unhanded_nil : Unhanded [] := fun _ h => absurd h List.not_mem_nil

theorem Unhanded.first {ws : List Work} (u : Unhanded ws) : handoversFirst ws = true :=
  (handoversFirst_iff ws).2 (List.Pairwise.imp_of_mem (R := fun _ _ => True)
    (fun _ hw _ k => absurd k (by rw [u _ hw]; exact Bool.false_ne_true))
    (List.pairwise_of_forall fun _ _ => trivial))

/-- With work at the front that is no hand-over, none is owed. -/
theorem unhanded_of_front {w : Work} {ws : List Work} (first : handoversFirst (w :: ws) = true)
    (plain : w.isHandover = false) : Unhanded (w :: ws) := by
  have order := List.pairwise_cons.1 ((handoversFirst_iff _).1 first)
  intro v hv
  rcases List.mem_cons.1 hv with rfl | later
  · exact plain
  · cases h : v.isHandover with
    | false => rfl
    | true => rw [order.1 v later h] at plain; cases plain

theorem handoversFirst_pass (grants : List Slot) {ws : List Work} (u : Unhanded ws) :
    handoversFirst (grants.map .handover ++ .settle :: ws) = true := by
  induction grants with
  | nil =>
    refine Unhanded.first (ws := .settle :: ws) fun w hw => ?_
    rcases List.mem_cons.1 hw with rfl | later
    · rfl
    · exact u w later
  | cons i grants ih => exact ih

namespace Cm8

variable {c d : Cm8}

/-- A safe floor and no hand-over owed. -/
structure Quiet (c : Cm8) : Prop where
  heads : c.SafeHeads
  work : Unhanded c.work

theorem FloorSafe.heads (h : c.FloorSafe) : c.SafeHeads :=
  ⟨fun i => ⟨fun m held e moving => h.active i m held e moving, fun m x e => h.held i m x e⟩⟩

theorem Quiet.floorSafe (h : c.Quiet) : c.FloorSafe where
  active i m held e moving := (h.heads.covered i).active m held e moving
  held i m x e := (h.heads.covered i).held m x e
  granted _ _ hw _ := nomatch h.work _ hw
  front := h.work.first

/-- The floor is safe and the grants that are owed have their zones. -/
theorem floorSafe_of (heads : c.SafeHeads)
    (granted : ∀ i w, .handover i ∈ c.work → (c.head i).activity = .waitZone w → c.HoldsAll i w.move.zones)
    (front : handoversFirst c.work = true) : c.FloorSafe where
  active i m held e moving := (heads.covered i).active m held e moving
  held i m x e := (heads.covered i).held m x e
  granted := granted
  front := front

theorem Quiet.of_nil (heads : c.SafeHeads) (h : c.work = []) : c.Quiet := ⟨heads, by rw [h]; nofun⟩

/-! ### The work of a tick -/

/-- A piece of work other than a hand-over keeps the floor safe, and a pass owes its own grants. -/
theorem floorSafe_runWork (h : c.Quiet) {w : Work} (plain : w.isHandover = false) :
    (c.runWork w).FloorSafe := by
  by_cases pass : w = .pass
  · subst pass
    obtain ⟨judged, grants⟩ := judgePass_safe h.heads
    rw [runWork_pass]
    refine floorSafe_of (judged.of_eq (fun _ => rfl) fun _ => rfl) (fun i w hw e => ?_)
      (handoversFirst_pass _ h.work)
    rcases List.mem_append.1 hw with mine | later
    · obtain ⟨j, hj, e'⟩ := List.mem_map.1 mine
      cases e'
      exact grants i hj w e
    · rcases List.mem_cons.1 later with settle | later
      · cases settle
      · exact nomatch h.work _ later
  · exact Quiet.floorSafe ⟨safe_runWork h.heads pass plain, h.work.sublist (worked_runWork c pass).work⟩

/-- A piece of work that is neither a hand-over nor a pass owes no hand-over. -/
theorem quiet_runWork (h : c.Quiet) {w : Work} (plain : w.isHandover = false) (pass : w ≠ .pass) :
    (c.runWork w).Quiet :=
  ⟨safe_runWork h.heads pass plain, h.work.sublist (worked_runWork c pass).work⟩

theorem floorSafe_runFront (h : c.FloorSafe) : c.runFront.FloorSafe := by
  cases work : c.work with
  | nil =>
    unfold runFront
    rw [work]
    exact h
  | cons w ws =>
    rw [runFront_cons work]
    have front : handoversFirst (w :: ws) = true := work ▸ h.front
    have rest : { c with work := ws }.SafeHeads := h.heads.of_eq (fun _ => rfl) fun _ => rfl
    cases plain : w.isHandover with
    | false =>
      exact floorSafe_runWork ⟨rest, fun v hv => unhanded_of_front front plain v (List.mem_cons_of_mem _ hv)⟩
        plain
    | true =>
      obtain ⟨i, rfl⟩ : ∃ i, w = .handover i := by
        cases w <;> simp [Work.isHandover] at plain
        exact ⟨_, rfl⟩
      have granted (l : List Slot) (hl : ∀ j ∈ l, .handover j ∈ c.work) :
          ({ c with work := ws } : Cm8).Granted l := fun j hj v e => h.granted j v (hl j hj) e
      have handed := handed_handGrant i (l := []) rest (granted [i] (by simp [work]))
      have less := (worked_handGrant { c with work := ws } i).work
      refine floorSafe_of handed.safe (fun j v hj e => ?_)
        (handoversFirst_sublist (less.trans (List.sublist_cons_self _ ws)) front)
      have owed : .handover j ∈ c.work := by
        rw [work]
        exact List.mem_cons_of_mem _ (less.subset hj)
      refine (Granted.step (l := [j]) (granted [j] ?_) handed.apart handed.done) j
        (List.mem_singleton_self j) v e
      simpa using owed

/-- The arbiter of the port leaves the floor and the work. -/
theorem choose_floor (c : Cm8) : (∀ i, (c.choose.head i).activity = (c.head i).activity) ∧
    (∀ z, c.choose.holder z = c.holder z) ∧ c.choose.work = c.work := by
  unfold choose
  split
  · exact ⟨fun _ => rfl, fun _ => rfl, rfl⟩
  · split
    · exact ⟨fun _ => rfl, fun _ => rfl, rfl⟩
    · split
      · rename_i j _ _
        refine ⟨fun i => ?_, fun _ => rfl, rfl⟩
        show ((c.onHead j fun h => { h with track := { h.track with upstream := none } }).head i).activity = _
        by_cases e : i = j
        · subst e; simp
        · simp [e]
      · exact ⟨fun _ => rfl, fun _ => rfl, rfl⟩

theorem floorSafe_choose (h : c.FloorSafe) : c.choose.FloorSafe := by
  obtain ⟨heads, holders, work⟩ := choose_floor c
  refine floorSafe_of (h.heads.of_eq heads holders) (fun i w hw e z hz => ?_) (work ▸ h.front)
  rw [holders]
  exact h.granted i w (work ▸ hw) (heads i ▸ e) z hz

theorem floorSafe_chooseIdle (h : c.FloorSafe) : c.chooseIdle.FloorSafe := by
  unfold chooseIdle
  split
  · exact h
  · exact floorSafe_choose h

theorem floorSafe_advance (h : c.FloorSafe) : c.advance.FloorSafe := by
  have all (n : Nat) : ∀ {c : Cm8}, c.FloorSafe → (advanceN n c).FloorSafe := by
    induction n with
    | zero => exact fun h => h
    | succ n ih =>
      intro c h
      unfold advanceN
      split
      · exact h
      · split
        · exact h
        · exact ih (floorSafe_runFront h)
  exact all _ h

theorem floorSafe_tail (h : c.FloorSafe) : c.advance.chooseIdle.FloorSafe :=
  floorSafe_chooseIdle (floorSafe_advance h)

theorem quiet_finish (h : c.FloorSafe) : c.finish.Quiet := by
  have all (n : Nat) : ∀ {c : Cm8}, c.FloorSafe → (finishN n c).FloorSafe := by
    induction n with
    | zero => exact fun h => h
    | succ n ih =>
      intro c h
      unfold finishN
      split
      · exact h
      · exact ih (floorSafe_tail (floorSafe_runFront h))
  exact .of_nil (all _ h).heads (work_finish c)

/-- Closing a pass hands over all its grants. -/
theorem quiet_closePass (h : c.FloorSafe) : c.closePass.Quiet := by
  have all (n : Nat) : ∀ {c : Cm8}, weight c.work ≤ n → c.FloorSafe → (closePassN n c).Quiet := by
    induction n with
    | zero =>
      intro c small h
      cases work : c.work with
      | nil => exact .of_nil h.heads work
      | cons w ws =>
        obtain ⟨m, hm⟩ := weight_pos w ws
        rw [work, hm] at small
        exact absurd small (by omega)
    | succ n ih =>
      intro c small h
      have next {w : Work} {ws : List Work} (work : c.work = w :: ws) : (closePassN n c.runFront).Quiet :=
        ih (by have := weight_runFront work; omega) (floorSafe_runFront h)
      unfold closePassN
      split
      · exact next ‹_›
      · exact next ‹_›
      · rename_i handover settle
        refine ⟨h.heads, ?_⟩
        cases work : c.work with
        | nil => exact nofun
        | cons w ws =>
          refine unhanded_of_front (work ▸ h.front) ?_
          cases w with
          | handover i => exact absurd work (handover i ws)
          | _ => rfl
  exact all _ (Nat.le_refl _) h

theorem Quiet.without (h : c.Quiet) (w : Work) : { c with work := c.work.erase w }.Quiet :=
  ⟨h.heads.of_eq (fun _ => rfl) fun _ => rfl, h.work.sublist List.erase_sublist⟩

theorem floorSafe_takeWork (h : c.Quiet) {w : Work} (plain : w.isHandover = false) :
    (c.takeWork w).FloorSafe := floorSafe_runWork (h.without w) plain

theorem quiet_takeWork (h : c.Quiet) {w : Work} (plain : w.isHandover = false) (pass : w ≠ .pass) :
    (c.takeWork w).Quiet := quiet_runWork (h.without w) plain pass

/-! ### The rows that are events inside a tick -/

theorem floorSafe_takeEvent (h : c.FloorSafe) {w : Work} (isDue : Cm8 → Bool)
    (plain : w.isHandover = false) : (c.takeEvent w isDue).FloorSafe := by
  unfold takeEvent
  dsimp only
  split
  · exact floorSafe_tail (floorSafe_takeWork (quiet_closePass h) plain)
  · exact h

theorem floorSafe_takeQueue (h : c.FloorSafe) (rule : StartRule) (i : Slot) :
    (c.takeQueue rule i).FloorSafe := by
  have moved : (c.closePass.afterMotion i).Quiet := by
    unfold afterMotion
    split
    · exact quiet_takeWork (quiet_closePass h) rfl nofun
    · exact quiet_closePass h
  unfold takeQueue
  dsimp only
  split
  · exact floorSafe_tail (floorSafe_takeWork moved rfl)
  · exact h

theorem floorSafe_zoneGranted (h : c.FloorSafe) (i : Slot) : (c.zoneGranted i).FloorSafe := by
  have timed (l : List Slot) : ∀ {c : Cm8}, c.Quiet → (l.foldl afterTimer c).Quiet := by
    induction l with
    | nil => exact fun h => h
    | cons j l ih =>
      intro c h
      refine ih ?_
      unfold afterTimer
      split
      · exact quiet_takeWork h rfl nofun
      · exact h
  have ahead : (if c.work.contains (.handover i) then c else c.passAhead).FloorSafe := by
    split
    · exact h
    · unfold passAhead
      dsimp only
      split
      · exact floorSafe_takeWork (timed _ (quiet_closePass h)) rfl
      · exact (timed _ (quiet_closePass h)).floorSafe
  have handed (n : Nat) : ∀ {c : Cm8}, c.FloorSafe → (handUpTo i n c).FloorSafe := by
    induction n with
    | zero => exact fun h => h
    | succ n ih =>
      intro c h
      unfold handUpTo
      split
      · split
        · exact floorSafe_runFront h
        · exact ih (floorSafe_runFront h)
      · exact h
  unfold zoneGranted
  generalize (if c.work.contains (.handover i) then c else c.passAhead) = d at ahead
  dsimp only
  split
  · exact floorSafe_tail (handed _ ahead)
  · exact h

/-! ### Ticks -/

theorem unhanded_tickWork (c : Cm8) (rising : List Slot) (x : TickInputs) {tail : List Work}
    (h : Unhanded tail) : Unhanded (c.tickWork rising x tail) := by
  intro w hw
  unfold tickWork at hw
  rw [(arrange_perm _ _).mem_iff] at hw
  unfold plainWork at hw
  have each {α : Type} {f : α → Work} (l : List α) := unhanded_map (f := f) l
  have pass : Unhanded [.pass] := fun w hw => by
    rw [List.mem_singleton.1 hw]
    rfl
  exact (((((((((each _ fun _ => rfl).append (each _ fun _ => rfl)).append (each _ fun _ => rfl)).append
    (each _ fun _ => rfl)).append pass).append (each _ fun _ => rfl)).append (each _ fun _ => rfl)).append
    (each _ fun _ => rfl)).append h) w hw

theorem safe_atTick (h : c.SafeHeads) (instant : Nat) (x : TickInputs) (l : List Slot) :
    (c.atTick instant x l).SafeHeads := by
  have counted : (c.countFrame instant).SafeHeads := h.of_eq (fun _ => rfl) fun _ => rfl
  have sampled := safe_foldl (f := sampleTally x.tally) (fun {c} j h => by
    unfold sampleTally
    split
    · exact h
    · exact safe_post (safe_onHead j h _ rfl) ..) l counted
  unfold atTick
  refine safe_foldl (fun j h => safe_refresh j h) l (sampled.of_eq (fun j => ?_) fun _ => rfl)
  show ((((l.foldl (sampleTally x.tally) (c.countFrame instant)).clearIntervals).head j)).activity = _
  simp [clearIntervals]

theorem quiet_tick (h : c.SafeHeads) (instant : Nat) (x : TickInputs) {tail : List Work}
    (plain : Unhanded tail) : (c.tick instant x tail).Quiet := by
  rw [tick_eq]
  exact ⟨(safe_atTick h instant x Slot.all).of_eq (fun _ => rfl) fun _ => rfl,
    unhanded_tickWork c _ x plain⟩

theorem work_bump (c : Cm8) (id : CounterId) : (c.bump id).work = c.work := by
  unfold bump
  dsimp only
  split
  · split <;> simp
  · split
    · simp
    · split <;> simp

theorem quiet_bump (h : c.Quiet) (id : CounterId) : (c.bump id).Quiet :=
  ⟨safe_bump h.heads id, by rw [work_bump]; exact h.work⟩

/-- Only the time changes. -/
theorem FloorSafe.onClock (h : c.FloorSafe) (f : Timebase → Timebase) : (c.onClock f).FloorSafe :=
  floorSafe_of (h.heads.of_eq (fun _ => rfl) fun _ => rfl) (fun i w hw e => h.granted i w hw e) h.front

theorem floorSafe_tickTail (h : c.SafeHeads) (instant : Nat) (x : TickInputs) {tail : List Work}
    (plain : Unhanded tail) : (c.tick instant x tail).advance.chooseIdle.FloorSafe :=
  floorSafe_tail (quiet_tick h instant x plain).floorSafe

theorem floorSafe_syncEdge (h : c.FloorSafe) (instant : Nat) (x : TickInputs) :
    (c.syncEdge instant x).FloorSafe := by
  have announced : Unhanded [.announce .syncLocked] := fun w hw => by
    rw [List.mem_singleton.1 hw]
    rfl
  have reached : (c.finish.reach instant).Quiet :=
    .of_nil ((quiet_finish h).heads.of_eq (fun _ => rfl) fun _ => rfl) (work_finish c)
  have moved {c : Cm8} (h : c.Quiet) (f : Timebase → Timebase) : (c.onClock f).Quiet :=
    ⟨h.heads.of_eq (fun _ => rfl) fun _ => rfl, h.work⟩
  unfold syncEdge
  generalize c.finish.reach instant = d at reached
  have locked : (d.lockedEdge instant x).FloorSafe := by
    unfold lockedEdge
    split
    · exact reached.floorSafe
    · dsimp only
      split
      · exact (quiet_tick (moved reached _).heads instant x unhanded_nil).floorSafe
      · exact (quiet_bump reached _).floorSafe
  have searching : (d.searchingEdge instant x).FloorSafe := by
    unfold searchingEdge
    split
    · exact reached.floorSafe
    · split
      · split
        · unfold lockingEdge
          dsimp only
          split
          · exact (quiet_tick (moved reached _).heads instant x announced).floorSafe
          · exact Quiet.floorSafe ⟨safe_post (moved reached _).heads .., by simpa using reached.work⟩
        · exact (moved reached _).floorSafe
      · exact (moved reached _).floorSafe
  dsimp only
  split
  · exact floorSafe_tail (locked.onClock _)
  · exact floorSafe_tail (searching.onClock _)
  · exact floorSafe_tail (searching.onClock _)

theorem floorSafe_bresenhamTick (h : c.FloorSafe) (x : TickInputs) : (c.bresenhamTick x).FloorSafe := by
  have finished := quiet_finish h
  unfold bresenhamTick
  dsimp only
  split
  · exact floorSafe_tickTail (finished.heads.of_eq (d := c.finish.onClock _) (fun _ => rfl) fun _ => rfl)
      _ x unhanded_nil
  · exact floorSafe_chooseIdle finished.floorSafe

theorem floorSafe_lossExpiry (h : c.FloorSafe) (x : TickInputs) : (c.lossExpiry x).FloorSafe := by
  have finished := quiet_finish h
  have announced : Unhanded [.announce .syncLost] := fun w hw => by
    rw [List.mem_singleton.1 hw]
    rfl
  unfold lossExpiry
  dsimp only
  split
  · exact floorSafe_tickTail (finished.heads.of_eq (d := c.finish.onClock _) (fun _ => rfl) fun _ => rfl)
      _ x announced
  · exact floorSafe_chooseIdle finished.floorSafe

theorem floorSafe_freewheelTick (h : c.FloorSafe) (x : TickInputs) : (c.freewheelTick x).FloorSafe := by
  have finished := quiet_finish h
  unfold freewheelTick
  dsimp only
  split
  · exact floorSafe_tickTail finished.heads _ x unhanded_nil
  · exact floorSafe_chooseIdle finished.floorSafe

/-! ### Commands -/

/-- A head that does not move may give up any zone. -/
theorem safe_freeOutside (h : c.SafeHeads) (i : Slot) (zs : ZoneSet)
    (still : (c.head i).activity.active = none) : (c.freeOutside i zs).SafeHeads := by
  refine h.step (apart_freeOutside i c zs) (.of_still i fun m held e => ?_)
  rw [head_freeOutside] at e
  rw [e] at still
  cases still

theorem active_of_free {a : Activity} (h : a.isFree = true) : a.active = none := by
  cases a <;> first | rfl | cases h

theorem active_of_halted {a : Activity} (h : a.isHalted = true) : a.active = none := by
  cases a <;> first | rfl | cases h

theorem safe_remap (h : c.SafeHeads) (i : Slot) (m : HeadMap) : (c.remap i m).SafeHeads := by
  have mapped : (c.onHead i fun h => h.remapped m).SafeHeads := safe_rest i h _ rfl
  have told : (if (c.head i).isLinked then
      (c.onHead i fun h => h.remapped m).post (some i) none (.headUnlinked .map)
      else c.onHead i fun h => h.remapped m).SafeHeads ∧
      ((if (c.head i).isLinked then
      (c.onHead i fun h => h.remapped m).post (some i) none (.headUnlinked .map)
      else c.onHead i fun h => h.remapped m).head i).activity = .offline := by
    split
    · exact ⟨safe_post mapped .., by rw [head_post, head_onHead_self]; rfl⟩
    · exact ⟨mapped, by rw [head_onHead_self]; rfl⟩
  unfold remap
  dsimp only
  refine safe_settle (safe_freeOutside (safe_flush i told.1) i _ ?_)
  rw [activity_flush, told.2]
  rfl

/-- A fold that keeps a count beside the part. -/
theorem safe_foldl_fst {f : Cm8 × Nat → Slot → Cm8 × Nat}
    (step : ∀ (a : Cm8 × Nat) (j : Slot), a.1.SafeHeads → (f a j).1.SafeHeads) (l : List Slot)
    {a : Cm8 × Nat} (h : a.1.SafeHeads) : (l.foldl f a).1.SafeHeads := by
  induction l generalizing a with
  | nil => exact h
  | cons j l ih => exact ih (step a j h)

theorem safe_rezone (h : c.SafeHeads) : c.rezone.1.SafeHeads := by
  have each (a : Cm8 × Nat) (j : Slot) (h : a.1.SafeHeads) : (rezoneHead a j).1.SafeHeads := by
    unfold rezoneHead
    dsimp only
    split
    · rename_i free
      have kept := safe_giveFree j (safe_freeOutside h j (a.1.residentZones j)
        (active_of_free (Bool.and_eq_true _ _ ▸ free).2)) (a.1.residentZones j)
      split
      · exact kept
      · exact safe_haltRequest j kept _
    · exact h
  rw [rezone_fst]
  exact safe_settle (safe_foldl_fst each Slot.all (a := (c, 0)) h)

theorem safe_dropPass (h : c.SafeHeads) (st : StoreId) : (c.dropPass st).SafeHeads :=
  safe_bumps (safe_onStore h st _) _ _

theorem safe_relineSlots (h : c.SafeHeads) (p : Fin 2) (l : LineSetup) : (c.relineSlots p l).SafeHeads := by
  have written : (c.writeSetup p l).SafeHeads := h.of_eq (by simp [writeSetup]) (by simp [writeSetup])
  have unlink {c : Cm8} (j : Slot) (h : c.SafeHeads) : (c.unlinkForLine j).SafeHeads := by
    unfold unlinkForLine
    dsimp only
    split
    · exact safe_post (safe_onHead j h _ rfl) ..
    · exact safe_onHead j h _ rfl
  exact safe_dropPass (safe_dropPass (safe_foldl unlink _ written) _) _

/-- What an accepted PRIORITY keeps of the moves before it (R58, R59). -/
theorem safe_startPriority (h : c.SafeHeads) (i : Slot) {m : Move} (cls : m.cls = .priority)
    (free : c.obtainable i m.zones = true) : (c.startPriority i m).SafeHeads := by
  have way : (c.makeWay i).1.SafeHeads ∧ (∀ z, (c.makeWay i).1.holder z = c.holder z) ∧
      ∀ x, (c.makeWay i).2 = some x → c.HoldsAll i x.zones := by
    unfold makeWay
    split
    · rename_i n held moving
      split
      · rename_i planned
        refine ⟨safe_post h .., by simp, fun x e => ?_⟩
        cases e
        exact (h.covered i).active n held moving (by rw [planned]; nofun)
      · refine ⟨safe_dropMove i h .., fun z => ?_, fun x e => ?_⟩
        · unfold dropMove
          split <;> simp
        · exact ((h.covered i).held n x (by rw [moving]; exact congrArg _ e)).2
    · rename_i w _
      exact ⟨safe_onHead i h (fun k => { k with queue := w.back :: k.queue }) rfl, fun _ => rfl,
        fun x e => by cases e⟩
    · exact ⟨h, fun _ => rfl, fun x e => by cases e⟩
  obtain ⟨safe, holders, under⟩ := way
  refine safe_post (safe_takeOver i safe (fun _ => ?_) fun x e => ⟨cls, fun z hz => ?_⟩) ..
  · rw [obtainable_of_holder i holders]
    exact free
  · rw [holders]
    exact under x e z hz

theorem safe_stopHead (h : c.SafeHeads) (i : Slot) : (c.stopHead i).SafeHeads := by
  have flushed := safe_flush i h
  unfold stopHead stopBy
  split
  · exact safe_toFree i flushed
  · exact safe_toFree i flushed
  · exact safe_restFree i (safe_dropMove i flushed ..)
  · split
    · exact flushed
    · exact safe_beginStop i (safe_dropMove i (safe_dropHeld? i flushed ..) ..) _
  · exact safe_rest i flushed _ rfl
  · exact flushed

theorem safe_haltEach (cause : HaltCause) (a : Cm8 × Nat) (j : Slot) (h : a.1.SafeHeads) :
    (haltEach cause a j).1.SafeHeads := by
  unfold haltEach
  split
  · exact h
  · exact safe_haltRequest j h _

theorem safe_clearHalted (h : c.SafeHeads) (i : Slot) (t : PerAxis Int) : (c.clearHalted i t).1.SafeHeads := by
  have adopted : (c.onHead i fun h => h.adopt t).SafeHeads := safe_onHead i h _ rfl
  unfold clearHalted
  dsimp only
  split
  · exact adopted
  · split
    · exact safe_rest i adopted (fun h => { h with activity := .halted .conflict }) rfl
    · exact safe_settle (safe_giveFree i (safe_recompute i (safe_toFree i (safe_onHead i adopted _ rfl))) _)

theorem safe_resetParts (h : c.SafeHeads) : c.resetParts.SafeHeads := by
  refine h.of_eq (fun j => ?_) fun _ => rfl
  rw [show c.resetParts.head j = resetHead (c.head j) from head_onHeads c j fun _ h => resetHead h]
  rfl

theorem safe_commanded (h : c.SafeHeads) (k : Commanded c d) : d.SafeHeads := by
  cases k with
  | none => exact h
  | record i f queue activity history run interval => exact safe_onHead i h f activity
  | counters ids =>
    unfold clearOnRead
    split
    · exact safe_foldl (fun id h => safe_setCounter h id _) ids h
    · exact h
  | remap i m => exact safe_remap h i m
  | zonemap map still =>
    exact safe_rezone (h.of_eq (d := { c with zonemap := map }) (fun _ => rfl) fun _ => rfl)
  | lines p l => exact safe_relineSlots h p l
  | append i e room => exact safe_refresh i (safe_onHead i h _ rfl)
  | cued i e => exact safe_refresh i (safe_onHead i (safe_flush i h) _ rfl)
  | replaceOver i m free =>
    refine safe_overrideWith i (safe_flush i h) ?_
    rw [obtainable_of_holder i (holder_flush i c)]
    exact free
  | replaceFree i x p =>
    exact safe_requestTold i (safe_toFree i (safe_dropDisplaced i (safe_flush i h))) p x.back
  | priority i m cls room free unstopped => exact safe_startPriority h i cls free
  | jog i j => exact safe_rest i h _ rfl
  | stop i => exact safe_stopHead h i
  | stopAll =>
    refine safe_foldl_fst (fun a j h => ?_) Slot.all (a := (c, 0)) h
    unfold stopEach
    split
    · exact safe_stopHead h j
    · exact h
  | halt i => exact safe_haltRequest i h _
  | haltAll => exact safe_foldl_fst (safe_haltEach _) Slot.all (a := (c, 0)) h
  | clear i t halted => exact safe_clearHalted h i t
  | release i halted => exact safe_grantPass (safe_freeOutside h i _ (active_of_halted halted))
  | mask m =>
    exact safe_grantPass (h.of_eq (d := { c with arbiter := { c.arbiter with mask := m } })
      (fun _ => rfl) fun _ => rfl)
  | lowest i r => exact safe_grantPass (h.of_eq (fun _ => rfl) fun _ => rfl)
  | reset =>
    have halted : (Slot.all.foldl resetHalt (c, 0)).1.SafeHeads := by
      refine safe_foldl_fst (fun a j h => ?_) Slot.all (a := (c, 0)) h
      unfold resetHalt
      split
      · exact safe_haltEach _ a j h
      · exact h
    exact safe_post (safe_resetParts halted) ..
  | _ => exact h.of_eq (fun _ => rfl) fun _ => rfl

/-! ### A command owes no work -/

theorem worked_freeOutside (c : Cm8) (i : Slot) (zs : ZoneSet) : Worked c (c.freeOutside i zs) :=
  worked_arbiter ..

theorem worked_toFree (c : Cm8) (i : Slot) : Worked c (c.toFree i) := worked_onHead c i _

theorem worked_remap (c : Cm8) (i : Slot) (m : HeadMap) : Worked c (c.remap i m) := by
  have mapped : Worked c (c.onHead i fun h => h.remapped m) := worked_onHead ..
  unfold remap
  dsimp only
  refine Worked.trans ?_ (((worked_flush _ i).trans (worked_freeOutside ..)).trans (worked_settle _))
  split
  · exact mapped.trans (worked_post ..)
  · exact mapped

theorem Worked.foldl_fst {f : Cm8 × Nat → Slot → Cm8 × Nat}
    (step : ∀ (a : Cm8 × Nat) (j : Slot), Worked a.1 (f a j).1) (l : List Slot) (a : Cm8 × Nat) :
    Worked a.1 (l.foldl f a).1 := by
  induction l generalizing a with
  | nil => exact .refl _
  | cons j l ih => exact (step a j).trans (ih _)

theorem worked_rezone (c : Cm8) : Worked c c.rezone.1 := by
  have each (a : Cm8 × Nat) (j : Slot) : Worked a.1 (rezoneHead a j).1 := by
    unfold rezoneHead
    dsimp only
    split
    · split
      · exact (worked_freeOutside ..).trans (worked_giveFree ..)
      · exact ((worked_freeOutside ..).trans (worked_giveFree ..)).trans (worked_haltRequest ..)
    · exact .refl _
  rw [rezone_fst]
  exact (Worked.foldl_fst each Slot.all (c, 0)).trans (worked_settle _)

theorem worked_grantPass (c : Cm8) : Worked c c.grantPass :=
  ((worked_judgePass c).trans (Worked.foldl (fun c j => worked_handOver c j none) _ _)).trans
    (worked_settle _)

theorem worked_startPriority (c : Cm8) (i : Slot) (m : Move) : Worked c (c.startPriority i m) := by
  have way : Worked c (c.makeWay i).1 := by
    unfold makeWay
    split
    · split
      · exact worked_post ..
      · exact worked_dropMove ..
    · rename_i w _
      exact worked_onHead c i fun k => { k with queue := w.back :: k.queue }
    · exact .refl c
  exact way.trans ((worked_takeOver ..).trans (worked_post ..))

theorem worked_stopHead (c : Cm8) (i : Slot) : Worked c (c.stopHead i) := by
  refine (worked_flush c i).trans ?_
  show Worked (c.flush i) ((c.flush i).stopBy i)
  generalize c.flush i = d
  unfold stopBy
  split
  · exact worked_toFree ..
  · exact worked_toFree ..
  · exact (worked_dropMove ..).trans (worked_restFree ..)
  · split
    · exact .refl d
    · exact ((worked_dropHeld? ..).trans (worked_dropMove ..)).trans (worked_takeOver ..)
  · exact worked_onHead d i _
  · exact .refl d

theorem worked_haltEach (cause : HaltCause) (a : Cm8 × Nat) (j : Slot) :
    Worked a.1 (haltEach cause a j).1 := by
  unfold haltEach
  split
  · exact .refl _
  · exact worked_haltRequest ..

theorem worked_clearHalted (c : Cm8) (i : Slot) (t : PerAxis Int) : Worked c (c.clearHalted i t).1 := by
  have adopted : Worked c (c.onHead i fun h => h.adopt t) := worked_onHead ..
  unfold clearHalted
  dsimp only
  split
  · exact adopted
  · split
    · exact adopted.trans (worked_onHead _ i fun h => { h with activity := .halted .conflict })
    · exact adopted.trans ((((worked_onHead _ i _).trans (worked_toFree ..)).trans
        (worked_recompute ..)).trans ((worked_giveFree ..).trans (worked_settle _)))

theorem work_relineSlots (c : Cm8) (p : Fin 2) (l : LineSetup) : (c.relineSlots p l).work = c.work := by
  have unlink (c : Cm8) (j : Slot) : (c.unlinkForLine j).work = c.work := by
    unfold unlinkForLine
    dsimp only
    split
    · simp
    · rfl
  have bumps (n : Nat) (id : CounterId) (c : Cm8) : (c.bumps id n).work = c.work := by
    induction n generalizing c with
    | zero => rfl
    | succ n ih => exact (ih _).trans (work_bump c id)
  have dropped (c : Cm8) (st : StoreId) : (c.dropPass st).work = c.work := by
    unfold dropPass
    rw [bumps]
    simp
  unfold relineSlots
  dsimp only
  rw [dropped, dropped, foldl_field Cm8.work unlink]
  simp [writeSetup]

/-- The work that is owed only gets less by a command. -/
theorem worked_resetHalt (a : Cm8 × Nat) (j : Slot) : Worked a.1 (resetHalt a j).1 := by
  unfold resetHalt
  split
  · exact worked_haltEach ..
  · exact .refl _

theorem work_resetPosted (d : Cm8) :
    (d.resetParts.post .none .none .resetDone).work = d.work := by
  rw [work_post]; rfl

theorem work_commanded (k : Commanded c d) : d.work.Sublist c.work := by
  cases k with
  | counters ids =>
    unfold clearOnRead
    split
    · rw [foldl_field Cm8.work fun c id => work_setCounter ..]
    · exact .refl _
  | remap i m => exact (worked_remap c i m).work
  | zonemap map still => exact (worked_rezone { c with zonemap := map }).work
  | lines p l => rw [work_relineSlots]
  | append i e room =>
    exact ((worked_onHead c i fun h => { h with queue := h.queue ++ [e] }).trans (worked_refresh _ i)).work
  | cued i e =>
    exact (((worked_flush c i).trans (worked_onHead _ i fun h => { h with queue := [e] })).trans
      (worked_refresh _ i)).work
  | replaceOver i m free => exact ((worked_flush c i).trans (worked_overrideWith ..)).work
  | replaceFree i x p =>
    exact ((((worked_flush c i).trans (worked_dropDisplaced ..)).trans (worked_toFree ..)).trans
      (worked_requestTold ..)).work
  | priority i m cls room free unstopped => exact (worked_startPriority c i m).work
  | stop i => exact (worked_stopHead c i).work
  | stopAll =>
    refine (Worked.foldl_fst (fun a j => ?_) Slot.all (c, 0)).work
    unfold stopEach
    split
    · exact worked_stopHead ..
    · exact .refl _
  | halt i => exact (worked_haltRequest c i _).work
  | haltAll => exact (Worked.foldl_fst (worked_haltEach _) Slot.all (c, 0)).work
  | clear i t halted => exact (worked_clearHalted c i t).work
  | release i halted => exact ((worked_freeOutside c i _).trans (worked_grantPass _)).work
  | mask m => exact (worked_grantPass { c with arbiter := { c.arbiter with mask := m } }).work
  | lowest i r =>
    exact (worked_grantPass { c with
      arbiter := { c.arbiter with lowest := i }, policy := { c.policy with rotation := r } }).work
  | reset =>
    have halted := (Worked.foldl_fst worked_resetHalt Slot.all (c, 0)).work
    generalize (Slot.all.foldl resetHalt (c, 0)).1 = d at halted ⊢
    exact (work_resetPosted d).symm ▸ halted
  | _ => exact .refl _

theorem quiet_commanded (h : c.Quiet) (k : Commanded c d) : d.Quiet :=
  ⟨safe_commanded h.heads k, h.work.sublist (work_commanded k)⟩

/-! ### The rows -/

theorem Quiet.withPort (h : c.Quiet) (p : Port) : { c with port := p }.Quiet :=
  ⟨h.heads.of_eq (fun _ => rfl) fun _ => rfl, h.work⟩

theorem quiet_offer (h : c.Quiet) (kind tag : Byte) (body : List Byte) (run : Cm8 → Cm8 × Answer)
    (k : Commanded c (run c).1) : (c.offer kind tag body run).Quiet := by
  unfold offer
  split
  · exact (quiet_commanded h k).withPort _
  · split
    · exact h.withPort _
    · exact quiet_bump h _

theorem quiet_pumpN (n : Nat) (h : c.Quiet) : (pumpN n c).Quiet := by
  induction n generalizing c with
  | zero => exact h
  | succ n ih =>
    unfold pumpN
    split
    · exact h
    · rename_i f fs _
      split
      · exact ih ((quiet_commanded (h.withPort { c.port with buffer := fs })
          (commanded_carryOut f.kind f.tag f.body)).withPort _)
      · exact h

theorem quiet_chooseIdle (h : c.Quiet) : c.chooseIdle.Quiet := by
  obtain ⟨heads, holders, work⟩ := choose_floor c
  unfold chooseIdle
  split
  · exact h
  · exact ⟨h.heads.of_eq heads holders, by rw [work]; exact h.work⟩

theorem quiet_commandFrame (h : c.Quiet) (kind tag : Byte) (body : List Byte) :
    (c.commandFrame kind tag body).Quiet := by
  unfold commandFrame
  split
  · exact quiet_offer (quiet_bump h _) _ _ _ _ (commanded_carryOut ..)
  · exact quiet_bump h _

theorem quiet_upstreamSent (h : c.Quiet) (receiving : Bool) : (c.upstreamSent receiving).Quiet := by
  have cut (u : Upstream) : (c.sentEffect u receiving).Quiet := by
    unfold sentEffect
    split
    · dsimp only
      split
      · exact quiet_bump (h.withPort _) _
      · exact h.withPort _
    · exact h
  have chosen {c : Cm8} (h : c.Quiet) : c.choose.Quiet := by
    obtain ⟨heads, holders, work⟩ := choose_floor c
    exact ⟨h.heads.of_eq heads holders, by rw [work]; exact h.work⟩
  unfold upstreamSent
  split
  · exact h
  · exact quiet_pumpN _ (chosen (cut _))

theorem safe_onTrack (h : c.SafeHeads) (i : Slot) (f : Tracker → Tracker) : (c.onTrack i f).SafeHeads :=
  safe_onHead i h _ rfl

theorem safe_followStep (h : c.SafeHeads) (i : Slot) (r : Report) : (c.followStep i r).SafeHeads := by
  have cleared {d : Cm8} (h : d.SafeHeads) :
      (if r.localControl then d.onTrack i fun t => { t with run := 0 } else d).SafeHeads := by
    split
    · exact safe_onTrack h i _
    · exact h
  unfold followStep
  dsimp only
  split
  · exact cleared (safe_bump h _)
  · split
    · exact cleared h
    · split
      · exact safe_haltRequest i (safe_onTrack h i _) _
      · exact safe_onTrack h i _

theorem safe_storeReport (h : c.SafeHeads) (i : Slot) (r : Report) : (c.storeReport i r).SafeHeads := by
  unfold storeReport
  dsimp only
  split
  · exact safe_haltRequest i (safe_onTrack h i _) _
  · exact safe_onTrack h i _

theorem safe_trackReport (h : c.SafeHeads) (i : Slot) (r : Report) : (c.trackReport i r).SafeHeads := by
  unfold trackReport
  split
  · unfold trackFirst offerReport placeReport
    dsimp only
    have followed := safe_followStep (safe_storeReport h i r) i r
    split
    · exact safe_onTrack followed i _
    · split
      · exact safe_onTrack (safe_onTrack (safe_onTrack followed i _) i _) i _
      · exact safe_onTrack (safe_onTrack followed i _) i _
  · rename_i flag _
    have followed := safe_followStep (safe_onTrack (safe_storeReport
      (safe_bump h (.line (c.lineOf i) .overrun)) i r) i fun t => { t with run := flag.savedRun }) i r
    unfold trackOverrun
    dsimp only
    split
    · exact safe_onTrack followed i _
    · exact followed

theorem safe_linkedReport (h : c.SafeHeads) (i : Slot) (r : Report) : (c.linkedReport i r).SafeHeads := by
  have noted : (c.onHead i fun h => { h with link := { h.link with loss := 0, reported := true } }).SafeHeads :=
    safe_onHead i h _ rfl
  have first {c : Cm8} (h : c.SafeHeads) : (c.firstReport i r).SafeHeads := by
    have placed : (c.onHead i fun h => (h.adopt r.measured).settleSetpoint).SafeHeads := safe_onHead i h _ rfl
    unfold firstReport
    dsimp only
    split
    · exact safe_haltRequest i placed _
    · split
      · exact safe_haltRequest i placed _
      · exact safe_toFree i (safe_giveFree i placed _)
  unfold linkedReport
  dsimp only
  split
  · exact safe_trackReport (first noted) i r
  · exact safe_trackReport noted i r

theorem quiet_arriveReport (h : c.Quiet) (st : StoreId) (address : Byte) (body : List Byte) :
    (c.arriveReport st address body).Quiet := by
  refine ⟨?_, h.work.sublist (worked_arriveReport c st address body).work⟩
  unfold arriveReport
  split
  · split
    · exact safe_bump h.heads _
    · split
      · exact safe_bump h.heads _
      · dsimp only
        split
        · exact safe_linkedReport (safe_bump h.heads _) _ _
        · exact safe_bump h.heads _
  · exact h.heads

theorem quiet_arrivePage (h : c.Quiet) (st : StoreId) (address : Byte) (body : List Byte) :
    (c.arrivePage st address body).Quiet := by
  refine ⟨?_, h.work.sublist (worked_arrivePage c st address body).work⟩
  unfold arrivePage
  split
  · split
    · exact safe_bump h.heads _
    · exact safe_onHead _ (safe_bump h.heads _) _ rfl
  · exact h.heads

theorem quiet_frameSent (h : c.Quiet) (st : StoreId) : (c.frameSent st).Quiet := by
  refine ⟨?_, h.work.sublist (worked_frameSent c st).work⟩
  unfold frameSent
  split
  · exact h.heads
  · exact safe_bump (safe_onStore h.heads st _) _

theorem quiet_lineBad (h : c.Quiet) (st : StoreId) : (c.lineBad st).Quiet := by
  unfold lineBad
  split
  · exact quiet_bump h _
  · exact h

theorem quiet_directFrame (h : c.Quiet) (i : Slot) (body : List Byte) : (c.directFrame i body).Quiet := by
  unfold directFrame filterDirect
  dsimp only
  split
  · exact quiet_bump (quiet_bump h _) _
  · exact ⟨safe_onStore (quiet_bump h _).heads _ _, by rw [work_onStore]; exact (quiet_bump h _).work⟩

theorem floorSafe_stepped (h : c.FloorSafe) (k : Stepped c d) : d.FloorSafe := by
  have finished := quiet_finish h
  have ends {e : Cm8} (h : e.Quiet) : e.chooseIdle.FloorSafe := (quiet_chooseIdle h).floorSafe
  have reached (n : Nat) : (c.finish.reach n).Quiet :=
    ⟨finished.heads.of_eq (fun _ => rfl) fun _ => rfl, finished.work⟩
  cases k with
  | powerOn => exact floorSafe_reset
  | bresenham x => exact floorSafe_bresenhamTick h x
  | edge n x => exact floorSafe_syncEdge h n x
  | loss x => exact floorSafe_lossExpiry h x
  | freewheel x => exact floorSafe_freewheelTick h x
  | event w isDue plain => exact floorSafe_takeEvent h isDue plain.2
  | queue rule i => exact floorSafe_takeQueue h rule i
  | granted i => exact floorSafe_zoneGranted h i
  | sent st => exact ends (quiet_frameSent finished st)
  | bad st => exact ends (quiet_lineBad finished st)
  | report st a b => exact ends (quiet_arriveReport finished st a b)
  | page st a b => exact ends (quiet_arrivePage finished st a b)
  | portBad => exact ends (quiet_bump finished _)
  | frame n k t b => exact ends (quiet_commandFrame (reached n) k t b)
  | direct i b => exact ends (quiet_directFrame finished i b)
  | upstream n r => exact ends (quiet_upstreamSent (reached n) r)
  | command k t b run commanded => exact ends (quiet_offer finished k t b run (commanded _))
  | commandAt n k t b run commanded =>
    have moved : (c.reach n).FloorSafe := h.onClock fun t => { t with now := max t.now n }
    exact ends (quiet_offer (quiet_finish moved) k t b run (commanded _))
  | idle => exact ends finished

end Cm8

end Sys2Proof.Machine

namespace Sys2Proof

open Sys2Proof.Machine

/-- Settles O5: a head that starts to move has its zones, a recomputation leaves the zones of its moves, and
nothing else frees a zone of a moving head. -/
theorem stepKeepsFloorSafe : Obligations.StepKeepsFloorSafe :=
  fun _ _ => step_keeps fun _ _ => Cm8.floorSafe_stepped

end Sys2Proof
end

section
/-! PROOF. The commands on the head and axis tables and on the shot table (R5, R8, R10, R11, R13, R14, R19 to
R23). -/

namespace Sys2Proof.Machine

/-! ### The limit layers (R10, R11, R13) -/

theorem AxisEntry.narrow_contains (i : Span) (r : Option Span) (p : Int) :
    (AxisEntry.narrow i r).contains p = true ↔
      i.contains p = true ∧ ∀ l, r = some l → l.lo ≤ p ∧ p ≤ l.hi := by
  cases r with
  | none => simp [AxisEntry.narrow]
  | some l =>
    simp only [AxisEntry.narrow, Span.contains, decide_eq_true_eq, Option.some.injEq, forall_eq',
      max_le_iff, le_min_iff]
    tauto

theorem AxisEntry.narrow_within (i : Span) (r : Option Span) :
    i.lo ≤ (AxisEntry.narrow i r).lo ∧ (AxisEntry.narrow i r).hi ≤ i.hi := by
  cases r with
  | none => exact ⟨le_rfl, le_rfl⟩
  | some l => exact ⟨le_max_left .., min_le_left ..⟩

/-- A position lies in the working interval exactly when each layer that is present allows it (R13). -/
theorem AxisEntry.working_contains (e : AxisEntry) (p : Int) : e.working.contains p = true ↔
    e.comm.lo ≤ p ∧ p ≤ e.comm.hi ∧
      (∀ r, e.restriction = some r → r.lo ≤ p ∧ p ≤ r.hi) ∧
      ∀ r, e.headRange = some r → r.lo ≤ p + e.trim ∧ p + e.trim ≤ r.hi := by
  have range : (∀ l, e.studioRange = some l → l.lo ≤ p ∧ p ≤ l.hi) ↔
      ∀ r, e.headRange = some r → r.lo ≤ p + e.trim ∧ p + e.trim ≤ r.hi := by
    unfold studioRange
    cases e.headRange with
    | none => simp
    | some r =>
      simp only [Option.map_some, Option.some.injEq, forall_eq']
      omega
  rw [working, narrow_contains, narrow_contains, range, Span.contains, decide_eq_true_iff]
  tauto

theorem AxisEntry.working_within (e : AxisEntry) :
    e.comm.lo ≤ e.working.lo ∧ e.working.hi ≤ e.comm.hi := by
  obtain ⟨lo, hi⟩ := narrow_within e.comm e.restriction
  obtain ⟨lo', hi'⟩ := narrow_within (narrow e.comm e.restriction) e.studioRange
  exact ⟨lo.trans lo', hi'.trans hi⟩

theorem Head.isLinked_iff (h : Head) : h.isLinked = true ↔ h.link.state = .linked := decide_eq_true_iff

theorem Activity.isHalted_iff (a : Activity) : a.isHalted = true ↔ ∃ w, a = .halted w := by
  cases a <;> simp [Activity.isHalted]

theorem Activity.isOffline_iff (a : Activity) : a.isOffline = true ↔ a = .offline := by
  cases a <;> simp [Activity.isOffline]

namespace Cm8

variable (c : Cm8) (i : Slot)

/-! ### HEADMAP GET and AXIS GET -/

theorem headmapGet_slot : c.headmapGet [slotByte i] =
    .ok (c, [BitVec.ofNat 8 (c.head i).map.pair.val, lineByte (c.head i).map.line,
      (c.head i).map.address, (c.head i).map.mask.setWidth 8, (c.head i).link.state.code]) := by
  unfold headmapGet
  dsimp only
  rw [slotOf_slotByte]

theorem headmapGet_range {b : Byte} (h : 8 ≤ b.toNat) : c.headmapGet [b] = .error .range := by
  unfold headmapGet
  dsimp only
  rw [slotOf_none h]

theorem axisGet_axis (a : Axis) : c.axisGet [slotByte i, axisByte a] =
    .ok (c, axisData ((c.head i).axes.get a) (c.head i).followCount) := by
  unfold axisGet
  dsimp only
  rw [slotOf_slotByte, axisOf_axisByte]

/-- A pair of a slot byte and an axis byte of which one names nothing. -/
theorem slot_axis_none {b d : Byte} (h : 8 ≤ b.toNat ∨ 6 ≤ d.toNat) :
    slotOf b = none ∨ axisOf d = none :=
  h.imp slotOf_none axisOf_none

theorem axisGet_range {b d : Byte} (h : 8 ≤ b.toNat ∨ 6 ≤ d.toNat) :
    c.axisGet [b, d] = .error .range := by
  unfold axisGet
  dsimp only
  split
  · rename_i i ax hi ha
    rcases slot_axis_none h with e | e
    · rw [e] at hi
      cases hi
    · rw [e] at ha
      cases ha
  · rfl

theorem lineByte_eq (l : Line) : lineByte l = if l = .a then 0#8 else 1#8 := by cases l <;> rfl

/-! ### AXIS SET and AXIS RESTRICT -/

/-- The motion states in which an axis may be written (R10). -/
def Writable (h : Head) : Prop := h.activity = .offline ∨ h.activity = .idle ∨ ∃ w, h.activity = .halted w

theorem axisWritable_iff (h : Head) : axisWritable h.activity = true ↔ Writable h := by
  unfold Writable
  cases h.activity <;> simp [axisWritable]

theorem axisAllowed_iff (h : Head) (a : Axis) (e : AxisEntry) : axisAllowed h a e = true ↔
    (h.configured a = true →
      (h.activity = .idle → e.working.lo ≤ h.setpoint.get a ∧ h.setpoint.get a ≤ e.working.hi) ∧
      (h.link.state = .linked → h.activity.isHalted = false → e.working.lo ≤ e.working.hi)) := by
  unfold axisAllowed
  simp only [Bool.or_eq_true, Bool.not_eq_true', Bool.and_eq_true, Span.contains, Span.isEmpty,
    decide_eq_true_eq, h.isLinked_iff, ← Bool.not_eq_true]
  rw [← not_lt (a := e.working.hi) (b := e.working.lo)]
  tauto

theorem writeAxis_ok {a : Axis} {e : AxisEntry} {n : Nat} (w : Writable (c.head i))
    (ok : axisAllowed (c.head i) a e = true) : c.writeAxis i a e n =
      .ok (c.onHead i fun h => { h with axes := h.axes.set a e, followCount := n }, []) := by
  unfold writeAxis
  dsimp only
  rw [(axisWritable_iff _).2 w, ok]
  rfl

theorem writeAxis_busy {a : Axis} {e : AxisEntry} {n : Nat} (w : ¬ Writable (c.head i)) :
    c.writeAxis i a e n = .error .busy := by
  unfold writeAxis
  dsimp only
  rw [Bool.eq_false_iff.2 fun h => w ((axisWritable_iff _).1 h)]
  rfl

theorem writeAxis_range {a : Axis} {e : AxisEntry} {n : Nat} (w : Writable (c.head i))
    (ok : axisAllowed (c.head i) a e = false) : c.writeAxis i a e n = .error .range := by
  unfold writeAxis
  dsimp only
  rw [(axisWritable_iff _).2 w, ok]
  rfl

/-- An entry that leaves an IDLE setpoint outside, or a driven head without an interval, is not allowed. -/
theorem axisAllowed_false {h : Head} {a : Axis} {e : AxisEntry}
    (lost : h.configured a = true ∧
      ((h.activity = .idle ∧ ¬ (e.working.lo ≤ h.setpoint.get a ∧ h.setpoint.get a ≤ e.working.hi)) ∨
        (h.link.state = .linked ∧ h.activity.isHalted = false ∧ e.working.hi < e.working.lo))) :
    axisAllowed h a e = false := by
  rw [Bool.eq_false_iff, ne_eq, axisAllowed_iff]
  intro allowed
  obtain ⟨configured, outside | ⟨linked, running, empty⟩⟩ := lost
  · exact outside.2 ((allowed configured).1 outside.1)
  · have nonempty := (allowed configured).2 linked running
    omega

/-- The entry that AXIS SET writes over an entry `e`. -/
def setEntry (e : AxisEntry) (comm : Span) (v a j f : Nat) : AxisEntry :=
  { e with
    comm := comm, vmax := v, amax := a, jogLimit := j, followLimit := f,
    restriction := e.restriction.map (AxisEntry.clampInto comm) }

section

variable (l2 l1 l0 h2 h1 h0 v1 v0 a1 a0 j1 j0 f1 f0 n : Byte)

/-- AXIS SET with values in range goes on to the checks of R10 on the head. -/
theorem axisSet_fields (a : Axis) (comm : be3 l2 l1 l0 ≤ be3 h2 h1 h0) (v : be2 v1 v0 ≠ 0)
    (acc : be2 a1 a0 ≠ 0) (j : be2 j1 j0 ≠ 0) (f : be2 f1 f0 ≠ 0) (low : 1 ≤ n.toNat)
    (high : n.toNat ≤ 8) :
    c.axisSet [slotByte i, axisByte a, l2, l1, l0, h2, h1, h0, v1, v0, a1, a0, j1, j0, f1, f0, n] =
      c.writeAxis i a (setEntry ((c.head i).axes.get a) ⟨be3 l2 l1 l0, be3 h2 h1 h0⟩ (be2 v1 v0)
        (be2 a1 a0) (be2 j1 j0) (be2 f1 f0)) n.toNat := by
  have nonempty : Span.isEmpty ⟨be3 l2 l1 l0, be3 h2 h1 h0⟩ = false := by
    simpa [Span.isEmpty] using comm
  have count : within 1 8 n.toNat = true := (within_iff ..).2 ⟨low, high⟩
  unfold axisSet
  dsimp only
  rw [slotOf_slotByte, axisOf_axisByte]
  simp only [nonempty, v, acc, j, f, count]
  rfl

/-- AXIS SET with a slot, an axis or a value out of range is refused (R10 check 1). -/
theorem axisSet_range {b d : Byte} (wrong : 8 ≤ b.toNat ∨ 6 ≤ d.toNat ∨ be3 h2 h1 h0 < be3 l2 l1 l0 ∨
      be2 v1 v0 = 0 ∨ be2 a1 a0 = 0 ∨ be2 j1 j0 = 0 ∨ be2 f1 f0 = 0 ∨ n = 0#8 ∨ 8 < n.toNat) :
    c.axisSet [b, d, l2, l1, l0, h2, h1, h0, v1, v0, a1, a0, j1, j0, f1, f0, n] = .error .range := by
  unfold axisSet
  dsimp only
  split
  · rename_i i ax hi ha
    refine if_pos ?_
    simp only [Bool.or_eq_true, decide_eq_true_eq, Span.isEmpty, Bool.not_eq_true', within,
      decide_eq_false_iff_not]
    rcases wrong with e | e | e | e | e | e | e | rfl | e
    · rw [slotOf_none e] at hi
      cases hi
    · rw [axisOf_none e] at ha
      cases ha
    · simp [e]
    · simp [e]
    · simp [e]
    · simp [e]
    · simp [e]
    · simp
    · exact .inr fun both => absurd both.2 (Nat.not_le.2 e)
  · rfl

end

theorem restrict_fields (a : Axis) {r : Option Span} (h : ∀ x, r = some x → x.lo ≤ x.hi) :
    c.restrict (slotByte i) (axisByte a) r =
      c.writeAxis i a { (c.head i).axes.get a with
        restriction := r.map (AxisEntry.clampInto ((c.head i).axes.get a).comm) }
        (c.head i).followCount := by
  have nonempty : ¬ r.any Span.isEmpty = true := by
    cases r with
    | none => exact Bool.false_ne_true
    | some x => simpa [Span.isEmpty] using h x rfl
  unfold restrict
  rw [slotOf_slotByte, axisOf_axisByte]
  dsimp only
  rw [if_neg nonempty]

theorem restrict_range {b d : Byte} {r : Option Span}
    (wrong : 8 ≤ b.toNat ∨ 6 ≤ d.toNat ∨ ∃ x, r = some x ∧ x.hi < x.lo) :
    c.restrict b d r = .error .range := by
  unfold restrict
  split
  · rename_i i ax hi ha
    refine if_pos ?_
    rcases wrong with e | e | ⟨x, rfl, e⟩
    · rw [slotOf_none e] at hi
      cases hi
    · rw [axisOf_none e] at ha
      cases ha
    · simpa [Span.isEmpty] using e
  · rfl

/-- The interval of an AXIS RESTRICT body. -/
def spanBody : Option Span → List Byte
  | none => []
  | some x => encPos x.lo ++ encPos x.hi

/-- AXIS RESTRICT reads the interval that its presence byte names. -/
theorem axisRestrict_body {b d p : Byte} {r : Option Span} (present : p.getLsbD 0 = r.isSome)
    (fits : ∀ x, r = some x → fitsPosition x.lo = true ∧ fitsPosition x.hi = true) :
    c.axisRestrict ([b, d, p] ++ spanBody r) = c.restrict b d r := by
  cases r with
  | none =>
    unfold axisRestrict
    simp only [spanBody, List.append_nil]
    exact if_neg (by rw [present]; exact Bool.false_ne_true)
  | some x =>
    obtain ⟨⟨l2, l1, l0, hl, vl⟩, h2, h1, h0, hh, vh⟩ :=
      (fits x rfl).imp encPos_eq encPos_eq
    unfold axisRestrict
    simp only [spanBody, hl, hh, List.cons_append, List.nil_append]
    rw [vl, vh]
    exact if_pos present

/-- An entry written with the follow count that stands changes the axes alone. -/
theorem writeAxis_kept {a : Axis} {e : AxisEntry} (w : Writable (c.head i))
    (ok : axisAllowed (c.head i) a e = true) : c.writeAxis i a e (c.head i).followCount =
      .ok (c.onHead i fun h => { h with axes := h.axes.set a e }, []) :=
  writeAxis_ok c i w ok

/-! ### TRIM SET -/

theorem get_writeTrims (l : List (Axis × Int)) (distinct : (l.map Prod.fst).Nodup)
    (t : PerAxis AxisEntry) (a : Axis) : (writeTrims t l).get a =
      match l.find? fun p => p.1 = a with
      | some p => { t.get a with trim := p.2 }
      | none => t.get a := by
  induction l generalizing t with
  | nil => rfl
  | cons p l ih =>
    obtain ⟨new, rest⟩ := List.nodup_cons.1 distinct
    have step : writeTrims t (p :: l) = writeTrims (t.set p.1 { t.get p.1 with trim := p.2 }) l := rfl
    rw [step, ih rest, PerAxis.get_set]
    by_cases e : p.1 = a
    · subst e
      have absent : l.find? (fun q => q.1 = p.1) = none := by
        rw [List.find?_eq_none]
        intro q hq same
        exact new (List.mem_map.2 ⟨q, hq, of_decide_eq_true same⟩)
      rw [absent, List.find?_cons_of_pos (by simp)]
      simp
    · rw [List.find?_cons_of_neg (by simpa using e), if_neg fun h => e h.symm]

theorem trimList_rawPairs {l : List (Axis × Int)} (low : 1 ≤ l.length) (high : l.length ≤ 6)
    (distinct : (l.map Prod.fst).Nodup) (values : ∀ t ∈ l, -1048576 ≤ t.2 ∧ t.2 ≤ 1048575) :
    trimList (rawPairs l) = some l := by
  unfold trimList
  rw [if_pos ((within_iff ..).2 (by rw [length_rawPairs]; exact ⟨low, high⟩)), nameAxes_rawPairs,
    Option.filter_eq_some_iff]
  refine ⟨rfl, ?_⟩
  simp only [Bool.and_eq_true, decide_eq_true_eq, List.all_eq_true, withinInt_iff]
  exact ⟨distinct, values⟩

/-- What TRIM SET asks of a list of pairs (R8 check 1). -/
def TrimsFit (ps : List (Byte × Int)) : Prop :=
  1 ≤ ps.length ∧ ps.length ≤ 6 ∧ (∀ t ∈ ps, t.1.toNat < 6) ∧ (ps.map Prod.fst).Nodup ∧
    ∀ t ∈ ps, -1048576 ≤ t.2 ∧ t.2 ≤ 1048575

theorem axisByte_injective : Function.Injective axisByte := by
  intro a b h
  cases a <;> cases b <;> first | rfl | cases h

theorem map_fst_rawPairs (l : List (Axis × Int)) :
    (rawPairs l).map Prod.fst = (l.map Prod.fst).map axisByte := by
  simp [rawPairs, Function.comp_def]

theorem trimsFit_rawPairs (l : List (Axis × Int)) : TrimsFit (rawPairs l) ↔
    1 ≤ l.length ∧ l.length ≤ 6 ∧ (l.map Prod.fst).Nodup ∧
      ∀ t ∈ l, -1048576 ≤ t.2 ∧ t.2 ≤ 1048575 := by
  have axes : ∀ t ∈ rawPairs l, t.1.toNat < 6 := by
    intro t ht
    obtain ⟨u, _, rfl⟩ := List.mem_map.1 ht
    show (axisByte u.1).toNat < 6
    cases u.1 <;> decide
  have values : (∀ t ∈ rawPairs l, -1048576 ≤ t.2 ∧ t.2 ≤ 1048575) ↔
      ∀ t ∈ l, -1048576 ≤ t.2 ∧ t.2 ≤ 1048575 := by
    simp only [rawPairs, List.forall_mem_map]
  unfold TrimsFit
  rw [length_rawPairs, map_fst_rawPairs, List.nodup_map_iff axisByte_injective, values]
  tauto

theorem trimList_none {ps : List (Byte × Int)} (h : ¬ TrimsFit ps) : trimList ps = none := by
  rw [Option.eq_none_iff_forall_ne_some]
  intro l e
  unfold trimList at e
  split at e
  · rename_i count
    obtain ⟨named, rest⟩ := Option.filter_eq_some_iff.1 e
    obtain rfl := (nameAxes_eq_some_iff ..).1 named
    rw [within_iff, length_rawPairs] at count
    simp only [Bool.and_eq_true, decide_eq_true_eq, List.all_eq_true, withinInt_iff] at rest
    exact h ((trimsFit_rawPairs l).2 ⟨count.1, count.2, rest.1, rest.2⟩)
  · cases e

/-- A list of pairs with its count, as the commands that carry one read it. -/
theorem counted_rawPairBytes {n : Byte} {ps : List (Byte × Int)} (count : ps.length = n.toNat)
    (values : ∀ t ∈ ps, fitsPosition t.2 = true) :
    counted n (axisPairs (rawPairBytes ps)) = some ps := by
  rw [axisPairs_rawPairBytes ps values, counted_eq count]

theorem counted_pairBytes {l : List (Axis × Int)} (count : l.length < 256)
    (values : ∀ t ∈ l, fitsPosition t.2 = true) :
    counted (BitVec.ofNat 8 l.length) (axisPairs (pairBytes l)) = some (rawPairs l) := by
  rw [axisPairs_pairBytes l values]
  refine counted_eq ?_
  rw [length_rawPairs, BitVec.toNat_ofNat, Nat.mod_eq_of_lt count]

theorem trimSet_list {n : Byte} {rest : List Byte} {ps : List (Byte × Int)} {l : List (Axis × Int)}
    (read : counted n (axisPairs rest) = some ps) (fits : trimList ps = some l) :
    c.trimSet (slotByte i :: n :: rest) =
      if (c.head i).activity.isHalted || !(c.head i).isLinked then
        .ok (c.onHead i fun h => { h with axes := writeTrims h.axes l }, [])
      else .error .busy := by
  unfold trimSet
  dsimp only
  rw [read]
  dsimp only
  rw [slotOf_slotByte, fits]

theorem trimSet_range {b n : Byte} {rest : List Byte} {ps : List (Byte × Int)}
    (read : counted n (axisPairs rest) = some ps) (wrong : 8 ≤ b.toNat ∨ ¬ TrimsFit ps) :
    c.trimSet (b :: n :: rest) = .error .range := by
  unfold trimSet
  dsimp only
  rw [read]
  dsimp only
  split
  · rename_i i l hi hl
    rcases wrong with e | e
    · rw [slotOf_none e] at hi
      cases hi
    · rw [trimList_none e] at hl
      cases hl
  · rfl

/-! ### The shot table -/

theorem targetList_rawPairs {mask : AxisMask} {l : List (Axis × Int)} (h : TargetsFit mask l) :
    targetList mask (rawPairs l) = some l := by
  unfold targetList
  rw [if_pos ((within_iff ..).2 (by rw [length_rawPairs]; exact h.count))]
  exact (axisList_eq_some_iff ..).2 ⟨rfl, h.rising, h.configured⟩

theorem targetList_none {mask : AxisMask} {ps : List (Byte × Int)}
    (h : ps = [] ∨ ¬ ListFits mask ps) : targetList mask ps = none := by
  unfold targetList
  split
  · rename_i count
    obtain ⟨low, high⟩ := (within_iff ..).1 count
    rcases h with rfl | unfit
    · exact absurd low (by decide)
    · exact axisList_none fun both => unfit ⟨high, both.1, both.2⟩
  · rfl

@[simp] theorem profileOf_code (q : Profile) : profileOf q.code = some q := by cases q <;> rfl

theorem shotSet_fields {d1 d0 n : Byte} {rest : List Byte} {ps : List (Byte × Int)}
    {l : List (Axis × Int)} (k : Fin 64) (q : Profile) (low : 1 ≤ be2 d1 d0) (high : be2 d1 d0 ≤ 4095)
    (read : counted n (axisPairs rest) = some ps)
    (fits : targetList (c.head i).map.mask ps = some l) :
    c.shotSet (slotByte i :: BitVec.ofNat 8 k.val :: d1 :: d0 :: q.code :: n :: rest) =
      .ok (c.onHead i fun h => { h with shots := h.shots.set k (some ⟨be2 d1 d0, q, l⟩) }, []) := by
  unfold shotSet
  dsimp only
  rw [read]
  dsimp only
  rw [slotOf_slotByte, shotOf_ofNat, profileOf_code]
  have duration : within 1 Config.durationMax (be2 d1 d0) = true := (within_iff ..).2 ⟨low, high⟩
  dsimp only
  rw [if_pos duration, fits]

theorem shotSet_range {b k d1 d0 q n : Byte} {rest : List Byte} {ps : List (Byte × Int)}
    (read : counted n (axisPairs rest) = some ps)
    (wrong : 8 ≤ b.toNat ∨ 64 ≤ k.toNat ∨ be2 d1 d0 = 0 ∨ 4095 < be2 d1 d0 ∨ 2 ≤ q.toNat ∨ ps = [] ∨
      ∃ i : Slot, b = slotByte i ∧ ¬ ListFits (c.head i).map.mask ps) :
    c.shotSet (b :: k :: d1 :: d0 :: q :: n :: rest) = .error .range := by
  unfold shotSet
  dsimp only
  rw [read]
  dsimp only
  split
  · rename_i i kk qq hi hk hq
    split
    · rename_i duration
      obtain ⟨low, high⟩ := (within_iff ..).1 duration
      have unlisted : targetList (c.head i).map.mask ps = none := by
        rcases wrong with e | e | e | e | e | e | ⟨j, rfl, e⟩
        · rw [slotOf_none e] at hi
          cases hi
        · rw [shotOf_none e] at hk
          cases hk
        · omega
        · exact absurd high (Nat.not_le.2 e)
        · rw [profileOf_none e] at hq
          cases hq
        · exact targetList_none (.inl e)
        · rw [slotOf_slotByte] at hi
          cases hi
          exact targetList_none (.inr e)
      rw [unlisted]
    · rfl
  · rfl

theorem shotGet_record (k : Fin 64) : c.shotGet [slotByte i, BitVec.ofNat 8 k.val] =
    .ok (c, shotData (c.head i).map.mask (c.head i).shots[k]) := by
  unfold shotGet
  dsimp only
  rw [slotOf_slotByte, shotOf_ofNat]

theorem shotGet_range {b k : Byte} (h : 8 ≤ b.toNat ∨ 64 ≤ k.toNat) :
    c.shotGet [b, k] = .error .range := by
  unfold shotGet
  dsimp only
  split
  · rename_i i kk hi hk
    rcases h with e | e
    · rw [slotOf_none e] at hi
      cases hi
    · rw [shotOf_none e] at hk
      cases hk
  · rfl

theorem shotErase_record (k : Fin 64) : c.shotErase [slotByte i, BitVec.ofNat 8 k.val] =
    .ok (c.onHead i fun h => { h with shots := h.shots.set k none },
      [boolByte (c.head i).shots[k].isSome]) := by
  have named : BitVec.ofNat 8 k.val ≠ 0xFF#8 := fun e => by
    have n := congrArg BitVec.toNat e
    rw [BitVec.toNat_ofNat] at n
    have small := k.isLt
    simp at n
    omega
  unfold shotErase
  dsimp only
  rw [slotOf_slotByte]
  dsimp only
  rw [if_neg named, shotOf_ofNat]

theorem shotErase_all : c.shotErase [slotByte i, 0xFF#8] =
    .ok (c.onHead i fun h => { h with shots := .replicate 64 none }, enc1 (validShots (c.head i))) := by
  unfold shotErase
  dsimp only
  rw [slotOf_slotByte]
  rfl

theorem shotErase_range {b k : Byte} (h : 8 ≤ b.toNat ∨ (64 ≤ k.toNat ∧ k.toNat ≤ 254)) :
    c.shotErase [b, k] = .error .range := by
  unfold shotErase
  dsimp only
  split
  · rfl
  · rename_i i hi
    rcases h with e | ⟨low, high⟩
    · rw [slotOf_none e] at hi
      cases hi
    · rw [if_neg (fun e => by simp [e] at high), shotOf_none low]

end Cm8
end Sys2Proof.Machine

namespace Sys2Proof

open Sys2Proof.Machine Sys2Proof.Machine.Cm8

/-- Settles O19. -/
theorem headTablesRead : Obligations.HeadTablesRead := by
  unfold Obligations.HeadTablesRead
  refine ⟨fun s tag b ready => ⟨?_, fun h => ?_⟩, fun s tag ready => ⟨?_, fun b d h => ?_⟩,
    fun e p => ⟨e.working_contains p, e.working_within⟩⟩
  · rintro i rfl
    refine (s.verdict_accepts .headmapGet tag _ (fun c => c.headmapGet _) ready
      (headmapGet_slot s.part i)).trans ?_
    rw [lineByte_eq]
    rcases (s.part.head i).link.state <;> rfl
  · exact s.verdict_refuses .headmapGet tag _ (fun c => c.headmapGet _) ready (headmapGet_range _ h)
  · intro i a
    refine (s.verdict_accepts .axisGet tag _ (fun c => c.axisGet _) ready
      (axisGet_axis s.part i a)).trans ?_
    simp only [axisData, AxisEntry.flags, spanBytes, List.append_assoc]
    rcases ((s.part.head i).axes.get a).restriction with - | r <;>
      rcases ((s.part.head i).axes.get a).headRange with - | r' <;> rfl
  · exact s.verdict_refuses .axisGet tag _ (fun c => c.axisGet _) ready (axisGet_range _ h)

/-- Settles O21. -/
theorem axisCommandsWriteLayers : Obligations.AxisCommandsWriteLayers := by
  unfold Obligations.AxisCommandsWriteLayers
  refine ⟨?_, ?_, ?_, ?_⟩
  · intro s tag i a l2 l1 l0 h2 h1 h0 v1 v0 a1 a0 j1 j0 f1 f0 n ready h e comm e' ordered v acc j f low
      high writable allowed
    refine s.verdict_accepts .axisSet tag _ (fun c => c.axisSet _) ready ?_
    rw [axisSet_fields _ _ _ _ _ _ _ _ _ _ _ _ _ _ _ _ _ _ ordered v acc j f low high]
    exact writeAxis_ok _ _ writable ((axisAllowed_iff ..).2 allowed)
  · intro s tag p i a ready h e writable allowed
    refine ⟨?_, ?_⟩
    · intro l2 l1 l0 h2 h1 h0 present ordered e' ok
      refine s.verdict_accepts .axisRestrict tag _ (fun c => c.axisRestrict _) ready ?_
      have read : s.part.axisRestrict [slotByte i, axisByte a, p, l2, l1, l0, h2, h1, h0] =
          s.part.restrict (slotByte i) (axisByte a) (some ⟨be3 l2 l1 l0, be3 h2 h1 h0⟩) := if_pos present
      exact (read.trans (restrict_fields _ _ _ (by rintro x ⟨⟩; exact ordered))).trans
        (writeAxis_kept _ _ writable ((axisAllowed_iff ..).2 ok))
    · intro absent ok
      refine s.verdict_accepts .axisRestrict tag _ (fun c => c.axisRestrict _) ready ?_
      have read : s.part.axisRestrict [slotByte i, axisByte a, p] =
          s.part.restrict (slotByte i) (axisByte a) none :=
        if_neg (by rw [absent]; exact Bool.false_ne_true)
      exact (read.trans (restrict_fields _ _ _ (by rintro x ⟨⟩))).trans
        (writeAxis_kept _ _ writable ((axisAllowed_iff ..).2 ok))
  · intro s tag b d l2 l1 l0 h2 h1 h0 v1 v0 a1 a0 j1 j0 f1 f0 n ready comm refused wrong
    have refuse {why : Reason} (h : s.part.axisSet
        [b, d, l2, l1, l0, h2, h1, h0, v1, v0, a1, a0, j1, j0, f1, f0, n] = .error why) : refused why :=
      s.verdict_refuses .axisSet tag _ (fun c => c.axisSet _) ready h
    refine ⟨fun h => refuse (axisSet_range _ _ _ _ _ _ _ _ _ _ _ _ _ _ _ _ h), ?_⟩
    intro right i a hb hd h e e' writable lost
    subst hb hd
    have fields := axisSet_fields s.part i l2 l1 l0 h2 h1 h0 v1 v0 a1 a0 j1 j0 f1 f0 n a
      (by by_contra k; exact right (by simp [wrong, comm]; omega))
      (fun k => right (by simp [wrong, k])) (fun k => right (by simp [wrong, k]))
      (fun k => right (by simp [wrong, k])) (fun k => right (by simp [wrong, k]))
      (Nat.pos_of_ne_zero fun k => right (by
        have zero : n = 0#8 := BitVec.eq_of_toNat_eq k
        simp [wrong, zero]))
      (by by_contra k; exact right (by simp [wrong]; omega))
    refine ⟨fun busy => refuse ?_, fun free gone => refuse ?_⟩
    · rw [fields, writeAxis_busy _ _ busy]
    · rw [fields]
      exact writeAxis_range _ _ free (axisAllowed_false gone)
  · intro s tag b d p r ready present fits refused wrong
    have refuse {why : Reason} (h : s.part.restrict b d r = .error why) : refused why := by
      have read := axisRestrict_body s.part (b := b) (d := d) present fits
      have done := s.verdict_refuses .axisRestrict tag ([b, d, p] ++ spanBody r)
        (fun c => c.axisRestrict ([b, d, p] ++ spanBody r)) ready (read.trans h)
      cases r <;> exact done
    refine ⟨fun h => refuse (restrict_range _ h), ?_⟩
    intro right i a hb hd h e e' writable lost
    subst hb hd
    have fields := restrict_fields s.part i a (r := r) (fun x hx => by
      by_contra k
      exact right (.inr (.inr ⟨x, hx, not_le.1 k⟩)))
    refine ⟨fun busy => refuse ?_, fun free gone => refuse ?_⟩
    · rw [fields, writeAxis_busy _ _ busy]
    · rw [fields]
      exact writeAxis_range _ _ free (axisAllowed_false gone)

/-- Settles O22. -/
theorem trimSetWritesTrims : Obligations.TrimSetWritesTrims := by
  unfold Obligations.TrimSetWritesTrims
  refine ⟨?_, ?_⟩
  · intro s tag i l ready low high distinct values free
    have small : ∀ t ∈ l, fitsPosition t.2 = true := fun t ht => by
      obtain ⟨lo, hi⟩ := values t ht
      exact decide_eq_true ⟨by omega, by omega⟩
    have allowed : ((s.part.head i).activity.isHalted || !(s.part.head i).isLinked) = true := by
      rw [Bool.or_eq_true, Bool.not_eq_true', Bool.eq_false_iff, ne_eq, Head.isLinked_iff]
      exact free
    refine s.verdict_accepts .trimSet tag _ (fun c => c.trimSet _) ready
      ((trimSet_list s.part i (counted_pairBytes (by omega) small)
        (trimList_rawPairs low high distinct values)).trans ((if_pos allowed).trans ?_))
    have written (h : Head) : writeTrims h.axes l = .gen fun a =>
        match l.find? fun t => t.1 = a with
        | some t => { h.axes.get a with trim := t.2 }
        | none => h.axes.get a :=
      PerAxis.ext_get fun a => by rw [get_writeTrims l distinct, PerAxis.get_gen]
    exact congrArg (fun f : Head → PerAxis AxisEntry =>
      (.ok (s.part.onHead i fun h => { h with axes := f h }, []) : Verdict)) (funext written)
  · intro s tag b n ps ready count values refused fits
    have read := counted_rawPairBytes count values
    have refuse {why : Reason} (h : s.part.trimSet (b :: n :: rawPairBytes ps) = .error why) :
        refused why := s.verdict_refuses .trimSet tag _ (fun c => c.trimSet _) ready h
    refine ⟨fun h => refuse (trimSet_range _ read h), ?_⟩
    rintro i rfl ok linked running
    obtain ⟨l, rfl⟩ := exists_rawPairs ok.2.2.1
    obtain ⟨low, high, distinct, range⟩ := (trimsFit_rawPairs l).1 ok
    refine refuse ((trimSet_list s.part i read (trimList_rawPairs low high distinct range)).trans
      (if_neg ?_))
    rw [running, (Head.isLinked_iff _).2 linked]
    decide

/-- Settles O23. -/
theorem shotSetReplacesRecord : Obligations.ShotSetReplacesRecord := by
  unfold Obligations.ShotSetReplacesRecord
  refine ⟨?_, ?_⟩
  · intro s tag i k d1 d0 q l ready low high fits
    have count := fits.count
    exact s.verdict_accepts .shotSet tag _ (fun c => c.shotSet _) ready
      (shotSet_fields s.part i k q low high (counted_pairBytes (by omega) fits.values)
        (targetList_rawPairs fits))
  · intro s tag b k d1 d0 q n ps ready count values wrong
    exact s.verdict_refuses .shotSet tag _ (fun c => c.shotSet _) ready
      (shotSet_range s.part (counted_rawPairBytes count values) wrong)

/-- Settles O24. -/
theorem shotReadsAndErasures : Obligations.ShotReadsAndErasures := by
  unfold Obligations.ShotReadsAndErasures
  refine ⟨fun s tag ready => ⟨fun i k => ?_, fun b k h => ?_⟩,
    fun s tag ready => ⟨fun i k => ?_, fun i => ?_, fun b k h => ?_⟩⟩
  · refine (s.verdict_accepts .shotGet tag _ (fun c => c.shotGet _) ready
      (shotGet_record s.part i k)).trans ?_
    generalize (s.part.head i).shots[k] = r
    cases r with
    | none => rfl
    | some r => simp only [shotData, List.append_assoc]; rfl
  · exact s.verdict_refuses .shotGet tag _ (fun c => c.shotGet _) ready (shotGet_range _ h)
  · exact s.verdict_accepts .shotErase tag _ (fun c => c.shotErase _) ready
      (shotErase_record s.part i k)
  · exact s.verdict_accepts .shotErase tag _ (fun c => c.shotErase _) ready (shotErase_all s.part i)
  · exact s.verdict_refuses .shotErase tag _ (fun c => c.shotErase _) ready (shotErase_range _ h)

end Sys2Proof
end

section
/-! PROOF. Bodies whose length does not agree with the fields they declare, and kinds that name no command
(R179, R189, R196). -/

namespace Sys2Proof.Machine.Cm8

variable (c : Cm8) (tag : Byte)

/-- A frame that meets an empty buffer and a free reply place is carried out, with one reply (R178). -/
theorem offer_ready {kind : Byte} {body : List Byte} {run : Cm8 → Cm8 × Answer}
    (buffer : c.port.buffer = []) (free : c.port.replies.length < 4) :
    (c.offer kind tag body run).chooseIdle = (run c).1.withReply ⟨kind, tag, (run c).2⟩ := by
  have place : c.canAnswer = true := decide_eq_true free
  unfold offer
  rw [buffer, place]
  exact chooseIdle_reply ..

/-- A kind byte that no command has is refused UNKNOWN (R179). -/
theorem carryOut_unknown {kind : Byte} (unnamed : ∀ k : CommandKind, k.code ≠ kind) (body : List Byte) :
    carryOut kind tag body c = (c, .refused .unknown) := by
  have absent : CommandKind.ofCode kind = none := by
    unfold CommandKind.ofCode
    rw [List.find?_eq_none]
    exact fun k _ same => unnamed k (of_decide_eq_true same)
  unfold carryOut
  rw [absent]

/-! ### Fixed lengths -/

/-- The commands with fixed fields, each with the length of its body. -/
def fixedLengths : List (CommandKind × Nat) :=
  [(.headmapSet, 5), (.headmapGet, 1), (.axisSet, 17), (.axisGet, 2), (.shotGet, 2), (.shotErase, 2),
    (.zonemapGet, 2), (.zonemapClear, 0), (.forwardSet, 3), (.lineSet, 8), (.lineGet, 1), (.policySet, 5),
    (.clockSet, 1), (.clockGet, 0), (.timeSet, 4), (.timeSlew, 4), (.eventSet, 11), (.portSet, 3),
    (.stop, 1), (.stopAll, 0), (.halt, 1), (.clear, 1), (.releaseZones, 1), (.zoneMask, 1),
    (.zoneLowest, 2), (.zoneStatus, 1), (.headStatus, 1), (.resetSoft, 0)]

/-- Each such command reads its body by one pattern of its length, and any other body is malformed. -/
theorem runKind_malformed {k : CommandKind} {n : Nat} (h : (k, n) ∈ fixedLengths) {body : List Byte}
    (length : body.length ≠ n) : runKind k tag body c = (c, .refused .malformed) := by
  simp only [fixedLengths, List.mem_cons, Prod.mk.injEq, List.not_mem_nil, or_false] at h
  rcases h with ⟨rfl, rfl⟩ | ⟨rfl, rfl⟩ | ⟨rfl, rfl⟩ | ⟨rfl, rfl⟩ | ⟨rfl, rfl⟩ | ⟨rfl, rfl⟩ | ⟨rfl, rfl⟩ |
    ⟨rfl, rfl⟩ | ⟨rfl, rfl⟩ | ⟨rfl, rfl⟩ | ⟨rfl, rfl⟩ | ⟨rfl, rfl⟩ | ⟨rfl, rfl⟩ | ⟨rfl, rfl⟩ |
    ⟨rfl, rfl⟩ | ⟨rfl, rfl⟩ | ⟨rfl, rfl⟩ | ⟨rfl, rfl⟩ | ⟨rfl, rfl⟩ | ⟨rfl, rfl⟩ | ⟨rfl, rfl⟩ |
    ⟨rfl, rfl⟩ | ⟨rfl, rfl⟩ | ⟨rfl, rfl⟩ | ⟨rfl, rfl⟩ | ⟨rfl, rfl⟩ | ⟨rfl, rfl⟩ | ⟨rfl, rfl⟩ <;>
    simp only [runKind, runHeadmapSet, runHeadmapGet, runAxisSet, runAxisGet, runShotGet, runShotErase,
      runZonemapGet, runZonemapClear, runForwardSet, runLineSet, runLineGet, runPolicySet, runClockSet,
      runClockGet, runTimeSet, runTimeSlew, runEventSet, runPortSet, runStop, runStopAll, runHalt, runClear,
      runReleaseZones, runZoneMask, runZoneLowest, runZoneStatus, runHeadStatus, runResetSoft,
      headmapSet, headmapGet, axisSet, axisGet, shotGet, shotErase, zonemapGet, zonemapClear, forwardSet,
      lineSet, lineGet, policySet, clockSet, clockGet, timeSet, timeSlew, eventSet, portSet, stop, stopAll,
      halt, clear, releaseZones, zoneMask, zoneLowest, zoneStatus, headStatus, resetSoft] <;>
    split
  all_goals first
    | exact absurd rfl length
    | rfl


/-! ### Presence bits (R11, R47, R194) -/

/-- The number of bytes that the optional fields of a presence byte take. -/
def optionsLength (p : Byte) : Nat :=
  (if p.getLsbD 0 then 4 else 0) + (if p.getLsbD 1 then 2 else 0) + if p.getLsbD 2 then 1 else 0

theorem takeCue_eq {p : Byte} {body r : List Byte} {o : Option (BitVec 32)}
    (h : takeCue p body = some (o, r)) : ∃ l, body = l ++ r ∧ l.length = if p.getLsbD 0 then 4 else 0 := by
  unfold takeCue at h
  split at h
  · rename_i bit
    split at h
    · rename_i b3 b2 b1 b0 rest
      cases h
      exact ⟨[b3, b2, b1, b0], rfl, (if_pos bit).symm⟩
    · cases h
  · rename_i bit
    cases h
    exact ⟨[], rfl, (if_neg bit).symm⟩

theorem takeDuration_eq {p : Byte} {body r : List Byte} {o : Option Nat}
    (h : takeDuration p body = some (o, r)) :
    ∃ l, body = l ++ r ∧ l.length = if p.getLsbD 1 then 2 else 0 := by
  unfold takeDuration at h
  split at h
  · rename_i bit
    split at h
    · rename_i b1 b0 rest
      cases h
      exact ⟨[b1, b0], rfl, (if_pos bit).symm⟩
    · cases h
  · rename_i bit
    cases h
    exact ⟨[], rfl, (if_neg bit).symm⟩

theorem takeProfile_eq {p : Byte} {body r : List Byte} {o : Option Byte}
    (h : takeProfile p body = some (o, r)) :
    ∃ l, body = l ++ r ∧ l.length = if p.getLsbD 2 then 1 else 0 := by
  unfold takeProfile at h
  split at h
  · rename_i bit
    split at h
    · rename_i b rest
      cases h
      exact ⟨[b], rfl, (if_pos bit).symm⟩
    · cases h
  · rename_i bit
    cases h
    exact ⟨[], rfl, (if_neg bit).symm⟩

/-- What follows the optional fields follows as many bytes as the presence byte names. -/
theorem takeOptions_eq {p : Byte} {body r : List Byte} {o : CallOptions}
    (h : takeOptions p body = some (o, r)) : ∃ l, body = l ++ r ∧ l.length = optionsLength p := by
  unfold takeOptions at h
  split at h
  · cases h
  · rename_i cue r1 h1
    split at h
    · cases h
    · rename_i duration r2 h2
      split at h
      · cases h
      · rename_i profile r3 h3
        cases h
        obtain ⟨l1, rfl, e1⟩ := takeCue_eq h1
        obtain ⟨l2, rfl, e2⟩ := takeDuration_eq h2
        obtain ⟨l3, rfl, e3⟩ := takeProfile_eq h3
        exact ⟨l1 ++ l2 ++ l3, by simp, by simp [optionsLength, e1, e2, e3, Nat.add_assoc]⟩

theorem axisRestrict_short {body : List Byte} (h : body.length < 3) :
    c.axisRestrict body = .error .malformed := by
  unfold axisRestrict
  split
  · exact absurd h (by simp)
  · exact absurd h (by simp)
  · rfl

theorem axisRestrict_malformed {s a p : Byte} {rest : List Byte}
    (h : rest.length ≠ if p.getLsbD 0 then 6 else 0) :
    c.axisRestrict (s :: a :: p :: rest) = .error .malformed := by
  unfold axisRestrict
  split
  · rename_i e
    cases e
    refine if_pos (Bool.of_not_eq_false fun bit => h ?_)
    rw [bit]
    rfl
  · rename_i e
    cases e
    refine if_neg fun bit => h ?_
    rw [bit]
    rfl
  · rfl

theorem recallShot_short {body : List Byte} (h : body.length < 4) :
    c.recallShot tag body = .error .malformed := by
  unfold recallShot
  split
  · exact absurd h (by simp)
  · rfl

theorem recallShot_malformed {s m k p : Byte} {rest : List Byte} (h : rest.length ≠ optionsLength p) :
    c.recallShot tag (s :: m :: k :: p :: rest) = .error .malformed := by
  unfold recallShot
  dsimp only
  split
  · rename_i o e
    obtain ⟨l, rfl, length⟩ := takeOptions_eq e
    exact absurd (by simpa using length) h
  · rfl

theorem recallInline_short {body : List Byte} (h : body.length < 3) :
    c.recallInline tag body = .error .malformed := by
  unfold recallInline
  split
  · exact absurd h (by simp)
  · rfl

/-- RECALL INLINE whose count and list cannot be read after its optional fields. -/
theorem recallInline_malformed {s m p : Byte} {rest : List Byte}
    (h : ∀ l r, rest = l ++ r → l.length = optionsLength p → inlinePairs r = none) :
    c.recallInline tag (s :: m :: p :: rest) = .error .malformed := by
  unfold recallInline
  dsimp only
  split
  · rfl
  · rename_i o r e
    obtain ⟨l, split, length⟩ := takeOptions_eq e
    rw [h l r split length]

/-! ### Counts (R8, R20, R24, R86, R110) -/

theorem inlinePairs_none {n : Byte} {rest : List Byte} (h : rest.length ≠ 4 * n.toNat) :
    inlinePairs (n :: rest) = none :=
  counted_axisPairs_none h

theorem trimSet_short {body : List Byte} (h : body.length ≤ 1) : c.trimSet body = .error .malformed := by
  unfold trimSet
  split
  · exact absurd h (by simp)
  · rfl

theorem trimSet_malformed {s n : Byte} {rest : List Byte} (h : rest.length ≠ 4 * n.toNat) :
    c.trimSet (s :: n :: rest) = .error .malformed := by
  unfold trimSet
  dsimp only
  rw [counted_axisPairs_none h]

theorem jog_short {body : List Byte} (h : body.length ≤ 1) : c.jog body = .error .malformed := by
  unfold jog
  split
  · exact absurd h (by simp)
  · rfl

theorem jog_malformed {s n : Byte} {rest : List Byte} (h : rest.length ≠ 4 * n.toNat) :
    c.jog (s :: n :: rest) = .error .malformed := by
  unfold jog
  dsimp only
  rw [counted_axisPairs_none h]

theorem shotSet_short {body : List Byte} (h : body.length ≤ 5) : c.shotSet body = .error .malformed := by
  unfold shotSet
  split
  · exact absurd h (by simp)
  · rfl

theorem shotSet_malformed {s k d1 d0 q n : Byte} {rest : List Byte} (h : rest.length ≠ 4 * n.toNat) :
    c.shotSet (s :: k :: d1 :: d0 :: q :: n :: rest) = .error .malformed := by
  unfold shotSet
  dsimp only
  rw [counted_axisPairs_none h]

/-- A map entry as bytes: the mark of an empty one, or eight bytes of which the first is not that mark. -/
def EntryBytes (e : List Byte) : Prop := e = [0xFF#8] ∨ (e.length = 8 ∧ e.head? ≠ some 0xFF#8)

/-- A list of map entries is read from the bytes of as many entries. -/
theorem rawZones_eq {body : List Byte} {raw : List (Option RawZone)} (h : rawZones body = some raw) :
    ∃ es : List (List Byte), es.length = raw.length ∧ (∀ e ∈ es, EntryBytes e) ∧ body = es.flatten := by
  induction body using rawZones.induct generalizing raw with
  | case1 =>
    cases h
    exact ⟨[], rfl, by simp, rfl⟩
  | case2 rest ih =>
    unfold rawZones at h
    rw [if_pos rfl] at h
    obtain ⟨raw', h', rfl⟩ := Option.map_eq_some_iff.1 h
    obtain ⟨es, length, entries, rfl⟩ := ih h'
    exact ⟨[0xFF#8] :: es, by simp [length], by simpa [EntryBytes] using entries, rfl⟩
  | case3 b mark z l2 l1 l0 h2 h1 h0 rest ih =>
    unfold rawZones at h
    rw [if_neg mark] at h
    obtain ⟨raw', h', rfl⟩ := Option.map_eq_some_iff.1 h
    obtain ⟨es, length, entries, rfl⟩ := ih h'
    refine ⟨[b, z, l2, l1, l0, h2, h1, h0] :: es, by simp [length], ?_, rfl⟩
    rintro e (- | ⟨-, he⟩)
    · exact .inr ⟨rfl, fun k => mark (Option.some.inj k)⟩
    · exact entries e he
  | case4 b rest mark short =>
    unfold rawZones at h
    rw [if_neg mark] at h
    split at h
    · exact absurd rfl (short _ _ _ _ _ _ _ _)
    · cases h

theorem zonemapSet_short {body : List Byte} (h : body.length ≤ 1) :
    c.zonemapSet body = .error .malformed := by
  unfold zonemapSet
  split
  · exact absurd h (by simp)
  · rfl

theorem zonemapSet_malformed {start n : Byte} {rest : List Byte}
    (h : ∀ es : List (List Byte), es.length = n.toNat → (∀ e ∈ es, EntryBytes e) → rest ≠ es.flatten) :
    c.zonemapSet (start :: n :: rest) = .error .malformed := by
  have unread : counted n (rawZones rest) = none := counted_none fun raw read count => by
    obtain ⟨es, length, entries, bytes⟩ := rawZones_eq read
    exact h es (length.trans count) entries bytes
  unfold zonemapSet
  dsimp only
  rw [unread]

end Sys2Proof.Machine.Cm8

namespace Sys2Proof

open Sys2Proof.Machine Sys2Proof.Machine.Cm8

/-- Settles O18: each command reads its body by its declared fields, and a kind byte that no command has
is found in no table. -/
theorem badCommandsRefused : Obligations.BadCommandsRefused := by
  unfold Obligations.BadCommandsRefused
  refine ⟨fun c tag body k n h length => runKind_malformed c tag h length, ?_, ?_⟩
  · intro s kind tag body ready unnamed
    refine congrArg Host.Outcome.next ((s.row_of_nil _ ready.work).trans ?_)
    rw [offer_ready _ _ ready.buffer ready.replies, carryOut_unknown _ _ unnamed]
    rfl
  · intro c tag bad options
    have settled {k : CommandKind} {body : List Byte} {v : Verdict}
        (run : runKind k tag body c = v.settle c) (h : v = .error .malformed) : bad k body := by
      subst h
      exact run
    refine ⟨fun body h => settled rfl (axisRestrict_short c h),
      fun s a p rest h => settled rfl (axisRestrict_malformed c h), ?_,
      fun body h => settled rfl (zonemapSet_short c h),
      fun start n rest h => settled rfl (zonemapSet_malformed c h),
      fun body h => settled rfl (recallShot_short c tag h),
      fun s m k p rest h => settled rfl (recallShot_malformed c tag h),
      fun body h => settled rfl (recallInline_short c tag h), ?_, ?_⟩
    · intro k m listed
      simp only [List.mem_cons, Prod.mk.injEq, List.not_mem_nil, or_false] at listed
      rcases listed with ⟨rfl, rfl⟩ | ⟨rfl, rfl⟩ | ⟨rfl, rfl⟩
      · refine ⟨fun body h => settled rfl (trimSet_short c h), fun fields rest n count h => ?_⟩
        match fields, count with
        | [s], _ => exact settled rfl (trimSet_malformed c h)
      · refine ⟨fun body h => settled rfl (jog_short c h), fun fields rest n count h => ?_⟩
        match fields, count with
        | [s], _ => exact settled rfl (jog_malformed c h)
      · refine ⟨fun body h => settled rfl (shotSet_short c h), fun fields rest n count h => ?_⟩
        match fields, count with
        | [s, k, d1, d0, q], _ => exact settled rfl (shotSet_malformed c h)
    · intro s m p rest short
      refine settled rfl (recallInline_malformed c tag fun l r split length => ?_)
      have empty : r = [] := List.eq_nil_of_length_eq_zero (by
        have total := congrArg List.length split
        rw [List.length_append] at total
        have bound : l.length = options p := length
        omega)
      rw [empty]
      rfl
    · intro s m p n fields rest count h
      refine settled rfl (recallInline_malformed c tag fun l r split length => ?_)
      obtain ⟨-, rfl⟩ := List.append_inj split (count.trans length.symm)
      exact inlinePairs_none h

end Sys2Proof
end

section
/-! PROOF. What the operations on one head do: the records they post, the head's new record, the zones it
takes, and nothing else (R60, R61, R81, R82, R115 to R117). -/

namespace Sys2Proof.Machine.Cm8

variable {c d e : Cm8} {i : Slot} {h h' : Head} {taken : ZoneSet}
  {r r' : List (Option Slot × Option Byte × Event)}

/-! ### Composition -/

namespace Turned

/-- After an operation that takes no zone, another one. -/
theorem trans (p : c.Turned d i h 0#16 r) (q : d.Turned e i h' taken r') :
    c.Turned e i h' taken (r ++ r') where
  events := by rw [q.events, p.events, p.rest.1, EventUnit.told_append]
  head := q.head
  others j n := (q.others j n).trans (p.others j n)
  holders z := by
    have same : d.holder z = c.holder z := by rw [p.holders, if_neg (by simp)]
    rw [q.holders, same]
  arbiter := ⟨q.arbiter.1.trans p.arbiter.1, q.arbiter.2.1.trans p.arbiter.2.1,
    q.arbiter.2.2.trans p.arbiter.2.2⟩
  pairs n := (q.pairs n).trans (p.pairs n)
  rest := ⟨q.rest.1.trans p.rest.1, q.rest.2.1.trans p.rest.2.1, q.rest.2.2.1.trans p.rest.2.2.1,
    q.rest.2.2.2.1.trans p.rest.2.2.2.1, q.rest.2.2.2.2.trans p.rest.2.2.2.2⟩

/-- After an operation that takes zones, one that takes none. -/
theorem transTaken (p : c.Turned d i h taken r) (q : d.Turned e i h' 0#16 r') :
    c.Turned e i h' taken (r ++ r') where
  events := by rw [q.events, p.events, p.rest.1, EventUnit.told_append]
  head := q.head
  others j n := (q.others j n).trans (p.others j n)
  holders z := by rw [q.holders, if_neg (by simp), p.holders]
  arbiter := ⟨q.arbiter.1.trans p.arbiter.1, q.arbiter.2.1.trans p.arbiter.2.1,
    q.arbiter.2.2.trans p.arbiter.2.2⟩
  pairs n := (q.pairs n).trans (p.pairs n)
  rest := ⟨q.rest.1.trans p.rest.1, q.rest.2.1.trans p.rest.2.1, q.rest.2.2.1.trans p.rest.2.2.1,
    q.rest.2.2.2.1.trans p.rest.2.2.2.1, q.rest.2.2.2.2.trans p.rest.2.2.2.2⟩

theorem refl (c : Cm8) (i : Slot) : c.Turned c i (c.head i) 0#16 [] where
  events := rfl
  head := rfl
  others _ _ := rfl
  holders z := by rw [if_neg (by simp)]
  arbiter := ⟨rfl, rfl, rfl⟩
  pairs _ := rfl
  rest := ⟨rfl, rfl, rfl, rfl, rfl⟩

/-- The same operation with its records written in another way. -/
theorem records (p : c.Turned d i h taken r) (same : r = r') : c.Turned d i h taken r' := same ▸ p

/-- The same operation with the head's record written in another way. -/
theorem headAs (p : c.Turned d i h taken r) (same : h = h') : c.Turned d i h' taken r := same ▸ p

/-- An operation that takes no zone changes no holder. -/
theorem holder_eq (p : c.Turned d i h 0#16 r) (z : Zone) : d.holder z = c.holder z := by
  rw [p.holders, if_neg (by simp)]

end Turned

/-! ### The operations -/

theorem turned_post (c : Cm8) (i : Slot) (s : Option Slot) (t : Option Byte) (e : Event) :
    c.Turned (c.post s t e) i (c.head i) 0#16 [(s, t, e)] where
  events := events_post ..
  head := by simp
  others _ _ := by simp
  holders z := by rw [if_neg (by simp)]; simp
  arbiter := by simp
  pairs _ := by simp
  rest := by simp

theorem turned_onHead (c : Cm8) (i : Slot) (f : Head → Head) :
    c.Turned (c.onHead i f) i (f (c.head i)) 0#16 [] where
  events := rfl
  head := by simp
  others _ n := by simp [n]
  holders z := by rw [if_neg (by simp)]; rfl
  arbiter := ⟨rfl, rfl, rfl⟩
  pairs _ := rfl
  rest := ⟨rfl, rfl, rfl, rfl, rfl⟩

theorem turned_setActivity (c : Cm8) (i : Slot) (a : Activity) :
    c.Turned (c.setActivity i a) i { c.head i with activity := a } 0#16 [] :=
  turned_onHead c i fun h => { h with activity := a }

theorem turned_setQueue (c : Cm8) (i : Slot) (q : List QueueEntry) :
    c.Turned (c.setQueue i q) i { c.head i with queue := q } 0#16 [] :=
  turned_onHead c i fun h => { h with queue := q }

theorem turned_toFree (c : Cm8) (i : Slot) : c.Turned (c.toFree i) i
    { c.head i with activity := freeActivity c.clock.frame (c.head i).queue } 0#16 [] :=
  turned_onHead c i fun h => { h with activity := freeActivity c.frame h.queue }

theorem turned_giveFree (c : Cm8) (i : Slot) (zs : ZoneSet) :
    c.Turned (c.giveFree i zs) i (c.head i) zs [] where
  events := by simp [EventUnit.told]
  head := by simp
  others _ _ := by simp
  holders z := holder_giveFree ..
  arbiter := by simp
  pairs p := by fin_cases p <;> simp [pair]
  rest := by simp

theorem turned_dropMove (c : Cm8) (i : Slot) (m : Move) (why : DropReason) :
    c.Turned (c.dropMove i m why) i (c.head i) 0#16 (moveRecords i m why) := by
  unfold dropMove moveRecords
  split
  · exact .refl c i
  · exact turned_post ..

theorem turned_dropHeld (c : Cm8) (i : Slot) (x : Option Held) (why : DropReason) :
    c.Turned (c.dropHeld? i x why) i (c.head i) 0#16 (heldRecords i x why) := by
  cases x with
  | none => exact .refl c i
  | some x => exact turned_post ..

/-- The records of the entries of a queue, posted one after the other. -/
theorem turned_dropEntries (c : Cm8) (i : Slot) (l : List QueueEntry) :
    c.Turned (l.foldl (fun c e => c.dropEntry i e .flushed) c) i (c.head i) 0#16 (flushRecords i l) := by
  induction l generalizing c with
  | nil => exact .refl c i
  | cons x l ih =>
    have first := turned_post c i (some i) (some x.tag) (.moveDropped (some x.source.name) .flushed)
    exact (first.trans (ih _)).headAs (by simp)

/-- A flush tells the entries, head entry first, and empties the queue (R60). -/
theorem turned_flush (c : Cm8) (i : Slot) :
    c.Turned (c.flush i) i { c.head i with queue := [] } 0#16 (flushRecords i (c.head i).queue) := by
  have entries := turned_dropEntries c i (c.head i).queue
  have emptied := turned_setQueue
    ((c.head i).queue.foldl (fun c e => c.dropEntry i e .flushed) c) i []
  exact ((entries.trans emptied).headAs (by rw [entries.head])).records (List.append_nil _)

/-- The records of what a head entering HALTED had: its active and held moves, or its waiting move (R82). -/
def haltRecords (i : Slot) : Activity → List (Option Slot × Option Byte × Event)
  | .moving m held => moveRecords i m .flushed ++ heldRecords i held .flushed
  | .waitZone w => moveRecords i w.move .flushed
  | _ => []

theorem turned_dropRecords (c : Cm8) (i : Slot) (a : Activity) :
    c.Turned (c.dropRecords i a) i (c.head i) 0#16 (haltRecords i a) := by
  cases a with
  | moving m held => exact ((turned_dropMove ..).trans (turned_dropHeld ..)).headAs (by simp)
  | waitZone w => exact turned_dropMove ..
  | _ => exact .refl c i

/-- Entry into HALTED: the state and the cause, the moves and the queue told and gone, HEAD_HALTED last, and
nothing else (R82). -/
theorem turned_enterHalted (c : Cm8) (i : Slot) (cause : HaltCause) :
    c.Turned (c.enterHalted i cause) i { c.head i with activity := .halted cause, queue := [] } 0#16
      (haltRecords i (c.head i).activity ++ flushRecords i (c.head i).queue ++
        [(some i, none, .headHalted cause)]) := by
  have halted := turned_setActivity c i (.halted cause)
  have told := halted.trans (turned_dropRecords _ i (c.head i).activity)
  have flushed := told.trans (turned_flush _ i)
  have posted := flushed.trans (turned_post _ i (some i) none (.headHalted cause))
  rw [flushed.head, told.head, halted.head] at posted
  exact posted

theorem turned_dropDisplaced (c : Cm8) (i : Slot) :
    c.Turned (c.dropDisplaced i) i (c.head i) 0#16 (displacedRecords i (c.head i).activity) := by
  unfold dropDisplaced displacedRecords
  cases (c.head i).activity with
  | moving m held => exact ((turned_dropMove ..).trans (turned_dropHeld ..)).headAs (by simp)
  | waitZone w => exact turned_dropMove ..
  | _ => exact .refl c i

end Sys2Proof.Machine.Cm8
end

section
/-! PROOF. Grant passes: who is judged and in what order, what a judgement decides, and that the passes that
follow from one end (R119, R122 to R125). -/

namespace Sys2Proof.Machine.Cm8

variable (c : Cm8) (i : Slot)

/-! ### The candidates (R123) -/

/-- A head that a pass considers: it waits and is not masked. -/
def Considered : Prop :=
  (c.head i).activity.waiting.isSome = true ∧ c.arbiter.mask.getLsbD i.val = false

/-- The place of a slot in the cyclic order from the slot after the lowest-priority slot. -/
def turn : Nat := (i - c.arbiter.lowest - 1).val

/-- The slots in that order. -/
def cyclicSlots : List Slot := Slot.all.map fun i => c.arbiter.lowest + 1 + i

theorem pairwise_cyclicSlots : c.cyclicSlots.Pairwise fun i j => c.turn i < c.turn j := by
  have place (i : Slot) : c.turn (c.arbiter.lowest + 1 + i) = i.val := by
    have same : ∀ l i : Slot, l + 1 + i - l - 1 = i := by decide
    rw [turn, same]
  have ordered : Slot.all.Pairwise fun i j => i.val < j.val := by decide
  rw [cyclicSlots, List.pairwise_map]
  exact ordered.imp fun h => by rw [place, place]; exact h

theorem mem_cyclicSlots : i ∈ c.cyclicSlots := by
  have same : ∀ l i : Slot, l + 1 + (i - (l + 1)) = i := by decide
  exact List.mem_map.2 ⟨i - (c.arbiter.lowest + 1), Slot.mem_all _, same ..⟩

/-- The candidates in cyclic order, before the on-air heads are taken first. -/
def waitingSlots : List Slot :=
  c.cyclicSlots.filter fun i => (c.waitingOf i).isSome && !c.arbiter.mask.getLsbD i.val

theorem candidates_eq : c.candidates = c.waitingSlots.filter (fun i => (c.head i).tally) ++
    c.waitingSlots.filter fun i => !(c.head i).tally := rfl

theorem mem_waitingSlots : i ∈ c.waitingSlots ↔ c.Considered i := by
  unfold waitingSlots Considered
  rw [List.mem_filter, and_iff_right (c.mem_cyclicSlots i), Bool.and_eq_true, Bool.not_eq_true']
  rfl

theorem mem_candidates : i ∈ c.candidates ↔ c.Considered i := by
  rw [candidates_eq, List.mem_append, List.mem_filter, List.mem_filter, mem_waitingSlots, ← and_or_left,
    Bool.not_eq_true']
  exact and_iff_left (Bool.eq_false_or_eq_true _)

/-- On-air heads come before the others, and each group in cyclic order (R123). -/
theorem pairwise_candidates : c.candidates.Pairwise fun i j =>
    ((c.head i).tally = true ∧ (c.head j).tally = false) ∨
      ((c.head i).tally = (c.head j).tally ∧ c.turn i < c.turn j) := by
  have cyclic : c.waitingSlots.Pairwise fun i j => c.turn i < c.turn j :=
    c.pairwise_cyclicSlots.filter _
  rw [candidates_eq, List.pairwise_append]
  refine ⟨?_, ?_, ?_⟩
  · refine (cyclic.filter _).imp_of_mem fun hi hj before => .inr ⟨?_, before⟩
    exact (List.mem_filter.1 hi).2.trans (List.mem_filter.1 hj).2.symm
  · refine (cyclic.filter _).imp_of_mem fun hi hj before => .inr ⟨?_, before⟩
    exact Bool.not_inj ((List.mem_filter.1 hi).2.trans (List.mem_filter.1 hj).2.symm)
  · intro i hi j hj
    exact .inl ⟨(List.mem_filter.1 hi).2, by simpa using (List.mem_filter.1 hj).2⟩

/-! ### A judgement (R124) -/

/-- The zone is the head's own, or free and not reserved earlier in the pass. -/
def MayHave (reserved : ZoneSet) (z : Zone) : Prop :=
  c.holder z = some i ∨ (c.holder z = none ∧ reserved.getLsbD z.val = false)

section

variable {c i}
variable {reserved : ZoneSet} {grants : List Slot} {w : Waiting}

theorem mayHave_all : (w.move.zones.zones.all fun z =>
      c.holdsZone i z || (c.isFree z && !reserved.getLsbD z.val)) = true ↔
    ∀ z : Zone, w.move.zones.getLsbD z.val = true → c.MayHave i reserved z := by
  simp only [List.all_eq_true, ZoneSet.mem_zones, Bool.or_eq_true, Bool.and_eq_true, Bool.not_eq_true',
    holdsZone_iff, isFree_iff, MayHave]

/-- A candidate that may have every zone it needs is granted and holds them. -/
theorem judge_granted (waits : (c.head i).activity = .waitZone w)
    (has : ∀ z : Zone, w.move.zones.getLsbD z.val = true → c.MayHave i reserved z) :
    judge (c, reserved, grants) i = (c.giveFree i w.move.zones, reserved, grants ++ [i]) := by
  have waiting : c.waitingOf i = some w := by rw [waitingOf, waits]; rfl
  unfold judge
  dsimp only
  rw [waiting]
  dsimp only
  rw [if_pos (mayHave_all.2 has)]

/-- Any other reserves its free zones, and no holder changes. -/
theorem judge_reserves (waits : (c.head i).activity = .waitZone w)
    (lacks : ∃ z : Zone, w.move.zones.getLsbD z.val = true ∧ ¬ c.MayHave i reserved z) :
    judge (c, reserved, grants) i =
      (c, reserved ||| (w.move.zones &&& ZoneSet.ofPred c.isFree), grants) := by
  have waiting : c.waitingOf i = some w := by rw [waitingOf, waits]; rfl
  have refused : ¬ (w.move.zones.zones.all fun z =>
      c.holdsZone i z || (c.isFree z && !reserved.getLsbD z.val)) = true := by
    rw [mayHave_all]
    push Not
    exact lacks
  unfold judge
  dsimp only
  rw [waiting]
  dsimp only
  rw [if_neg refused]

/-- A judgement changes no head. -/
theorem head_judge (a : Cm8 × ZoneSet × List Slot) (i j : Slot) :
    (judge a i).1.head j = a.1.head j := by
  rw [judge_arbiter]
  rfl

theorem released_judge (a : Cm8 × ZoneSet × List Slot) (i : Slot) :
    (judge a i).1.arbiter.released = a.1.arbiter.released := by
  unfold judge
  dsimp only
  split
  · rfl
  · split
    · exact released_giveFree ..
    · rfl

theorem lowest_judge (a : Cm8 × ZoneSet × List Slot) (i : Slot) :
    (judge a i).1.arbiter.lowest = a.1.arbiter.lowest := by
  unfold judge
  dsimp only
  split
  · rfl
  · split
    · exact lowest_giveFree ..
    · rfl

end

/-- What no judgement changes, none of a list of them changes. -/
theorem foldl_judge_field {β : Type} (field : Cm8 → β)
    (same : ∀ a i, field (judge a i).1 = field a.1) (l : List Slot) (a : Cm8 × ZoneSet × List Slot) :
    field (l.foldl judge a).1 = field a.1 := by
  induction l generalizing a with
  | nil => rfl
  | cons i l ih => rw [List.foldl_cons, ih, same]

/-! ### A pass (R125) -/

/-- The candidates of a pass judged one after the other. -/
def judgements : Cm8 × ZoneSet × List Slot :=
  c.candidates.foldl judge ({ c with arbiter := { c.arbiter with released := false } }, 0#16, [])

theorem judgePass_eq : c.judgePass =
    match c.policy.rotation, c.judgements.2.2.getLast? with
    | .rotate, some i => ({ c.judgements.1 with
        arbiter := { c.judgements.1.arbiter with lowest := i } }, c.judgements.2.2)
    | _, _ => (c.judgements.1, c.judgements.2.2) := rfl

theorem judgePass_grants : c.judgePass.2 = c.judgements.2.2 := by
  rw [judgePass_eq]
  split <;> rfl

theorem holder_judgePass (z : Zone) : c.judgePass.1.holder z = c.judgements.1.holder z := by
  rw [judgePass_eq]
  split <;> rfl

theorem head_judgePass (i : Slot) : c.judgePass.1.head i = c.head i := by
  rw [judgePass_arbiter]
  rfl

theorem released_judgePass : c.judgePass.1.arbiter.released = false := by
  have judged : c.judgements.1.arbiter.released = false :=
    foldl_judge_field (fun d => d.arbiter.released) released_judge _ _
  rw [judgePass_eq]
  split <;> exact judged

theorem lowest_judgements : c.judgements.1.arbiter.lowest = c.arbiter.lowest :=
  foldl_judge_field (fun d => d.arbiter.lowest) lowest_judge _ _

/-- The lowest-priority slot stays in FIXED mode, and where nothing was granted. -/
theorem lowest_judgePass (h : c.policy.rotation = .fixed ∨ c.judgements.2.2 = []) :
    c.judgePass.1.arbiter.lowest = c.arbiter.lowest := by
  rw [judgePass_eq]
  split
  · rename_i rotate last
    rcases h with h | h
    · rw [h] at rotate
      cases rotate
    · rw [h] at last
      cases last
  · exact c.lowest_judgements

/-- In ROTATE mode it becomes the last slot granted. -/
theorem lowest_judgePass_rotate (grants : List Slot) (rotate : c.policy.rotation = .rotate)
    (last : c.judgements.2.2 = grants ++ [i]) : c.judgePass.1.arbiter.lowest = i := by
  rw [judgePass_eq, rotate, last, List.getLast?_concat]

/-! ### The passes that follow (R122) -/

theorem handOver_none : handOver none = handGrant := by
  funext c i
  rfl

/-- The number of heads that wait. -/
def waitCount : Nat := (Finset.univ.filter fun i : Slot => (c.waitingOf i).isSome = true).card

theorem waitCount_le : c.waitCount ≤ 8 := by
  have bound := Finset.card_filter_le Finset.univ fun i : Slot => (c.waitingOf i).isSome = true
  simpa [waitCount] using bound

section

variable {c i}
variable {d : Cm8}

/-- What a pass may change leaves a head that does not wait out of the waiting set. -/
theorem PassFrame.waitingOf_none (h : PassFrame c d) (n : c.waitingOf i = none) : d.waitingOf i = none := by
  rw [waitingOf, h.still i n]
  exact n

theorem PassFrame.waitCount_le (h : PassFrame c d) : d.waitCount ≤ c.waitCount := by
  refine Finset.card_le_card fun j hj => ?_
  rw [Finset.mem_filter] at hj ⊢
  refine ⟨hj.1, Option.isSome_iff_ne_none.2 fun n => ?_⟩
  rw [h.waitingOf_none n] at hj
  cases hj.2

theorem PassFrame.waitCount_lt (h : PassFrame c d) (waited : (c.waitingOf i).isSome = true)
    (gone : d.waitingOf i = none) : d.waitCount < c.waitCount := by
  refine Finset.card_lt_card ⟨fun j hj => ?_, fun all => ?_⟩
  · rw [Finset.mem_filter] at hj ⊢
    refine ⟨hj.1, Option.isSome_iff_ne_none.2 fun n => ?_⟩
    rw [h.waitingOf_none n] at hj
    cases hj.2
  · have still := all (Finset.mem_filter.2 ⟨Finset.mem_univ i, waited⟩)
    rw [Finset.mem_filter, gone] at still
    cases still.2

end

theorem waiting_freeActivity (f : BitVec 32) (q : List QueueEntry) :
    (freeActivity f q).waiting = none := by
  unfold freeActivity
  split
  · split
    · split <;> rfl
    · rfl
  · rfl

/-- A head whose grant is handed over waits no longer (R125). -/
theorem waitingOf_handGrant : (c.handGrant i).waitingOf i = none := by
  unfold handGrant
  split
  · assumption
  · dsimp only
    split
    · simp [startMove, postStarted, makeActive, waitingOf, Activity.waiting]
    · simp only [waitingOf, head_recompute, toFree, head_onHead_self, waiting_freeActivity]

theorem waitingOf_foldl_handGrant {l : List Slot} (hi : i ∈ l) :
    (l.foldl handGrant c).waitingOf i = none := by
  induction l generalizing c with
  | nil => cases hi
  | cons j l ih =>
    rcases List.mem_cons.1 hi with rfl | h
    · exact (PassFrame.foldl passFrame_handGrant l _).waitingOf_none (c.waitingOf_handGrant i)
    · exact ih (c.handGrant j) h

/-- The part after a pass and its hand-overs. -/
def passed : Cm8 := c.judgePass.2.foldl handGrant c.judgePass.1

theorem mem_judgements {l : List Slot} {a : Cm8 × ZoneSet × List Slot} {i : Slot}
    (h : i ∈ (l.foldl judge a).2.2) : i ∈ a.2.2 ∨ i ∈ l := by
  induction l generalizing a with
  | nil => exact .inl h
  | cons j l ih =>
    rcases ih h with k | k
    · have one : (judge a j).2.2 = a.2.2 ∨ (judge a j).2.2 = a.2.2 ++ [j] := by
        unfold judge
        dsimp only
        split
        · exact .inl rfl
        · split
          · exact .inr rfl
          · exact .inl rfl
      rcases one with e | e
      · exact .inl (e ▸ k)
      · rw [e, List.mem_append, List.mem_singleton] at k
        exact k.imp_right fun (same : i = j) => same ▸ List.mem_cons_self ..
    · exact .inr (List.mem_cons_of_mem _ k)

theorem mem_grants (h : i ∈ c.judgePass.2) : c.Considered i := by
  rw [judgePass_grants] at h
  rcases mem_judgements h with k | k
  · cases k
  · exact (c.mem_candidates i).1 k

/-- A pass that leaves a release behind has ended a wait. -/
theorem waitCount_passed (h : c.passed.arbiter.released = true) : c.passed.waitCount < c.waitCount := by
  have frame : PassFrame c c.passed :=
    (passFrame_judgePass c).trans (PassFrame.foldl passFrame_handGrant _ _)
  cases grants : c.judgePass.2 with
  | nil =>
    have idle : c.passed = c.judgePass.1 := by rw [passed, grants]; rfl
    rw [idle, released_judgePass] at h
    cases h
  | cons i l =>
    have granted : i ∈ c.judgePass.2 := by rw [grants]; exact List.mem_cons_self ..
    exact frame.waitCount_lt (c.mem_grants i granted).1 (waitingOf_foldl_handGrant _ _ granted)

theorem settleN_succ (n : Nat) : settleN (n + 1) c =
    if c.arbiter.released = true then settleN n c.passed else c := by
  show (if c.arbiter.released = true then _ else c) = _
  rw [handOver_none]
  rfl

theorem settleN_quiet {n : Nat} (h : c.arbiter.released = false) : settleN n c = c := by
  cases n with
  | zero => rfl
  | succ n => rw [settleN_succ, if_neg (by simp [h])]

/-- Once there are more passes to run than heads that wait, no release is left behind. -/
theorem released_settleN (n : Nat) (c : Cm8) (h : c.waitCount < n) :
    (settleN n c).arbiter.released = false := by
  induction n generalizing c with
  | zero => exact absurd h (Nat.not_lt_zero _)
  | succ n ih =>
    rw [settleN_succ]
    split
    · by_cases again : c.passed.arbiter.released = true
      · exact ih _ (by have fewer := c.waitCount_passed again; omega)
      · rw [settleN_quiet _ (Bool.not_eq_true _ ▸ again)]
        exact Bool.not_eq_true _ ▸ again
    · exact Bool.not_eq_true _ ▸ ‹_›

/-- … and a further pass would change nothing. -/
theorem settleN_enough (n : Nat) (c : Cm8) (h : c.waitCount < n) : settleN (n + 1) c = settleN n c := by
  induction n generalizing c with
  | zero => exact absurd h (Nat.not_lt_zero _)
  | succ n ih =>
    rw [c.settleN_succ (n + 1), c.settleN_succ n]
    by_cases again : c.passed.arbiter.released = true
    · rw [ih _ (by have fewer := c.waitCount_passed again; omega)]
    · have quiet : c.passed.arbiter.released = false := Bool.not_eq_true _ ▸ again
      rw [settleN_quiet _ quiet, settleN_quiet _ quiet]

theorem released_settle : c.settle.arbiter.released = false :=
  released_settleN 9 c (by have := c.waitCount_le; omega)

theorem settle_quiet (h : c.arbiter.released = false) : c.settle = c := settleN_quiet c h

theorem grantPass_eq : c.grantPass = (c.judgePass.2.foldl handGrant c.judgePass.1).settle := by
  unfold grantPass
  rw [handOver_none]

/-- A release is answered by a grant pass, with the passes after it. -/
theorem settle_released (h : c.arbiter.released = true) : c.settle = c.grantPass := by
  have pass : c.settle = settleN 8 c.passed := by rw [settle, settleN_succ, if_pos h]
  have after : c.grantPass = settleN 9 c.passed := c.grantPass_eq
  rw [pass, after]
  by_cases again : c.passed.arbiter.released = true
  · refine (settleN_enough 8 _ ?_).symm
    have fewer := c.waitCount_passed again
    have bound := c.waitCount_le
    omega
  · have quiet : c.passed.arbiter.released = false := Bool.not_eq_true _ ▸ again
    rw [settleN_quiet _ quiet, settleN_quiet _ quiet]

end Sys2Proof.Machine.Cm8
end

section
/-! PROOF. The zone map, its commands and its reads, the recomputations, and the commands of the Zone Arbiter
(R109 to R115, R122 to R131). -/

namespace Sys2Proof.Machine

/-! ### The bytes of map entries (R110, R195) -/

/-- An entry as the fields of a body give it. -/
def rawOf (x : Byte × Byte × Int × Int) : RawZone := ⟨x.1, x.2.1, x.2.2.1, x.2.2.2⟩

/-- The fields of an entry. -/
def fieldsOf (e : ZoneEntry) : Byte × Byte × Int × Int :=
  (slotByte e.slot, BitVec.ofNat 8 e.zone.val, e.range.lo, e.range.hi)

theorem entryByteList_eq (e : Option ZoneEntry) : entryByteList e = rawEntryBytes (e.map fieldsOf) := by
  cases e <;> rfl

/-- The bytes of a list of entries are read as those entries. -/
theorem rawZones_rawEntryBytes (es : List (Option (Byte × Byte × Int × Int)))
    (fits : ∀ x, some x ∈ es →
      x.1 ≠ 0xFF#8 ∧ fitsPosition x.2.2.1 = true ∧ fitsPosition x.2.2.2 = true) :
    rawZones (es.flatMap rawEntryBytes) = some (es.map (Option.map rawOf)) := by
  induction es with
  | nil => rfl
  | cons e es ih =>
    have tail := ih fun x hx => fits x (List.mem_cons_of_mem _ hx)
    cases e with
    | none =>
      have head : (none :: es).flatMap rawEntryBytes = 0xFF#8 :: es.flatMap rawEntryBytes := rfl
      rw [head]
      unfold rawZones
      rw [if_pos rfl, tail]
      rfl
    | some x =>
      obtain ⟨mark, lo, hi⟩ := fits x (List.mem_cons_self ..)
      obtain ⟨l2, l1, l0, hl, vl⟩ := encPos_eq lo
      obtain ⟨h2, h1, h0, hh, vh⟩ := encPos_eq hi
      have head : (some x :: es).flatMap rawEntryBytes =
          x.1 :: x.2.1 :: l2 :: l1 :: l0 :: h2 :: h1 :: h0 :: es.flatMap rawEntryBytes := by
        simp [rawEntryBytes, hl, hh]
      rw [head]
      unfold rawZones
      rw [if_neg mark]
      dsimp only
      rw [tail, vl, vh]
      rfl

theorem counted_read {α : Type} {n : Byte} {x : Option (List α)} {l : List α} (read : x = some l)
    (count : l.length = n.toNat) : counted n x = some l := by
  rw [read, counted_eq count]

theorem slotByte_ne_mark (i : Slot) : slotByte i ≠ 0xFF#8 := fun h => by
  have n := congrArg BitVec.toNat h
  rw [toNat_slotByte] at n
  simp at n
  omega

theorem zoneEntry_fieldsOf (e : ZoneEntry) (ordered : e.range.lo ≤ e.range.hi) :
    zoneEntry (rawOf (fieldsOf e)) = some e := by
  have slot : slotOf (rawOf (fieldsOf e)).slot = some e.slot := slotOf_slotByte _
  have zone : zoneOf (rawOf (fieldsOf e)).zone = some e.zone := zoneOf_ofNat _
  unfold zoneEntry
  rw [slot, zone]
  exact if_neg (Int.not_lt.2 ordered)

theorem zoneEntries_fieldsOf (es : List (Option ZoneEntry))
    (ordered : ∀ e, some e ∈ es → e.range.lo ≤ e.range.hi) :
    zoneEntries (es.map fun e => (e.map fieldsOf).map rawOf) = some es := by
  induction es with
  | nil => rfl
  | cons e es ih =>
    have tail := ih fun x hx => ordered x (List.mem_cons_of_mem _ hx)
    cases e with
    | none => simp only [List.map_cons, Option.map_none, zoneEntries, tail, Option.map_some]
    | some x =>
      simp only [List.map_cons, Option.map_some, zoneEntries, tail,
        zoneEntry_fieldsOf x (ordered x (List.mem_cons_self ..))]

/-- The fields of an entry name a slot, a zone and an interval (R110 check 3). -/
def FieldsFit (x : Byte × Byte × Int × Int) : Prop :=
  x.1.toNat < 8 ∧ x.2.1.toNat < 16 ∧ x.2.2.1 ≤ x.2.2.2

theorem zoneEntry_isSome (x : Byte × Byte × Int × Int) : (zoneEntry (rawOf x)).isSome = true ↔ FieldsFit x := by
  unfold zoneEntry FieldsFit rawOf
  dsimp only
  by_cases hs : x.1.toNat < 8
  · by_cases hz : x.2.1.toNat < 16
    · rw [slotOf, dif_pos hs, zoneOf, dif_pos hz]
      simp [hs, hz]
    · rw [zoneOf_none (Nat.not_lt.1 hz)]
      simp [hz]
  · rw [slotOf_none (Nat.not_lt.1 hs)]
    simp [hs]

theorem zoneEntries_isSome (es : List (Option (Byte × Byte × Int × Int))) :
    (zoneEntries (es.map (Option.map rawOf))).isSome = true ↔ ∀ x, some x ∈ es → FieldsFit x := by
  induction es with
  | nil => simp [zoneEntries]
  | cons e es ih =>
    cases e with
    | none => simpa [zoneEntries] using ih
    | some x =>
      have head := zoneEntry_isSome x
      simp only [List.map_cons, Option.map_some, zoneEntries, List.mem_cons, Option.some.injEq,
        forall_eq_or_imp, ← head, ← ih]
      cases zoneEntry (rawOf x) <;> cases zoneEntries (es.map (Option.map rawOf)) <;> simp

namespace Cm8

variable (c : Cm8) (i : Slot)

/-! ### The zone map commands (R110 to R112) -/

/-- A head is MOVING, JOGGING or in WAIT_ZONE. -/
def OnFloor (h : Head) : Prop :=
  (∃ m held, h.activity = .moving m held) ∨ (∃ j, h.activity = .jogging j) ∨ ∃ w, h.activity = .waitZone w

theorem floorBusy_iff : c.floorBusy = true ↔ ∃ i : Slot, OnFloor (c.head i) := by
  have one (h : Head) : (match h.activity with
      | .moving _ _ => true | .jogging _ => true | .waitZone _ => true | _ => false) = true ↔
      OnFloor h := by
    unfold OnFloor
    cases h.activity <;> simp
  unfold floorBusy
  rw [List.any_eq_true]
  exact ⟨fun ⟨i, _, h⟩ => ⟨i, (one _).1 h⟩, fun ⟨i, h⟩ => ⟨i, Slot.mem_all i, (one _).2 h⟩⟩

theorem changeMap_free (map : Vector (Option ZoneEntry) 32) (free : c.floorBusy = false) :
    c.changeMap map = .ok ({ c with zonemap := map }.rezone.1, enc1 { c with zonemap := map }.rezone.2) :=
  if_neg (by rw [free]; exact Bool.false_ne_true)

theorem changeMap_busy (map : Vector (Option ZoneEntry) 32) (busy : c.floorBusy = true) :
    c.changeMap map = .error .busy :=
  if_pos busy

theorem zoneRange_iff (start n : Byte) : zoneRange start n = true ↔
    start.toNat < 32 ∧ 1 ≤ n.toNat ∧ n.toNat ≤ 16 ∧ start.toNat + n.toNat ≤ 32 := by
  simp only [zoneRange, Bool.and_eq_true, decide_eq_true_eq, within_iff]
  tauto

theorem zonemapSet_entries {start n : Byte} {rest : List Byte} {raw : List (Option RawZone)}
    (read : counted n (rawZones rest) = some raw) : c.zonemapSet (start :: n :: rest) =
      if zoneRange start n then
        (zoneEntries raw).elim (.error .range) fun es => c.changeMap (writeZones c.zonemap start.toNat es)
      else .error .range := by
  unfold zonemapSet
  simp only [read]
  cases zoneEntries raw with
  | none => rfl
  | some es => rfl

theorem getElem_writeZones (map : Vector (Option ZoneEntry) 32) (start : Nat)
    (es : List (Option ZoneEntry)) (n : Fin 32) : (writeZones map start es)[n] =
      if start ≤ n.val ∧ n.val < start + es.length then (es[n.val - start]?).join else map[n] := by
  have value : (writeZones map start es)[n] =
      if start ≤ n.val then (es[n.val - start]?).getD map[n] else map[n] := by
    simp [writeZones]
  rw [value]
  by_cases low : start ≤ n.val
  · by_cases high : n.val < start + es.length
    · have inside : n.val - start < es.length := by omega
      rw [if_pos low, if_pos ⟨low, high⟩, List.getElem?_eq_getElem inside]
      rfl
    · rw [if_pos low, if_neg fun h => high h.2, List.getElem?_eq_none (by omega)]
      rfl
  · rw [if_neg low, if_neg fun h => low h.1]

theorem toNat_ofNat_small {n : Nat} (h : n < 256) : (BitVec.ofNat 8 n).toNat = n := by
  rw [BitVec.toNat_ofNat, Nat.mod_eq_of_lt h]

/-! ### The recomputations (R112, R115) -/

theorem released_recompute (running : (c.head i).activity.isHalted = false) :
    (c.recompute i).arbiter.released = true ↔ c.arbiter.released = true ∨
      ∃ z : Zone, c.holder z = some i ∧ (c.residentZones i ||| c.moveZones i).getLsbD z.val = false := by
  unfold recompute
  rw [if_neg (by rw [running]; exact Bool.false_ne_true), released_freeOutside]

theorem haltRequest_free (cause : HaltCause) (free : (c.head i).activity.isFree = true) :
    c.haltRequest i cause = c.enterHalted i cause := by
  unfold haltRequest
  revert free
  cases (c.head i).activity <;> first | exact fun _ => rfl | exact fun h => nomatch h

/-- The floor of a head after a map change: what is not resident is freed, what is resident and free is
taken. -/
def refloored : Cm8 := (c.freeOutside i (c.residentZones i)).giveFree i (c.residentZones i)

theorem rezoneHead_free (n : Nat) (linked : (c.head i).isLinked = true)
    (free : (c.head i).activity.isFree = true) : rezoneHead (c, n) i =
      if (c.refloored i).obtainable i (c.residentZones i) then (c.refloored i, n)
      else ((c.refloored i).haltRequest i .conflict, n + 1) := by
  unfold rezoneHead
  dsimp only
  rw [linked, free]
  rfl

theorem rezoneHead_passed (n : Nat)
    (h : ((c.head i).isLinked && (c.head i).activity.isFree) = false) : rezoneHead (c, n) i = (c, n) :=
  if_neg (by rw [h]; exact Bool.false_ne_true)

theorem holder_refloored (z : Zone) : (c.refloored i).holder z =
    if (c.residentZones i).getLsbD z.val then
      (if c.holder z = none then some i else c.holder z)
    else (if c.holder z = some i then none else c.holder z) := by
  unfold refloored
  rw [holder_giveFree, holder_freeOutside]
  by_cases resident : (c.residentZones i).getLsbD z.val = true
  · simp only [resident, true_and, Bool.true_eq_false, and_false, if_false, if_true]
  · have absent : (c.residentZones i).getLsbD z.val = false := Bool.not_eq_true _ ▸ resident
    simp only [absent, Bool.false_eq_true, false_and, if_false, and_true]

theorem head_refloored (j : Slot) : (c.refloored i).head j = c.head j := by simp [refloored]

/-- Whether the resident zones can be had is decided by the holders before. -/
theorem obtainable_refloored :
    (c.refloored i).obtainable i (c.residentZones i) = c.obtainable i (c.residentZones i) := by
  rw [Bool.eq_iff_iff, obtainable_iff, obtainable_iff]
  refine forall_congr' fun z => imp_congr_right fun resident => ?_
  rw [holder_refloored, if_pos resident]
  by_cases free : c.holder z = none <;> simp [free]

theorem released_refloored : (c.refloored i).arbiter.released = true ↔ c.arbiter.released = true ∨
    ∃ z : Zone, c.holder z = some i ∧ (c.residentZones i).getLsbD z.val = false := by
  unfold refloored
  rw [released_giveFree, released_freeOutside]

/-- The part after the recomputation of a free head: its floor, and a halt in conflict where another head
has the resident floor. -/
theorem rezoneHead_turned (n : Nat) (linked : (c.head i).isLinked = true)
    (free : (c.head i).activity.isFree = true) :
    ∃ h r, (c.refloored i).Turned (rezoneHead (c, n) i).1 i h 0#16 r := by
  rw [rezoneHead_free _ _ _ linked free]
  split
  · exact ⟨_, _, .refl ..⟩
  · rw [haltRequest_free _ _ _ (by rw [head_refloored]; exact free)]
    exact ⟨_, _, turned_enterHalted ..⟩

theorem slots_eq : Slot.all = [0, 1, 2, 3, 4, 5, 6, 7] := rfl

theorem rezone_eq : c.rezone =
    ((Slot.all.foldl rezoneHead (c, 0)).1.settle, (Slot.all.foldl rezoneHead (c, 0)).2) := rfl

/-! ### The commands of the Zone Arbiter (R126, R127, R130) -/

theorem releaseZones_halted (halted : (c.head i).activity.isHalted = true) :
    c.releaseZones [slotByte i] = .ok ((c.freeOutside i 0#16).grantPass, encW (c.holdings i)) := by
  unfold releaseZones
  dsimp only
  rw [slotOf_slotByte]
  exact if_pos halted

theorem releaseZones_busy (running : (c.head i).activity.isHalted = false) :
    c.releaseZones [slotByte i] = .error .busy := by
  unfold releaseZones
  dsimp only
  rw [slotOf_slotByte]
  exact if_neg (by rw [running]; exact Bool.false_ne_true)

theorem releaseZones_range {b : Byte} (h : 8 ≤ b.toNat) : c.releaseZones [b] = .error .range := by
  unfold releaseZones
  dsimp only
  rw [slotOf_none h]

theorem zoneLowest_slot (r : Rotation) : c.zoneLowest [slotByte i, if r = .fixed then 0#8 else 1#8] =
    .ok (c.setLowest i r, enc1 (c.setLowest i r).arbiter.lowest.val) := by
  unfold zoneLowest
  cases r <;> (dsimp only; rw [slotOf_slotByte]; rfl)

theorem zoneLowest_range {b d : Byte} (h : 8 ≤ b.toNat ∨ 2 ≤ d.toNat) :
    c.zoneLowest [b, d] = .error .range := by
  unfold zoneLowest
  dsimp only
  split
  · rename_i i r hi hr
    rcases h with e | e
    · rw [slotOf_none e] at hi
      cases hi
    · rw [switchOf_none e] at hr
      cases hr
  · rfl

/-! ### Reads (R111, R131) -/

theorem zonemapGet_range {start n : Byte} (h : zoneRange start n = false) :
    c.zonemapGet [start, n] = .error .range :=
  if_neg (by rw [h]; exact Bool.false_ne_true)

theorem zonemapGet_entries {start n : Byte} (h : zoneRange start n = true) :
    c.zonemapGet [start, n] =
      .ok (c, ((c.zonemap.toList.drop start.toNat).take n.toNat).flatMap zoneBytes) :=
  if_pos h

theorem zoneBytes_eq : zoneBytes = fun e => match e with
    | none => [0xFF#8, 0#8, 0#8, 0#8, 0#8, 0#8, 0#8, 0#8]
    | some e => entryByteList (some e) := by
  funext e
  cases e <;> rfl

/-- The bytes of the waiting heads, one list for each. -/
theorem waitBytes_eq : (c.waitingList.map fun p => c.waitBytes p.1 p.2) =
    Slot.all.filterMap fun i => ((c.head i).activity.waiting.map fun w =>
      [slotByte i, w.move.tag.getD 0xFF#8] ++ encW w.move.zones ++ enc2 w.timer ++
        [flagsByte [c.arbiter.mask.getLsbD i.val, (c.head i).tally]]) := by
  unfold waitingList
  rw [List.map_filterMap]
  refine congrArg (fun f => Slot.all.filterMap f) (funext fun i => ?_)
  unfold waitingOf
  cases (c.head i).activity.waiting with
  | none => rfl
  | some w =>
    have tag : tagByte w.move.tag = w.move.tag.getD 0xFF#8 := by cases w.move.tag <;> rfl
    simp only [Option.map_some, waitBytes, tag]
    rfl

theorem zoneStatus_waiting {waits : List (List Byte)}
    (h : (c.waitingList.map fun p => c.waitBytes p.1 p.2) = waits) : c.zoneStatus [1#8] =
      .ok (c, c.arbiterBytes ++ [BitVec.ofNat 8 waits.length] ++ waits.flatten) := by
  have second : switchOf 1#8 = some true := rfl
  unfold zoneStatus
  dsimp only
  rw [second, ← h, List.length_map, ← List.flatMap_def]
  rfl

theorem zoneStatus_range {b : Byte} (h : 2 ≤ b.toNat) : c.zoneStatus [b] = .error .range := by
  unfold zoneStatus
  dsimp only
  rw [switchOf_none h]

end Cm8
end Sys2Proof.Machine

namespace Sys2Proof

open Sys2Proof.Machine Sys2Proof.Machine.Cm8

/-- Settles O25. -/
theorem zonemapCommandsWriteMap : Obligations.ZonemapCommandsWriteMap := by
  unfold Obligations.ZonemapCommandsWriteMap
  refine ⟨fun c => ?_, ?_, ?_⟩
  · have form := c.rezone_eq
    rw [slots_eq] at form
    dsimp only
    rw [form]
    generalize List.foldl rezoneHead (c, 0) [0, 1, 2, 3, 4, 5, 6, 7] = heads
    exact ⟨rfl, settle_released heads.1, settle_quiet heads.1⟩
  · intro s tag ready still
    have free : s.part.floorBusy = false := by
      rw [Bool.eq_false_iff, ne_eq, floorBusy_iff]
      rintro ⟨i, ⟨m, held, h⟩ | ⟨j, h⟩ | ⟨w, h⟩⟩
      · have active := (still i).1
        rw [h] at active
        cases active
      · exact (still i).2.2 j h
      · have waiting := (still i).2.1
        rw [h] at waiting
        cases waiting
    refine ⟨fun start es low high room fits => ?_, ?_⟩
    · have start' := toNat_ofNat_small (n := start.val) (by omega)
      have count := toNat_ofNat_small (n := es.length) (by omega)
      have read : rawZones (es.flatMap entryByteList) =
          some (es.map fun e => (e.map fieldsOf).map rawOf) := by
        have raw := rawZones_rawEntryBytes (es.map (Option.map fieldsOf)) fun x hx => by
          obtain ⟨e, he, hf⟩ := List.mem_map.1 hx
          obtain ⟨z, rfl, rfl⟩ := Option.map_eq_some_iff.1 hf
          obtain ⟨-, lo, hi⟩ := fits z he
          exact ⟨slotByte_ne_mark z.slot, lo, hi⟩
        rw [List.flatMap_map, List.map_map] at raw
        rw [funext entryByteList_eq]
        exact raw
      refine ⟨writeZones s.part.zonemap start.val es, getElem_writeZones _ _ _, ?_⟩
      refine s.verdict_accepts .zonemapSet tag _ (fun c => c.zonemapSet _) ready ?_
      refine (zonemapSet_entries s.part
        (counted_read read (by rw [List.length_map, count]))).trans ?_
      rw [if_pos ((zoneRange_iff ..).2 (by rw [start', count]; omega)),
        zoneEntries_fieldsOf es fun e he => (fits e he).1, start']
      exact changeMap_free _ _ free
    · exact s.verdict_accepts .zonemapClear tag _ (fun c => c.zonemapClear _) ready
        (changeMap_free _ _ free)
  · intro s tag start n es ready count fits refused fit busy
    have read := rawZones_rawEntryBytes es fits
    have entries := zonemapSet_entries s.part (start := start) (n := n)
      (counted_read read (by rw [List.length_map, count]))
    have refuse {why : Reason} (h : s.part.zonemapSet (start :: n :: es.flatMap rawEntryBytes) =
        .error why) : refused why := s.verdict_refuses .zonemapSet tag _ (fun c => c.zonemapSet _) ready h
    have onFloor (b : busy) : s.part.floorBusy = true := (floorBusy_iff _).2 b
    refine ⟨fun unfit => refuse ?_, fun ok b => refuse ?_, fun b => ?_⟩
    · rw [entries]
      split
      · rename_i range
        have bad : ¬ (zoneEntries (es.map (Option.map rawOf))).isSome = true := fun all => by
          obtain ⟨h1, h2, h3, h4⟩ := (zoneRange_iff ..).1 range
          exact unfit ⟨h1, h2, h3, h4, (zoneEntries_isSome es).1 all⟩
        exact congrArg (Option.elim · _ _) (Option.not_isSome_iff_eq_none.1 bad)
      · rfl
    · obtain ⟨h1, h2, h3, h4, h5⟩ := ok
      obtain ⟨l, hl⟩ := Option.isSome_iff_exists.1 ((zoneEntries_isSome es).2 h5)
      rw [entries, if_pos ((zoneRange_iff ..).2 ⟨h1, h2, h3, h4⟩), hl]
      exact changeMap_busy _ _ (onFloor b)
    · exact s.verdict_refuses .zonemapClear tag _ (fun c => c.zonemapClear _) ready
        (changeMap_busy _ _ (onFloor b))

/-- Settles O26. -/
theorem zoneReadsChangeNothing : Obligations.ZoneReadsChangeNothing := by
  unfold Obligations.ZoneReadsChangeNothing
  intro s tag ready c top
  have arbiterBytes_eq : c.arbiterBytes = top := by
    unfold arbiterBytes
    cases h : c.policy.rotation <;> simp [top, h, Rotation.code, enc1]
  refine ⟨fun start n low high room => ?_, ?_, ?_, fun sel h => ?_, fun start n h => ?_⟩
  · have start' := toNat_ofNat_small (n := start.val) (by omega)
    have count := toNat_ofNat_small (n := n) (by omega)
    refine (s.verdict_accepts .zonemapGet tag _ (fun c => c.zonemapGet _) ready
      (zonemapGet_entries c ((zoneRange_iff ..).2 (by rw [start', count]; omega)))).trans ?_
    rw [start', count, zoneBytes_eq]
    rfl
  · refine (s.verdict_accepts .zoneStatus tag [0#8] (fun c => c.zoneStatus [0#8]) ready
      (data := c.arbiterBytes ++ c.holderBytes) rfl).trans ?_
    rw [arbiterBytes_eq]
    rfl
  · intro waits
    have data := zoneStatus_waiting c (waits := waits) (waitBytes_eq c)
    rw [arbiterBytes_eq] at data
    exact s.verdict_accepts .zoneStatus tag [1#8] (fun c => c.zoneStatus [1#8]) ready data
  · exact s.verdict_refuses .zoneStatus tag _ (fun c => c.zoneStatus _) ready (zoneStatus_range _ h)
  · refine s.verdict_refuses .zonemapGet tag _ (fun c => c.zonemapGet _) ready (zonemapGet_range _ ?_)
    rw [Bool.eq_false_iff, ne_eq, zoneRange_iff]
    rintro ⟨h1, h2, h3, h4⟩
    rcases h with e | rfl | e | e
    · omega
    · exact absurd h2 (by decide)
    · omega
    · omega

/-- Settles O27. -/
theorem arbiterCommandsRunPass : Obligations.ArbiterCommandsRunPass := by
  unfold Obligations.ArbiterCommandsRunPass
  refine ⟨fun c => ⟨c.grantPass_eq, c.settle_released, c.settle_quiet, c.released_settle, ?_,
    c.released_judgePass⟩, ?_, ?_, ?_⟩
  · rw [grantPass_eq]
    exact released_settle _
  · intro s tag i ready
    refine ⟨fun halted => ⟨?_, fun z => ?_, fun z => getLsbD_holdings ..⟩, fun running => ?_⟩
    · exact s.verdict_accepts .releaseZones tag _ (fun c => c.releaseZones _) ready
        (releaseZones_halted _ _ ((Activity.isHalted_iff _).2 halted))
    · simp
    · exact s.verdict_refuses .releaseZones tag _ (fun c => c.releaseZones _) ready
        (releaseZones_busy _ _ running)
  · intro s tag m i r ready c low
    refine ⟨?_, ?_, fun b d h => ?_⟩
    · exact s.verdict_accepts .zoneMask tag [m] (fun c => c.zoneMask [m]) ready rfl
    · exact s.verdict_accepts .zoneLowest tag _ (fun c => c.zoneLowest _) ready (zoneLowest_slot c i r)
    · exact s.verdict_refuses .zoneLowest tag _ (fun c => c.zoneLowest _) ready (zoneLowest_range _ h)
  · intro s tag b ready h
    exact s.verdict_refuses .releaseZones tag _ (fun c => c.releaseZones _) ready (releaseZones_range _ h)

/-- Settles O28. -/
theorem passJudgesInOrder : Obligations.PassJudgesInOrder := by
  unfold Obligations.PassJudgesInOrder
  refine ⟨fun c => ⟨c.mem_candidates, c.pairwise_candidates⟩, ?_, ?_⟩
  · intro c reserved grants i w waits r has
    refine ⟨fun all => ?_, fun lacks => ?_⟩
    · have granted : r = _ := judge_granted waits all
      rw [granted]
      refine ⟨rfl, fun z => ?_⟩
      rw [holder_giveFree]
      by_cases needed : w.move.zones.getLsbD z.val = true
      · rw [if_pos needed]
        rcases all z needed with own | ⟨free, -⟩
        · rw [own]
          exact if_neg (by simp)
        · rw [if_pos ⟨needed, free⟩]
      · rw [if_neg fun h => needed h.1, if_neg needed]
    · have reserves : r = _ := judge_reserves waits lacks
      rw [reserves]
      refine ⟨rfl, rfl, fun z => ?_⟩
      rw [BitVec.getLsbD_or, BitVec.getLsbD_and, ZoneSet.getLsbD_ofPred]
      rfl
  · intro c r
    exact ⟨c.judgePass_grants, c.holder_judgePass, c.head_judgePass,
      fun fixed => c.lowest_judgePass (.inl fixed), fun none => c.lowest_judgePass (.inr none),
      fun grants i rotate last => c.lowest_judgePass_rotate i grants rotate last⟩

/-- Settles O29. -/
theorem recomputationKeepsNeededZones : Obligations.RecomputationKeepsNeededZones := by
  unfold Obligations.RecomputationKeepsNeededZones
  refine ⟨?_, ?_, ?_⟩
  · intro c i running keep
    refine ⟨fun z => ?_, released_recompute c i running, fun j => head_recompute ..⟩
    rw [holder_recompute]
    simp only [running, true_and]
    rfl
  · intro c n i linked free r
    have linked' := (Head.isLinked_iff _).2 linked
    have free' : (c.head i).activity.isFree = true := by
      rcases free with e | e <;> rw [e] <;> rfl
    have form := rezoneHead_free c i n linked' free'
    rw [obtainable_refloored] at form
    obtain ⟨h, records, turned⟩ := rezoneHead_turned c i n linked' free'
    refine ⟨fun z => ?_, fun other => ?_, fun own => ?_, fun j ne => ?_, ?_⟩
    · rw [turned.holder_eq, holder_refloored]
    · have taken : c.obtainable i (c.residentZones i) = false := (obtainable_false_iff ..).2 other
      have halted : r = ((c.refloored i).haltRequest i .conflict, n + 1) := by
        show rezoneHead (c, n) i = _
        rw [form, taken]
        rfl
      rw [halted, haltRequest_free _ _ _ (by rw [head_refloored]; exact free')]
      exact ⟨congrArg Head.activity (turned_enterHalted ..).head, rfl⟩
    · have kept : r = (c.refloored i, n) := by
        show rezoneHead (c, n) i = _
        rw [form, (obtainable_iff ..).2 own]
        rfl
      rw [kept]
      exact ⟨congrArg Head.activity (head_refloored c i i), rfl⟩
    · rw [turned.others j ne, head_refloored]
    · rw [turned.arbiter.2.2, released_refloored]
  · intro c n i passed
    refine rezoneHead_passed c i n ?_
    rw [Bool.and_eq_false_iff]
    refine passed.imp (fun h => ?_) fun ⟨idle, cue⟩ => ?_
    · rw [Bool.eq_false_iff, ne_eq, Head.isLinked_iff]
      exact h
    · revert idle cue
      cases (c.head i).activity <;> simp [Activity.isFree]

end Sys2Proof
end

section
/-! PROOF. HEADMAP SET, and the settings of forwarding, policy, events and the port (R3, R4, R162, R164, R183,
R185, R186, R206). -/

namespace Sys2Proof.Machine

theorem boolFalse_ne {b : Bool} (h : b = false) : ¬ b = true := by simp [h]

/-! ### Switches and kind masks -/

theorem switchOf_small {b : Byte} (h : b.toNat ≤ 1) : switchOf b = some (decide (b ≠ 0#8)) := by
  have cases' : b = 0#8 ∨ b = 1#8 := by
    rcases Nat.le_one_iff_eq_zero_or_eq_one.1 h with e | e
    · exact .inl (BitVec.eq_of_toNat_eq e)
    · exact .inr (BitVec.eq_of_toNat_eq e)
  rcases cases' with rfl | rfl <;> rfl

theorem switchOf_eq_none_iff {b : Byte} : switchOf b = none ↔ ¬ b.toNat ≤ 1 := by
  constructor
  · intro h small
    rw [switchOf_small small] at h
    cases h
  · exact fun h => switchOf_none (by omega)

/-- Eight bytes as a word, whichever way they are joined. -/
theorem be4_append_be4 (k7 k6 k5 k4 k3 k2 k1 k0 : Byte) :
    be4 k7 k6 k5 k4 ++ be4 k3 k2 k1 k0 = (k7 ++ k6 ++ k5 ++ k4 ++ k3 ++ k2 ++ k1 ++ k0 : BitVec 64) := by
  refine BitVec.eq_of_toNat_eq ?_
  unfold be4
  simp only [BitVec.toNat_append, Nat.shiftLeft_or_distrib, ← Nat.shiftLeft_add, Nat.or_assoc]

namespace Cm8

/-- The codes of the seventeen kinds of event (R191). -/
def kindCodes : List Nat := [1, 2, 3, 4, 5, 6, 7, 8, 0x10, 0x11, 0x12, 0x13, 0x14, 0x20, 0x21, 0x30, 0x31]

theorem getLsbD_everyKind : ∀ b : Fin 64, everyKind.getLsbD b.val = decide (b.val ∈ kindCodes) := by decide

/-- A kind mask is accepted when each of its bits is the code of a kind (R206). -/
theorem kindsKnown_iff (m : BitVec 64) :
    kindsKnown m = true ↔ ∀ b : Fin 64, m.getLsbD b.val = true → b.val ∈ kindCodes := by
  have bit (b : Fin 64) : (m &&& ~~~everyKind).getLsbD b.val =
      (m.getLsbD b.val && !decide (b.val ∈ kindCodes)) := by
    rw [BitVec.getLsbD_and, BitVec.getLsbD_not, getLsbD_everyKind]
    simp [b.isLt]
  unfold kindsKnown
  rw [decide_eq_true_iff]
  constructor
  · intro none b set
    have clear := bit b
    rw [none, set] at clear
    simpa using clear
  · intro all
    refine BitVec.eq_of_getLsbD_eq fun b hb => ?_
    rw [bit ⟨b, hb⟩, BitVec.getLsbD_zero, Bool.and_eq_false_iff, Bool.not_eq_false', decide_eq_true_iff]
    by_cases set : m.getLsbD b = true
    · exact .inr (all ⟨b, hb⟩ set)
    · exact .inl (Bool.not_eq_true _ ▸ set)

variable (c : Cm8) (i : Slot)

/-! ### FORWARD SET and POLICY SET -/

theorem forwardSet_slot {m d : Byte} (h : m.getLsbD 0 = false) : c.forwardSet [slotByte i, m, d] =
    .ok (c.onHead i fun h =>
      { h with forward := ⟨m, d.toNat⟩, track := { h.track with decimation := 0 } }, []) := by
  unfold forwardSet
  dsimp only
  rw [slotOf_slotByte]
  exact if_neg (boolFalse_ne h)

theorem forwardSet_range {b m d : Byte} (h : 8 ≤ b.toNat ∨ m.getLsbD 0 = true) :
    c.forwardSet [b, m, d] = .error .range := by
  unfold forwardSet
  dsimp only
  split
  · rename_i i hi
    rcases h with e | e
    · rw [slotOf_none e] at hi
      cases hi
    · exact if_pos e
  · rfl

/-- The fields of POLICY SET are in range (R185). -/
def PolicyFits (p m1 m0 w1 w0 : Byte) : Prop :=
  p.toNat ≤ 1 ∧ 1 ≤ be2 m1 m0 ∧ be2 m1 m0 ≤ 4095 ∧ 1 ≤ be2 w1 w0 ∧ be2 w1 w0 ≤ 1023

theorem policySet_fits {p m1 m0 w1 w0 : Byte} (h : PolicyFits p m1 m0 w1 w0) :
    c.policySet [p, m1, m0, w1, w0] =
      .ok ({ c with policy := ⟨if p = 0#8 then .soften else .block, be2 m1 m0, be2 w1 w0,
        c.policy.rotation⟩ }, []) := by
  obtain ⟨switch, low, high, low', high'⟩ := h
  have fits : (within 1 Config.durationMax (be2 m1 m0) && within 1 1023 (be2 w1 w0)) = true := by
    rw [Bool.and_eq_true, within_iff, within_iff]
    exact ⟨⟨low, high⟩, low', high'⟩
  unfold policySet
  dsimp only
  rw [switchOf_small switch]
  dsimp only
  rw [if_pos fits]
  by_cases zero : p = 0#8 <;> simp [zero]

theorem policySet_range {p m1 m0 w1 w0 : Byte} (h : ¬ PolicyFits p m1 m0 w1 w0) :
    c.policySet [p, m1, m0, w1, w0] = .error .range := by
  unfold policySet
  dsimp only
  split
  · rename_i b hb
    refine if_neg fun fits => ?_
    rw [Bool.and_eq_true, within_iff, within_iff] at fits
    refine h ⟨?_, fits.1.1, fits.1.2, fits.2.1, fits.2.2⟩
    by_contra big
    rw [switchOf_eq_none_iff.2 big] at hb
    cases hb
  · rfl

/-! ### EVENT SET and PORT SET -/

/-- The fields of EVENT SET are in range (R206). -/
def EventsFit (q m r : Byte) (kinds : BitVec 64) : Prop :=
  q.toNat ≤ 1 ∧ m.toNat ≤ 1 ∧ r.toNat ≤ 1 ∧
    ∀ b : Fin 64, kinds.getLsbD b.val = true → b.val ∈ kindCodes

section

variable {q k7 k6 k5 k4 k3 k2 k1 k0 m r : Byte} {kinds : BitVec 64}
  (word : be4 k7 k6 k5 k4 ++ be4 k3 k2 k1 k0 = kinds)

include word

theorem eventSet_fits (h : EventsFit q m r kinds) :
    c.eventSet [q, k7, k6, k5, k4, k3, k2, k1, k0, m, r] =
      .ok ({ c with
        events := { c.events with
          mode := if q = 0#8 then .keep else .overwrite, kinds := kinds,
          counterMode := if m = 0#8 then .wrap else .saturate, clearOnRead := decide (r = 1#8) } },
        []) := by
  obtain ⟨hq, hm, hr, known⟩ := h
  have second : decide (r ≠ 0#8) = decide (r = 1#8) := by
    rcases Nat.le_one_iff_eq_zero_or_eq_one.1 hr with e | e
    · rw [show r = 0#8 from BitVec.eq_of_toNat_eq e]
      rfl
    · rw [show r = 1#8 from BitVec.eq_of_toNat_eq e]
      rfl
  unfold eventSet
  dsimp only
  rw [word, switchOf_small hq, switchOf_small hm, switchOf_small hr]
  dsimp only
  rw [if_pos ((kindsKnown_iff _).2 known), second]
  by_cases zq : q = 0#8 <;> by_cases zm : m = 0#8 <;> simp [zq, zm]

theorem eventSet_range (h : ¬ EventsFit q m r kinds) :
    c.eventSet [q, k7, k6, k5, k4, k3, k2, k1, k0, m, r] = .error .range := by
  have small {b : Byte} {x : Bool} (e : switchOf b = some x) : b.toNat ≤ 1 := by
    by_contra big
    rw [switchOf_eq_none_iff.2 big] at e
    cases e
  unfold eventSet
  dsimp only
  rw [word]
  split
  · rename_i xq xm xr hq hm hr
    exact if_neg fun known => h ⟨small hq, small hm, small hr, (kindsKnown_iff _).1 known⟩
  · rfl

end

theorem clearOnRead_port : c.clearOnRead [.rxOk, .rxBad, .rxOverrun] =
    if c.events.clearOnRead then
      { c with port := { c.port with rxOk := 0#16, rxBad := 0#16, rxOverrun := 0#16 } }
    else c := by
  unfold clearOnRead
  split <;> rfl

@[simp] theorem parityOf_code (p : Parity) : parityOf p.code = some p := by cases p <;> rfl

theorem parityOf_none {b : Byte} (h : 3 ≤ b.toNat) : parityOf b = none := by
  have other (n : Nat) (small : n < 3) : b ≠ BitVec.ofNat 8 n := fun e => by
    rw [e, toNat_ofNat_small (by omega)] at h
    omega
  unfold parityOf
  rw [if_neg (other 0 (by decide)), if_neg (other 1 (by decide)), if_neg (other 2 (by decide))]

theorem portSet_fields {d1 d0 : Byte} (parity : Parity) (h : be2 d1 d0 ≤ 4095) :
    c.portSet [d1, d0, parity.code] = (c.clearOnRead [.rxOk, .rxBad, .rxOverrun],
      .acceptedSettings ⟨be2 d1 d0, parity⟩ (portData c.port ⟨be2 d1 d0, parity⟩)) := by
  unfold portSet
  dsimp only
  rw [parityOf_code]
  exact if_pos h

theorem portSet_range {d1 d0 b : Byte} (h : 4095 < be2 d1 d0 ∨ 3 ≤ b.toNat) :
    c.portSet [d1, d0, b] = (c, .refused .range) := by
  unfold portSet
  dsimp only
  split
  · rename_i parity hp
    rcases h with e | e
    · exact if_neg (Nat.not_le.2 e)
    · rw [parityOf_none e] at hp
      cases hp
  · rfl

/-! ### HEADMAP SET -/

@[simp] theorem lineOfCode_line (l : Line) : lineOfCode (if l = .a then 0#8 else 1#8) = some l := by
  cases l <;> rfl

/-- HEADMAP SET with fields in range goes on to the checks of R3 on the slot. -/
theorem headmapSet_fields (m : HeadMap) (low : 1 ≤ m.address.toNat) (high : m.address.toNat ≤ 15) :
    c.headmapSet [slotByte i, BitVec.ofNat 8 m.pair.val, if m.line = .a then 0#8 else 1#8, m.address,
      m.mask.setWidth 8] = c.remapChecked i m := by
  unfold headmapSet
  dsimp only
  rw [slotOf_slotByte, pairOf_ofNat, lineOfCode_line, maskOf_setWidth]
  exact if_pos ((within_iff ..).2 ⟨low, high⟩)

theorem headmapSet_range {b p l a m : Byte} (h : 8 ≤ b.toNat ∨ 2 ≤ p.toNat ∨ 2 ≤ l.toNat ∨ a = 0#8 ∨
    16 ≤ a.toNat ∨ 64 ≤ m.toNat) : c.headmapSet [b, p, l, a, m] = .error .range := by
  unfold headmapSet
  dsimp only
  split
  · rename_i i pair line mask hb hp hl hm
    refine if_neg fun fits => ?_
    obtain ⟨low, high⟩ := (within_iff ..).1 fits
    rcases h with e | e | e | rfl | e | e
    · rw [slotOf_none e] at hb
      cases hb
    · rw [pairOf_none e] at hp
      cases hp
    · rw [lineOfCode_none e] at hl
      cases hl
    · exact absurd low (by decide)
    · omega
    · rw [maskOf_none e] at hm
      cases hm
  · rfl

/-- The slot may not be remapped: it is LINKED and its head is not HALTED (R3). -/
def RemapBusy (h : Head) : Prop := h.link.state = .linked ∧ ∀ w, h.activity ≠ .halted w

theorem remapBusy_iff (h : Head) : (h.isLinked && !h.activity.isHalted) = true ↔ RemapBusy h := by
  rw [Bool.and_eq_true, Head.isLinked_iff, Bool.not_eq_true', Bool.eq_false_iff, ne_eq,
    Activity.isHalted_iff, not_exists]
  rfl

theorem addressTaken_iff : c.addressTaken i = true ↔ ∃ j : Slot, j ≠ i ∧
    (c.head j).map.mask ≠ 0#6 ∧ c.lineOf j = c.lineOf i ∧
      (c.head j).map.address = (c.head i).map.address := by
  simp [addressTaken, Head.isConfigured, and_assoc]

/-- The slot's line or address is not to be had (R3). -/
def RemapTaken (m : HeadMap) : Prop :=
  m.mask ≠ 0#6 ∧ ((m.line = .b ∧ (c.setup m.pair).mode = .duplex) ∨
    (c.onHead i fun h => { h with map := m }).addressTaken i = true)

section

variable (m : HeadMap)

theorem remapChecked_busy (busy : RemapBusy (c.head i)) : c.remapChecked i m = .error .busy :=
  if_pos ((remapBusy_iff _).2 busy)

theorem remapChecked_range (free : ¬ RemapBusy (c.head i)) (taken : c.RemapTaken i m) :
    c.remapChecked i m = .error .range :=
  (if_neg fun h => free ((remapBusy_iff _).1 h)).trans (if_pos taken)

theorem remapChecked_capacity (free : ¬ RemapBusy (c.head i)) (place : ¬ c.RemapTaken i m)
    (full : (c.onHead i fun h => { h with map := m }).linesFit = false) :
    c.remapChecked i m = .error .capacity :=
  (if_neg fun h => free ((remapBusy_iff _).1 h)).trans
    ((if_neg place).trans (if_pos (by rw [full]; rfl)))

theorem remapChecked_ok (free : ¬ RemapBusy (c.head i)) (place : ¬ c.RemapTaken i m)
    (fits : (c.onHead i fun h => { h with map := m }).linesFit = true) :
    c.remapChecked i m = .ok (c.remap i m, []) :=
  (if_neg fun h => free ((remapBusy_iff _).1 h)).trans
    ((if_neg place).trans (if_neg (by rw [fits]; decide)))

/-- The slot's record after HEADMAP SET. -/
def remappedHead : Head := { (c.head i).remapped m with queue := [] }

/-- The part after HEADMAP SET, its zones not yet freed. -/
def remapTold : Cm8 :=
  (if (c.head i).isLinked then
    (c.onHead i fun h => h.remapped m).post (some i) none (.headUnlinked .map)
  else c.onHead i fun h => h.remapped m).flush i

theorem remap_eq : c.remap i m = ((c.remapTold i m).freeOutside i 0#16).settle := rfl

theorem turned_remapTold : c.Turned (c.remapTold i m) i (c.remappedHead i m) 0#16
    ((if (c.head i).link.state = .linked then [(some i, none, Event.headUnlinked .map)] else []) ++
      flushRecords i (c.head i).queue) := by
  have written := turned_onHead c i fun h => h.remapped m
  by_cases linked : (c.head i).link.state = .linked
  · have told := written.trans (turned_post _ i (some i) none (.headUnlinked .map))
    have flushed := told.trans (turned_flush _ i)
    unfold remapTold
    rw [if_pos ((Head.isLinked_iff _).2 linked), if_pos linked]
    rw [told.head, written.head] at flushed
    exact flushed
  · have flushed := written.trans (turned_flush _ i)
    unfold remapTold
    rw [if_neg fun h => linked ((Head.isLinked_iff _).1 h), if_neg linked]
    rw [written.head] at flushed
    exact flushed

/-- What the slot held is freed, and the passes of that release run. -/
theorem passFrame_remap : PassFrame ((c.remapTold i m).freeOutside i 0#16) (c.remap i m) :=
  remap_eq c i m ▸ passFrame_settle _

theorem holder_remapFreed (z : Zone) : ((c.remapTold i m).freeOutside i 0#16).holder z =
    if c.holder z = some i then none else c.holder z := by
  rw [holder_freeOutside, (turned_remapTold c i m).holder_eq]
  simp

theorem head_remap : (c.remap i m).head i = c.remappedHead i m := by
  have freed : ((c.remapTold i m).freeOutside i 0#16).head i = c.remappedHead i m :=
    (head_freeOutside ..).trans (turned_remapTold c i m).head
  exact ((passFrame_remap c i m).head_eq (by rw [freed]; rfl)).trans freed

/-- The link of a slot after HEADMAP SET: restarted, or switched off for an empty mask (R151). -/
theorem link_remappedHead :
    (c.remappedHead i m).link =
      { Link.reset with
        state := if m.mask = 0#6 then .off else .probe
        pending := if m.mask = 0#6 then .none else .probe
        lostFlag := (c.head i).link.lostFlag } := by
  show (if m.mask = 0#6 then (c.head i).link.switchedOff else (c.head i).link.restarted) = _
  split <;> rfl

theorem released_remapFreed :
    ((c.remapTold i m).freeOutside i 0#16).arbiter.released = true ↔
      c.arbiter.released = true ∨ ∃ z : Zone, c.holder z = some i := by
  have turned := turned_remapTold c i m
  rw [released_freeOutside, turned.arbiter.2.2]
  simp [turned.holder_eq]

/-- No other head's record, tables, setpoint, link, tracker or queue is changed. -/
theorem fields_remap_other {j : Slot} (n : j ≠ i) :
    ((c.remap i m).head j) = { c.head j with activity := ((c.remap i m).head j).activity } := by
  have same : ((c.remapTold i m).freeOutside i 0#16).head j = c.head j :=
    (head_freeOutside ..).trans ((turned_remapTold c i m).others j n)
  have frame := (passFrame_remap c i m).head j
  rw [same] at frame
  exact frame

end

end Cm8
end Sys2Proof.Machine

namespace Sys2Proof

open Sys2Proof.Machine Sys2Proof.Machine.Cm8

/-- Settles O30. -/
theorem forwardAndPolicyWritten : Obligations.ForwardAndPolicyWritten := by
  unfold Obligations.ForwardAndPolicyWritten
  refine ⟨fun s tag m d ready => ⟨fun i h => ?_, fun b h => ?_⟩,
    fun s tag p m1 m0 w1 w0 ready => ⟨fun h => ?_, fun h => ?_⟩⟩
  · exact s.verdict_accepts .forwardSet tag _ (fun c => c.forwardSet _) ready (forwardSet_slot _ _ h)
  · exact s.verdict_refuses .forwardSet tag _ (fun c => c.forwardSet _) ready (forwardSet_range _ h)
  · exact s.verdict_accepts .policySet tag _ (fun c => c.policySet _) ready (policySet_fits _ h)
  · exact s.verdict_refuses .policySet tag _ (fun c => c.policySet _) ready (policySet_range _ h)

/-- Settles O31. -/
theorem eventAndPortSettings : Obligations.EventAndPortSettings := by
  unfold Obligations.EventAndPortSettings
  refine ⟨?_, ?_⟩
  · intro s tag q k7 k6 k5 k4 k3 k2 k1 k0 m r ready kinds known
    have word : be4 k7 k6 k5 k4 ++ be4 k3 k2 k1 k0 = kinds := be4_append_be4 ..
    exact ⟨fun h => s.verdict_accepts .eventSet tag _ (fun c => c.eventSet _) ready
        (eventSet_fits _ word h),
      fun h => s.verdict_refuses .eventSet tag _ (fun c => c.eventSet _) ready
        (eventSet_range _ word h)⟩
  · intro s tag d1 d0 parity ready p
    refine ⟨fun h => ?_, fun b h => ?_⟩
    · refine congrArg Host.Outcome.next
        ((s.command_ready .portSet tag _ (fun c => c.portSet _) ready).trans ?_)
      rw [portSet_fields _ _ h, clearOnRead_port]
      rfl
    · exact congrArg Host.Outcome.next
        (s.command_refuses .portSet tag _ (fun c => c.portSet _) ready (portSet_range _ h))

/-- Settles O20. -/
theorem headmapSetRestartsSlot : Obligations.HeadmapSetRestartsSlot := by
  unfold Obligations.HeadmapSetRestartsSlot
  refine ⟨?_, ?_, ?_, ?_⟩
  · intro s tag i m ready low high still placed place fits
    refine s.verdict_accepts .headmapSet tag _ (fun c => c.headmapSet _) ready ?_
    rw [headmapSet_fields _ _ _ low high]
    refine remapChecked_ok _ _ _ (fun busy => ?_) (fun taken => ?_) fits
    · obtain ⟨w, halted⟩ := still busy.1
      exact busy.2 w halted
    · obtain ⟨line, address⟩ := place taken.1
      rcases taken.2 with ⟨b, duplex⟩ | same
      · have split := line b
        rw [show (s.part.pair m.pair).setup.mode = .duplex from duplex] at split
        cases split
      · obtain ⟨j, n, configured, on, at'⟩ := (addressTaken_iff ..).1 same
        exact address j n configured on (at'.trans (by simp))
  · intro c i m h t
    have head : t = c.remappedHead i m := head_remap c i m
    have link := link_remappedHead c i m
    have frame := passFrame_remap c i m
    have turned := turned_remapTold c i m
    rw [head, link]
    have entry (a : Axis) : (c.remappedHead i m).axes.get a = { h.axes.get a with headRange := none } :=
      PerAxis.get_gen ..
    refine ⟨rfl, rfl, rfl, rfl, fun a => ⟨PerAxis.get_const .., PerAxis.get_const ..⟩, entry, rfl, rfl,
      rfl, rfl, rfl, rfl, rfl, rfl, rfl, rfl, rfl, rfl, rfl, rfl, rfl, rfl, rfl, ?_, rfl, rfl, rfl, rfl, rfl,
      rfl, ?_, ?_, ?_, ?_, ?_, ?_, ?_, ?_⟩
    · exact ⟨(c.remapTold i m).freeOutside i 0#16, remap_eq c i m,
        (head_freeOutside ..).trans turned.head, (events_freeOutside ..).trans turned.events,
        holder_remapFreed c i m, released_remapFreed c i m⟩
    · intro z held
      have freed := (frame.holder i z (by rw [head_freeOutside, turned.head]; rfl)).1 held
      rw [holder_remapFreed] at freed
      split at freed
      · cases freed
      · exact absurd freed ‹_›
    · intro j n o u
      have same : u = { o with activity := u.activity } := fields_remap_other c i m n
      rw [same]
      exact ⟨rfl, rfl, rfl, rfl, rfl, rfl, rfl, rfl, rfl, rfl⟩
    · exact frame.clock.trans ((clock_freeOutside ..).trans turned.rest.1)
    · exact frame.port.trans ((port_freeOutside ..).trans turned.rest.2.1)
    · exact frame.zonemap.trans ((zonemap_freeOutside ..).trans turned.rest.2.2.2.1)
    · exact frame.policy.trans ((policy_freeOutside ..).trans turned.rest.2.2.1)
    · exact frame.pair0.trans ((pair0_freeOutside ..).trans (turned.pairs 0))
    · exact frame.pair1.trans ((pair1_freeOutside ..).trans (turned.pairs 1))
  · intro s tag b p l a m ready wrong
    exact s.verdict_refuses .headmapSet tag _ (fun c => c.headmapSet _) ready (headmapSet_range _ wrong)
  · intro s tag i m ready low high placed refused busy taken
    have refuse {why : Reason} (h : s.part.remapChecked i m = .error why) : refused why :=
      s.verdict_refuses .headmapSet tag _ (fun c => c.headmapSet _) ready
        ((headmapSet_fields _ _ _ low high).trans h)
    have taken_iff : taken ↔ s.part.RemapTaken i m := by
      unfold RemapTaken
      rw [addressTaken_iff, head_onHead_self]
      exact Iff.rfl
    exact ⟨fun b => refuse (remapChecked_busy _ _ _ b),
      fun b t => refuse (remapChecked_range _ _ _ b (taken_iff.1 t)),
      fun b t full => refuse (remapChecked_capacity _ _ _ b (fun h => t (taken_iff.2 h)) full)⟩

end Sys2Proof
end

section
/-! PROOF. What counting changes: counters, and the event queue through the marks of R204; nothing else (R203,
R204). -/

namespace Sys2Proof.Machine.Cm8

/-- `d` is `c` but for its counters and its Event Unit. -/
structure Counted (c d : Cm8) : Prop where
  heads : d.heads = c.heads
  policy : d.policy = c.policy
  zonemap : d.zonemap = c.zonemap
  arbiter : d.arbiter = c.arbiter
  work : d.work = c.work
  clock : ∃ g, d.clock = { c.clock with glitch := g }
  port : ∃ a b e, d.port = { c.port with rxOk := a, rxBad := b, rxOverrun := e }
  pair : ∀ p : Fin 2, (d.pair p).setup = (c.pair p).setup ∧ (d.pair p).inForce = (c.pair p).inForce ∧
    (d.pair p).relined = (c.pair p).relined
  store : ∀ st, ∃ k, d.store st = { c.store st with counters := k }

namespace Counted

variable {c d e : Cm8}

theorem refl (c : Cm8) : c.Counted c where
  heads := rfl
  policy := rfl
  zonemap := rfl
  arbiter := rfl
  work := rfl
  clock := ⟨_, rfl⟩
  port := ⟨_, _, _, rfl⟩
  pair _ := ⟨rfl, rfl, rfl⟩
  store _ := ⟨_, rfl⟩

theorem trans (p : c.Counted d) (q : d.Counted e) : c.Counted e where
  heads := q.heads.trans p.heads
  policy := q.policy.trans p.policy
  zonemap := q.zonemap.trans p.zonemap
  arbiter := q.arbiter.trans p.arbiter
  work := q.work.trans p.work
  clock := by
    obtain ⟨g, hg⟩ := q.clock
    obtain ⟨g', hg'⟩ := p.clock
    exact ⟨g, by rw [hg, hg']⟩
  port := by
    obtain ⟨a, b, x, h⟩ := q.port
    obtain ⟨_, _, _, h'⟩ := p.port
    exact ⟨a, b, x, by rw [h, h']⟩
  pair n := ⟨(q.pair n).1.trans (p.pair n).1, (q.pair n).2.1.trans (p.pair n).2.1,
    (q.pair n).2.2.trans (p.pair n).2.2⟩
  store st := by
    obtain ⟨k, hk⟩ := q.store st
    obtain ⟨_, hk'⟩ := p.store st
    exact ⟨k, by rw [hk, hk']⟩

theorem head (p : c.Counted d) (i : Slot) : d.head i = c.head i := by
  unfold Cm8.head
  rw [p.heads]

theorem setup (p : c.Counted d) (n : Fin 2) : d.setup n = c.setup n := (p.pair n).1

theorem rate (p : c.Counted d) : d.clock.rate = c.clock.rate := by
  obtain ⟨g, hg⟩ := p.clock
  rw [hg]

theorem frame (p : c.Counted d) : d.clock.frame = c.clock.frame := by
  obtain ⟨g, hg⟩ := p.clock
  rw [hg]

theorem lineOf (p : c.Counted d) (i : Slot) : d.lineOf i = c.lineOf i := by
  unfold Cm8.lineOf
  dsimp only
  rw [p.head, p.setup]

theorem slotsOn (p : c.Counted d) (st : StoreId) : d.slotsOn st = c.slotsOn st := by
  unfold Cm8.slotsOn
  refine List.filter_congr fun i _ => ?_
  rw [p.head, p.lineOf]

theorem sumSlots (p : c.Counted d) (st : StoreId) (f : HeadMap → Nat) : d.sumSlots st f = c.sumSlots st f := by
  unfold Cm8.sumSlots
  rw [p.slotsOn]
  refine congrArg (fun g => List.foldl g 0 (c.slotsOn st)) ?_
  funext n i
  rw [p.head]

theorem capacity (p : c.Counted d) (n : Fin 2) : d.capacity n = c.capacity n := by
  unfold Cm8.capacity
  rw [p.setup, p.rate]

theorem sendBudget (p : c.Counted d) (st : StoreId) : d.sendBudget st = c.sendBudget st := by
  unfold Cm8.sendBudget reserve
  rw [p.capacity, p.setup, p.sumSlots]

theorem pass (p : c.Counted d) (st : StoreId) : (d.store st).pass = (c.store st).pass := by
  obtain ⟨k, hk⟩ := p.store st
  rw [hk]

theorem outgoing (p : c.Counted d) (st : StoreId) : (d.store st).outgoing = (c.store st).outgoing := by
  obtain ⟨k, hk⟩ := p.store st
  rw [hk]

theorem holder (p : c.Counted d) (z : Zone) : d.holder z = c.holder z := by
  unfold Cm8.holder
  rw [p.arbiter]

end Counted

variable (c : Cm8)

theorem counted_post (s : Option Slot) (t : Option Byte) (e : Event) : c.Counted (c.post s t e) where
  heads := by simp
  policy := by simp
  zonemap := by simp
  arbiter := by simp
  work := by simp
  clock := ⟨c.clock.glitch, by simp⟩
  port := ⟨c.port.rxOk, c.port.rxBad, c.port.rxOverrun, by simp⟩
  pair _ := by simp
  store st := ⟨(c.store st).counters, by simp⟩

/-- A write to a store leaves the records of the pairs. -/
theorem pair_onStore (st : StoreId) (f : LineStore → LineStore) (p : Fin 2) :
    ((c.onStore st f).pair p).setup = (c.pair p).setup ∧
      ((c.onStore st f).pair p).inForce = (c.pair p).inForce ∧
      ((c.onStore st f).pair p).relined = (c.pair p).relined := by
  obtain ⟨q, l⟩ := st
  fin_cases q <;> fin_cases p <;> cases l <;> exact ⟨rfl, rfl, rfl⟩

theorem counted_setLine (st : StoreId) (k : LineCounter) (v : BitVec 16) :
    c.Counted (c.setCounter (.line st k) v) where
  heads := heads_setCounter ..
  policy := policy_setCounter ..
  zonemap := zonemap_setCounter ..
  arbiter := arbiter_setCounter ..
  work := work_setCounter ..
  clock := ⟨c.clock.glitch, clock_onStore ..⟩
  port := ⟨c.port.rxOk, c.port.rxBad, c.port.rxOverrun, port_onStore ..⟩
  pair := c.pair_onStore st _
  store t := by
    by_cases same : t = st
    · subst same
      exact ⟨_, store_onStore_self ..⟩
    · exact ⟨(c.store t).counters, store_onStore_ne _ _ _ _ same⟩

theorem counted_setCounter (id : CounterId) (v : BitVec 16) : c.Counted (c.setCounter id v) := by
  cases id with
  | line st k => exact c.counted_setLine st k v
  | _ => exact ⟨rfl, rfl, rfl, rfl, rfl, ⟨_, rfl⟩, ⟨_, _, _, rfl⟩, fun _ => ⟨rfl, rfl, rfl⟩,
      fun _ => ⟨_, rfl⟩⟩

/-- An increment is a write of the counter, and a mark of R204 at most. -/
theorem bump_eq (id : CounterId) : c.bump id = c ∨ (∃ v, c.bump id = c.setCounter id v) ∨
    ∃ v full, c.bump id = (c.setCounter id v).post none none (.counter id full) := by
  unfold bump
  dsimp only
  split
  · split
    · exact .inr (.inl ⟨_, rfl⟩)
    · exact .inl rfl
  · split
    · exact .inr (.inr ⟨_, _, rfl⟩)
    · split
      · exact .inr (.inr ⟨_, _, rfl⟩)
      · exact .inr (.inl ⟨_, rfl⟩)

theorem counted_bump (id : CounterId) : c.Counted (c.bump id) := by
  rcases c.bump_eq id with h | ⟨v, h⟩ | ⟨v, full, h⟩
  · rw [h]
    exact .refl c
  · rw [h]
    exact c.counted_setCounter id v
  · rw [h]
    exact (c.counted_setCounter id v).trans (counted_post ..)

theorem counted_bumps (id : CounterId) (n : Nat) : c.Counted (c.bumps id n) := by
  induction n generalizing c with
  | zero => exact .refl c
  | succ n ih => exact (c.counted_bump id).trans (ih _)

/-- Counting on a line leaves port and clock as they are. -/
theorem port_bump_line (st : StoreId) (k : LineCounter) : (c.bump (.line st k)).port = c.port := by
  rcases c.bump_eq (.line st k) with h | ⟨v, h⟩ | ⟨v, full, h⟩
  · rw [h]
  · rw [h]
    exact port_onStore ..
  · rw [h, port_post]
    exact port_onStore ..

theorem port_bumps_line (st : StoreId) (k : LineCounter) (n : Nat) :
    (c.bumps (.line st k) n).port = c.port := by
  induction n generalizing c with
  | zero => rfl
  | succ n ih => exact (ih _).trans (c.port_bump_line st k)

theorem counter_bumps_ne {id other : CounterId} (n : other ≠ id) (k : Nat) :
    (c.bumps id k).counter other = c.counter other := by
  induction k generalizing c with
  | zero => rfl
  | succ k ih => exact (ih _).trans (counter_bump_ne _ n)

end Sys2Proof.Machine.Cm8
end

section
/-! PROOF. The head lines: capacity and budgets, LINE GET, the rows that count, and the Forward Filter (R133 to
R146, R150). -/

namespace Sys2Proof.Machine
namespace Cm8

variable (c : Cm8) (st : StoreId)

/-! ### The slots of a line (R2, R133) -/

/-- The store of a slot's line under a mode of its pair (R133). -/
theorem storeUnder_eq_iff (m : HeadMap) (mode : Fin 2 → PairMode) :
    m.storeUnder (mode m.pair) = st ↔ m.pair = st.pair ∧
      match mode st.pair with
      | .duplex => st.line = .a
      | .split => m.line = st.line := by
  have same (p : Fin 2) (l : Line) : (⟨p, l⟩ : StoreId) = st ↔ p = st.pair ∧ l = st.line := by
    obtain ⟨q, k⟩ := st
    rw [StoreId.mk.injEq]
  unfold HeadMap.storeUnder
  by_cases pair : m.pair = st.pair
  · rw [pair]
    cases mode st.pair with
    | duplex =>
      show (⟨st.pair, .a⟩ : StoreId) = st ↔ st.pair = st.pair ∧ st.line = .a
      rw [same, eq_comm (b := st.line)]
    | split =>
      show (⟨st.pair, m.line⟩ : StoreId) = st ↔ st.pair = st.pair ∧ m.line = st.line
      rw [same]
  · refine iff_of_false (fun h => pair ?_) fun h => pair h.1
    split at h <;> exact ((same _ _).1 h).1

theorem lineOf_eq_iff (i : Slot) : c.lineOf i = st ↔ (c.head i).map.pair = st.pair ∧
    match (c.pair st.pair).setup.mode with
    | .duplex => st.line = .a
    | .split => (c.head i).map.line = st.line :=
  storeUnder_eq_iff st (c.head i).map fun p => (c.setup p).mode

theorem mem_slotsOn (i : Slot) : i ∈ c.slotsOn st ↔ (c.head i).map.mask ≠ 0#6 ∧ c.lineOf i = st := by
  simp [slotsOn, Head.isConfigured]

/-- The configured slots of a pair that a line of it serves: all of them in DUPLEX. -/
def lineSlots (p : Fin 2) (l : Line) : List Slot := Slot.all.filter fun i =>
  decide ((c.head i).map.mask ≠ 0#6 ∧ (c.head i).map.pair = p ∧
    ((c.pair p).setup.mode = .split → (c.head i).map.line = l))

theorem slotsOn_eq {p : Fin 2} {l : Line} (line : (c.pair p).setup.mode = .duplex → l = .a) :
    c.slotsOn ⟨p, l⟩ = c.lineSlots p l := by
  unfold slotsOn lineSlots
  refine List.filter_congr fun i _ => ?_
  rw [Bool.eq_iff_iff, Bool.and_eq_true, decide_eq_true_iff, decide_eq_true_iff, lineOf_eq_iff,
    Head.isConfigured, decide_eq_true_iff]
  cases mode : (c.pair p).setup.mode with
  | duplex => simp [line mode]
  | split => simp

theorem lineSlots_duplex {p : Fin 2} (duplex : (c.pair p).setup.mode = .duplex) (l k : Line) :
    c.lineSlots p l = c.lineSlots p k := by
  unfold lineSlots
  refine List.filter_congr fun i _ => ?_
  simp [duplex]

theorem sumSlots_eq (f : HeadMap → Nat) :
    c.sumSlots st f = ((c.slotsOn st).map fun i => f (c.head i).map).sum := by
  have fold (l : List Slot) (n : Nat) : l.foldl (fun n i => n + f (c.head i).map) n =
      n + (l.map fun i => f (c.head i).map).sum := by
    induction l generalizing n with
    | nil => rfl
    | cons i l ih => rw [List.foldl_cons, ih, List.map_cons, List.sum_cons, Nat.add_assoc]
  exact (fold _ 0).trans (Nat.zero_add _)

/-- A sum of frame sizes over the slots that a line serves. -/
def total (p : Fin 2) (l : Line) (f : Nat → Nat) : Nat :=
  ((c.lineSlots p l).map fun i => f (c.head i).map.frameSize).sum

theorem sumSlots_total {p : Fin 2} {l : Line} (line : (c.pair p).setup.mode = .duplex → l = .a)
    (f : Nat → Nat) : c.sumSlots ⟨p, l⟩ (fun m => f m.frameSize) = c.total p l f := by
  rw [sumSlots_eq, slotsOn_eq c line]
  rfl

theorem total_add (p : Fin 2) (l : Line) (f g : Nat → Nat) :
    c.total p l (fun n => f n + g n) = c.total p l f + c.total p l g :=
  List.sum_map_add

/-! ### Capacity and budgets (R135 to R138) -/

/-- A line without configured slots fits, whatever it is asked for. -/
theorem lineFits_of_empty (h : c.slotsOn st = []) : c.lineFits st = true := by
  unfold lineFits
  split <;> simp [sumSlots_eq, h]

theorem mem_lines : st ∈ c.lines ↔ ((c.pair st.pair).setup.mode = .duplex → st.line = .a) := by
  obtain ⟨p, l⟩ := st
  have pairs (q : Fin 2) (mode : PairMode) : (⟨p, l⟩ : StoreId) ∈ pairLines q mode ↔
      p = q ∧ (mode = .duplex → l = .a) := by
    cases mode <;> cases l <;> simp [pairLines]
  unfold lines
  rw [List.mem_append, pairs, pairs]
  unfold setup
  fin_cases p <;> simp

theorem linesFit_iff : c.linesFit = true ↔ ∀ st ∈ c.lines, c.lineFits st = true := by
  unfold linesFit
  rw [List.all_eq_true]
  refine forall₂_congr fun st _ => ?_
  rw [Bool.or_eq_true, List.isEmpty_iff]
  exact or_iff_right_of_imp (c.lineFits_of_empty st)

theorem lineFits_duplex {p : Fin 2} (mode : (c.pair p).setup.mode = .duplex) :
    c.lineFits ⟨p, .a⟩ = true ↔ c.total p .a id ≤ c.capacity p := by
  rw [← sumSlots_total c (fun _ => rfl) id]
  unfold lineFits setup
  rw [mode]
  exact decide_eq_true_iff

theorem lineFits_split {p : Fin 2} {l : Line} (mode : (c.pair p).setup.mode = .split) :
    c.lineFits ⟨p, l⟩ = true ↔ c.total p l (fun n => 2 * n + 2) ≤ c.capacity p := by
  rw [← sumSlots_total c (fun h => by rw [mode] at h; cases h)]
  unfold lineFits setup
  rw [mode]
  exact decide_eq_true_iff

theorem reserve_duplex {p : Fin 2} {l : Line} (mode : (c.pair p).setup.mode = .duplex) :
    c.reserve ⟨p, l⟩ = 0 := by
  unfold reserve setup
  rw [mode]

theorem reserve_split {p : Fin 2} {l : Line} (mode : (c.pair p).setup.mode = .split) :
    c.reserve ⟨p, l⟩ = c.total p l (· + 2) := by
  rw [← sumSlots_total c fun h => by rw [mode] at h; cases h]
  unfold reserve setup
  rw [mode]

theorem sendBudget_duplex {p : Fin 2} {l : Line} (mode : (c.pair p).setup.mode = .duplex) :
    c.sendBudget ⟨p, l⟩ = c.capacity p := by
  unfold sendBudget
  rw [reserve_duplex c mode]
  exact Nat.sub_zero _

theorem sendBudget_split {p : Fin 2} {l : Line} (mode : (c.pair p).setup.mode = .split) :
    c.sendBudget ⟨p, l⟩ = c.capacity p - c.total p l (· + 2) := by
  unfold sendBudget
  rw [reserve_split c mode]

/-- A line that passes the capacity check has a send budget for all its SETPOINT frames (R138). -/
theorem total_le_sendBudget (fits : c.linesFit = true) (p : Fin 2) (l : Line) :
    c.total p l id ≤ c.sendBudget ⟨p, l⟩ := by
  rw [linesFit_iff] at fits
  cases mode : (c.pair p).setup.mode with
  | duplex =>
    have line := (lineFits_duplex c mode).1 (fits ⟨p, .a⟩ ((mem_lines ..).2 fun _ => rfl))
    have same : c.total p l id = c.total p .a id := by rw [total, lineSlots_duplex c mode l .a]; rfl
    rw [sendBudget_duplex c mode, same]
    exact line
  | split =>
    have line := (lineFits_split c mode).1
      (fits ⟨p, l⟩ ((mem_lines ..).2 fun h => by rw [mode] at h; cases h))
    have halves : c.total p l (fun n => 2 * n + 2) = c.total p l id + c.total p l (· + 2) := by
      rw [← total_add]
      exact congrArg (c.total p l) (funext fun n => by simp only [id]; omega)
    rw [sendBudget_split c mode]
    omega

/-! ### LINE GET (R150) -/

theorem setPair_setPair (p : Fin 2) (v w : Pair) : (c.setPair p v).setPair p w = c.setPair p w := by
  fin_cases p <;> rfl

theorem onStore_onStore (f g : LineStore → LineStore) :
    (c.onStore st f).onStore st g = c.onStore st fun s => g (f s) := by
  have again : (c.onStore st f).onStore st g = (c.onStore st f).setStore st (g (f (c.store st))) := by
    rw [onStore, store_onStore_self]
  rw [again, onStore, onStore]
  unfold setStore
  rw [setPair_setPair, pair_setPair_self]
  cases st.line <;> rfl

theorem onStore_both (p : Fin 2) (f g : LineStore → LineStore) :
    (c.onStore ⟨p, .a⟩ f).onStore ⟨p, .b⟩ g = c.setPair p { c.pair p with
      storeA := f (c.pair p).storeA, storeB := g (c.pair p).storeB } := by
  unfold onStore setStore store
  simp only [pair_setPair_self, setPair_setPair]
  rfl

/-- The six counters of a store set to 0 one after the other. -/
theorem clear_store : (storeCounters st).foldl (fun c id => c.setCounter id 0#16) c =
    c.onStore st fun s => { s with counters := .zero } := by
  have one (d : Cm8) (k : LineCounter) : d.setCounter (.line st k) 0#16 =
      d.onStore st fun s => { s with counters := s.counters.set k 0#16 } := rfl
  simp only [storeCounters, List.foldl_cons, List.foldl_nil, one, onStore_onStore]
  rfl

theorem clearOnRead_pair (p : Fin 2) : c.clearOnRead (storeCounters ⟨p, .a⟩ ++ storeCounters ⟨p, .b⟩) =
    if c.events.clearOnRead then
      c.setPair p { c.pair p with
        storeA := { (c.pair p).storeA with counters := .zero },
        storeB := { (c.pair p).storeB with counters := .zero } } else c := by
  unfold clearOnRead
  split
  · rw [List.foldl_append, clear_store, clear_store, onStore_both]
  · rfl

theorem lineGet_pair (p : Fin 2) : c.lineGet [BitVec.ofNat 8 p.val] =
    .ok (c.clearOnRead (storeCounters ⟨p, .a⟩ ++ storeCounters ⟨p, .b⟩),
      setupBytes (c.setup p) ++ enc2 (c.capacity p) ++ c.storeBytes ⟨p, .a⟩ ++ c.storeBytes ⟨p, .b⟩) := by
  unfold lineGet
  dsimp only
  rw [pairOf_ofNat]

theorem lineGet_range {b : Byte} (h : 2 ≤ b.toNat) : c.lineGet [b] = .error .range := by
  unfold lineGet
  dsimp only
  rw [pairOf_none h]

/-! ### The rows that count (R139, R144, R146) -/

/-- A line hears: in DUPLEX line A, in SPLIT a line that is not sending (R144). -/
theorem receives_iff : c.receives st = true ↔
    match (c.pair st.pair).inForce.mode with
    | .duplex => st.line = .a
    | .split => (c.store st).outgoing = [] := by
  unfold receives wireMode
  cases (c.pair st.pair).inForce.mode <;> simp

theorem lineBad_hears (h : c.receives st = true) : c.lineBad st = c.bump (.line st .bad) := if_pos h

theorem lineBad_deaf (h : ¬ c.receives st = true) : c.lineBad st = c := if_neg h

/-! ### The Forward Filter (R143) -/

/-- The six tests of R143. -/
def DirectPasses (i : Slot) (body : List Byte) : Prop :=
  (c.head i).link.state = .linked ∧ body.length ≤ 48 ∧
    (∃ cls rest, body = cls :: rest ∧ cls ≠ 0#8 ∧ cls.toNat ≤ 7 ∧
      (c.head i).forward.classes.getLsbD cls.toNat = true) ∧
    6 + body.length ≤ c.sendBudget (c.lineOf i) ∧ (c.store (c.lineOf i)).pass.length < 8

theorem directFails_iff (i : Slot) (body : List Byte) :
    c.directFails i body = false ↔ c.DirectPasses i body := by
  cases body with
  | nil =>
    refine iff_of_false (Bool.false_ne_true ·.symm) fun h => ?_
    obtain ⟨_, _, ⟨_, _, e, _⟩, _⟩ := h
    cases e
  | cons cls rest =>
    simp only [directFails, DirectPasses, Bool.or_eq_false_iff, Bool.not_eq_false', decide_eq_false_iff_not,
      Head.isLinked_iff]
    constructor
    · rintro ⟨⟨⟨⟨⟨⟨linked, size⟩, named⟩, low⟩, forwarded⟩, budget⟩, room⟩
      exact ⟨linked, Nat.not_lt.1 size, ⟨cls, rest, rfl, named, Nat.le_of_lt_succ (Nat.not_le.1 low),
        forwarded⟩, Nat.not_lt.1 budget, Nat.not_le.1 room⟩
    · rintro ⟨linked, size, ⟨_, _, e, named, low, forwarded⟩, budget, room⟩
      cases e
      exact ⟨⟨⟨⟨⟨⟨linked, Nat.not_lt.2 size⟩, named⟩, Nat.not_le.2 (Nat.lt_succ_of_le low)⟩, forwarded⟩,
        Nat.not_lt.2 budget⟩, Nat.not_le.2 room⟩

/-- Counting decides no test of the filter. -/
theorem Counted.directPasses {c d : Cm8} (p : c.Counted d) (i : Slot) (body : List Byte) :
    d.DirectPasses i body ↔ c.DirectPasses i body := by
  unfold DirectPasses
  rw [p.head, p.lineOf, p.sendBudget, p.pass]

end Cm8
end Sys2Proof.Machine

namespace Sys2Proof

open Sys2Proof.Machine Sys2Proof.Machine.Cm8

/-- Settles O33. -/
theorem lineGetReads : Obligations.LineGetReads := by
  unfold Obligations.LineGetReads
  refine ⟨?_, ?_⟩
  · intro s tag p ready c r counters store cleared
    refine ⟨?_, fun b h => s.verdict_refuses .lineGet tag _ (fun c => c.lineGet _) ready
      (lineGet_range _ h)⟩
    refine (s.verdict_accepts .lineGet tag _ (fun c => c.lineGet _) ready (lineGet_pair c p)).trans ?_
    rw [clearOnRead_pair]
    have bytes (l : Line) : c.storeBytes ⟨p, l⟩ = store l := by
      simp only [storeBytes, store, Bool.and_eq_true, decide_eq_true_iff]
      rfl
    rw [bytes, bytes]
    rfl
  · intro c size cap slots total'
    refine ⟨fun _ => rfl, ?_, fun p l => ⟨fun mode => ⟨reserve_duplex c mode, sendBudget_duplex c mode⟩,
      fun mode => ⟨reserve_split c mode, sendBudget_split c mode⟩,
      fun fits => total_le_sendBudget c fits p l⟩⟩
    rw [linesFit_iff]
    constructor
    · intro fits p
      split
      · rename_i mode
        exact (lineFits_duplex c mode).1 (fits ⟨p, .a⟩ ((mem_lines ..).2 fun _ => rfl))
      · rename_i mode
        exact fun l => (lineFits_split c mode).1
          (fits ⟨p, l⟩ ((mem_lines ..).2 fun h => by rw [mode] at h; cases h))
    · rintro all ⟨p, l⟩ line
      have pair := all p
      split at pair
      · rename_i mode
        obtain rfl : l = .a := (mem_lines ..).1 line mode
        exact (lineFits_duplex c mode).2 pair
      · rename_i mode
        exact (lineFits_split c mode).2 (pair l)

/-- Settles O34. -/
theorem lineRowsCount : Obligations.LineRowsCount := by
  unfold Obligations.LineRowsCount
  refine ⟨fun s st idle => ⟨fun f rest going => ?_, fun still => ?_⟩, fun s st why idle => ?_⟩
  · refine congrArg Host.Outcome.next ((s.row_of_nil _ idle).trans ?_)
    unfold frameSent
    rw [going]
    rfl
  · refine congrArg Host.Outcome.next ((s.row_of_nil _ idle).trans ?_)
    unfold frameSent
    rw [still]
  · intro hears
    have heard : s.part.receives st = true ↔ hears := receives_iff ..
    have row {d : Cm8} (h : s.part.lineBad st = d) :
        exec (.lineCharacterGapTimeout st) s = .next { s with part := d.chooseIdle } ∧
          exec (.lineBadFrame st why) s = .next { s with part := d.chooseIdle } := by
      have done := congrArg (Host.Outcome.next (φ := Fault) (ρ := Refusal))
        (s.row_of_nil (fun c => c.lineBad st) idle)
      rw [h] at done
      exact ⟨done, done⟩
    exact ⟨fun h => row (lineBad_hears _ _ (heard.2 h)),
      fun h => row (lineBad_deaf _ _ fun k => h (heard.1 k))⟩

/-- Settles O35. -/
theorem directFrameFiltered : Obligations.DirectFrameFiltered := by
  unfold Obligations.DirectFrameFiltered
  intro s i body idle c h st passes
  have counted := s.part.counted_bump .rxOk
  have line : c.lineOf i = st := counted.lineOf i
  have judged : c.directFails i body = false ↔ passes :=
    (directFails_iff c i body).trans (counted.directPasses i body)
  have row : exec (.directFrame i body) s =
      .next { s with part := (c.filterDirect i body).chooseIdle } :=
    congrArg Host.Outcome.next (s.row_of_nil _ idle)
  rw [row]
  unfold filterDirect
  dsimp only
  rw [line]
  refine ⟨fun pass => ?_, fun fail => ?_⟩
  · rw [if_neg (boolFalse_ne (judged.2 pass))]
    rfl
  · rw [if_pos (Bool.of_not_eq_false fun h => fail (judged.1 h))]

end Sys2Proof
end

section
/-! PROOF. LINE SET: its checks in order, and what it makes of the pair and of its slots (R147, R148, R151,
R162). -/

namespace Sys2Proof.Machine
namespace Cm8

variable (c : Cm8) (p : Fin 2) (r : LineSetup)

/-! ### Counting on one pair -/

theorem pair_setStore_ne {st : StoreId} {q : Fin 2} (n : q ≠ st.pair) (v : LineStore) :
    (c.setStore st v).pair q = c.pair q := by
  unfold setStore
  rw [pair_setPair, if_neg n]

theorem pair_bump_line_ne {st : StoreId} {q : Fin 2} (n : q ≠ st.pair) (k : LineCounter) :
    (c.bump (.line st k)).pair q = c.pair q := by
  rcases c.bump_eq (.line st k) with h | ⟨v, h⟩ | ⟨v, full, h⟩
  · rw [h]
  · rw [h]
    exact pair_setStore_ne c n _
  · rw [h, pair_post]
    exact pair_setStore_ne c n _

theorem pair_bumps_line_ne {st : StoreId} {q : Fin 2} (n : q ≠ st.pair) (k : LineCounter) (m : Nat) :
    (c.bumps (.line st k) m).pair q = c.pair q := by
  induction m generalizing c with
  | zero => rfl
  | succ m ih => exact (ih _).trans (c.pair_bump_line_ne n k)

theorem store_bump_line_ne {st t : StoreId} (n : t ≠ st) (k : LineCounter) :
    (c.bump (.line st k)).store t = c.store t := by
  rcases c.bump_eq (.line st k) with h | ⟨v, h⟩ | ⟨v, full, h⟩
  · rw [h]
  · rw [h]
    exact store_onStore_ne _ _ _ _ n
  · rw [h, store_post]
    exact store_onStore_ne _ _ _ _ n

theorem store_bumps_line_ne {st t : StoreId} (n : t ≠ st) (k : LineCounter) (m : Nat) :
    (c.bumps (.line st k) m).store t = c.store t := by
  induction m generalizing c with
  | zero => rfl
  | succ m ih => exact (ih _).trans (c.store_bump_line_ne n k)

/-- A store emptied of its PASS frames. -/
def emptied (st : StoreId) : Cm8 := c.onStore st fun s => { s with pass := [] }

/-- Counting on line A of a pair and emptying line B come to the same in either order. -/
theorem emptied_bump (k : LineCounter) :
    (c.bump (.line ⟨p, .a⟩ k)).emptied ⟨p, .b⟩ = (c.emptied ⟨p, .b⟩).bump (.line ⟨p, .a⟩ k) := by
  have set (v : BitVec 16) : (c.setCounter (.line ⟨p, .a⟩ k) v).emptied ⟨p, .b⟩ =
      (c.emptied ⟨p, .b⟩).setCounter (.line ⟨p, .a⟩ k) v := by
    fin_cases p <;> rfl
  have post (d : Cm8) (e : Event) : (d.post none none e).emptied ⟨p, .b⟩ =
      (d.emptied ⟨p, .b⟩).post none none e := by
    have enabled : (d.emptied ⟨p, .b⟩).events = d.events := events_onStore ..
    have frame : (d.emptied ⟨p, .b⟩).frame = d.frame := congrArg Timebase.frame (clock_onStore ..)
    unfold post
    rw [enabled, frame]
    split
    · fin_cases p <;> rfl
    · rfl
  have value : (c.emptied ⟨p, .b⟩).counter (.line ⟨p, .a⟩ k) = c.counter (.line ⟨p, .a⟩ k) :=
    congrArg (fun s : LineStore => s.counters.get k) (store_onStore_ne _ _ _ _ (by simp))
  have mode : (c.emptied ⟨p, .b⟩).events = c.events := events_onStore ..
  unfold bump
  dsimp only
  rw [value, mode]
  split
  · split
    · exact set _
    · rfl
  · split
    · rw [post, set]
    · split
      · rw [post, set]
      · exact set _

theorem emptied_bumps (k : LineCounter) (n : Nat) :
    (c.bumps (.line ⟨p, .a⟩ k) n).emptied ⟨p, .b⟩ = (c.emptied ⟨p, .b⟩).bumps (.line ⟨p, .a⟩ k) n := by
  induction n generalizing c with
  | zero => rfl
  | succ n ih =>
    show ((c.bump _).bumps _ n).emptied _ = ((c.emptied _).bump _).bumps _ n
    rw [ih, emptied_bump]

/-! ### The fields (R147) -/

theorem pairModeOf_code (m : PairMode) : pairModeOf m.code = some m := by cases m <;> rfl

theorem pairModeOf_none {b : Byte} (h : 2 ≤ b.toNat) : pairModeOf b = none := by
  obtain ⟨h0, h1⟩ := toNat_ge_two h
  rw [pairModeOf, if_neg h0, if_neg h1]

theorem readSetup_fields {d1 d0 l : Byte} (divisor : be2 d1 d0 = r.divisor)
    (loss : l.toNat = r.lossTicks) (small : r.divisor ≤ 4095) (low : 2 ≤ r.lossTicks)
    (high : r.lossTicks ≤ 255) : readSetup r.mode.code d1 d0 r.parity.code
      (if r.twoStop then 2#8 else 1#8) (if r.inverted then 1#8 else 0#8) l = some r := by
  obtain ⟨mode, n, parity, twoStop, inverted, ticks⟩ := r
  dsimp only at divisor loss small low high ⊢
  have fits : (decide (n ≤ 4095) && within 1 2 (if twoStop then 2#8 else 1#8 : Byte).toNat &&
      within 2 255 ticks) = true := by
    rw [Bool.and_eq_true, Bool.and_eq_true, decide_eq_true_iff, within_iff (lo := 2)]
    exact ⟨⟨small, by cases twoStop <;> rfl⟩, low, high⟩
  have invert : switchOf (if inverted then 1#8 else 0#8) = some inverted := by cases inverted <;> rfl
  unfold readSetup
  rw [pairModeOf_code, parityOf_code, invert, divisor, loss]
  dsimp only
  rw [if_pos fits]
  cases twoStop <;> rfl

theorem lineSet_fields {d1 d0 l : Byte} (divisor : be2 d1 d0 = r.divisor)
    (loss : l.toNat = r.lossTicks) (small : r.divisor ≤ 4095) (low : 2 ≤ r.lossTicks)
    (high : r.lossTicks ≤ 255) : c.lineSet [BitVec.ofNat 8 p.val, r.mode.code, d1, d0, r.parity.code,
      if r.twoStop then 2#8 else 1#8, if r.inverted then 1#8 else 0#8, l] = c.setLine p r := by
  unfold lineSet
  dsimp only
  rw [pairOf_ofNat, readSetup_fields r divisor loss small low high]

theorem lineSet_range {b m d1 d0 q k v l : Byte} (h : 2 ≤ b.toNat ∨ 2 ≤ m.toNat ∨ 4095 < be2 d1 d0 ∨
      3 ≤ q.toNat ∨ k = 0#8 ∨ 3 ≤ k.toNat ∨ 2 ≤ v.toNat ∨ l.toNat < 2) :
    c.lineSet [b, m, d1, d0, q, k, v, l] = .error .range := by
  have unread : pairOf b = none ∨ readSetup m d1 d0 q k v l = none := by
    by_cases pair : 2 ≤ b.toNat
    · exact .inl (pairOf_none pair)
    · refine .inr ?_
      unfold readSetup
      split
      · rename_i mode parity inverted hm hq hv
        refine if_neg fun fits => ?_
        rw [Bool.and_eq_true, Bool.and_eq_true, decide_eq_true_iff, within_iff, within_iff] at fits
        obtain ⟨⟨small, stopLow, stopHigh⟩, low, high⟩ := fits
        rcases h with e | e | e | e | rfl | e | e | e
        · exact pair e
        · rw [pairModeOf_none e] at hm
          cases hm
        · omega
        · rw [parityOf_none e] at hq
          cases hq
        · exact absurd stopLow (by decide)
        · omega
        · rw [switchOf_none e] at hv
          cases hv
        · omega
      · rfl
  unfold lineSet
  dsimp only
  split
  · rename_i pair setup hp hs
    rcases unread with e | e
    · rw [e] at hp
      cases hp
    · rw [e] at hs
      cases hs
  · rfl

/-! ### The checks on the pair (R147) -/

/-- A configured slot of the pair. -/
def OfPair (i : Slot) : Prop := (c.head i).isConfigured = true ∧ (c.head i).map.pair = p

theorem mem_slotsOfPair (i : Slot) : i ∈ c.slotsOfPair p ↔ c.OfPair p i := by
  simp [slotsOfPair, OfPair]

theorem nodup_slotsOfPair : (c.slotsOfPair p).Nodup := Slot.nodup_all.filter _

/-- A slot of the pair is LINKED and its head is not HALTED. -/
def LineBusy : Prop := ∃ i, c.OfPair p i ∧ RemapBusy (c.head i)

theorem lineBusy_iff : ((c.slotsOfPair p).any fun i => (c.head i).isLinked &&
    !(c.head i).activity.isHalted) = true ↔ c.LineBusy p := by
  rw [List.any_eq_true]
  exact exists_congr fun i => and_congr (c.mem_slotsOfPair p i) (remapBusy_iff _)

/-- Two slots come to share a line and an address under the new record. -/
def LineShared : Prop := ∃ i, c.OfPair p i ∧ (c.writeSetup p r).addressTaken i = true

theorem lineShared_iff : (c.slotsOfPair p).any (c.writeSetup p r).addressTaken = true ↔
    c.LineShared p r := by
  rw [List.any_eq_true]
  exact exists_congr fun i => and_congr (c.mem_slotsOfPair p i) Iff.rfl

section

variable {c p r}

theorem setLine_busy (busy : c.LineBusy p) : c.setLine p r = .error .busy :=
  if_pos ((lineBusy_iff ..).2 busy)

theorem setLine_range (free : ¬ c.LineBusy p) (shared : c.LineShared p r) :
    c.setLine p r = .error .range :=
  (if_neg fun h => free ((lineBusy_iff ..).1 h)).trans (if_pos ((lineShared_iff ..).2 shared))

theorem setLine_capacity (free : ¬ c.LineBusy p) (apart : ¬ c.LineShared p r)
    (full : (c.writeSetup p r).linesFit = false) : c.setLine p r = .error .capacity :=
  (if_neg fun h => free ((lineBusy_iff ..).1 h)).trans
    ((if_neg fun h => apart ((lineShared_iff ..).1 h)).trans (if_pos (by rw [full]; rfl)))

theorem setLine_ok (free : ¬ c.LineBusy p) (apart : ¬ c.LineShared p r)
    (fits : (c.writeSetup p r).linesFit = true) :
    c.setLine p r = .ok (c.relineSlots p r, enc2 ((c.writeSetup p r).capacity p)) :=
  (if_neg fun h => free ((lineBusy_iff ..).1 h)).trans
    ((if_neg fun h => apart ((lineShared_iff ..).1 h)).trans (if_neg (by rw [fits]; decide)))

end

theorem capacity_writeSetup : (c.writeSetup p r).capacity p = r.capacity c.clock.rate := by
  unfold writeSetup capacity setup
  rw [pair_setPair_self, clock_setPair]

/-! ### The slots of the pair (R148, R151, R162) -/

/-- A slot's record after LINE SET. -/
def relinedHead (h : Head) : Head := { h.dropRanges with link := h.link.restarted }

/-- The record of a slot that was LINKED. -/
def unlinkRecords (i : Slot) : List (Option Slot × Option Byte × Event) :=
  if (c.head i).link.state = .linked then [(some i, none, .headUnlinked .line)] else []

theorem turned_unlinkForLine (i : Slot) :
    c.Turned (c.unlinkForLine i) i (relinedHead (c.head i)) 0#16 (c.unlinkRecords i) := by
  have written := turned_onHead c i relinedHead
  by_cases linked : (c.head i).link.state = .linked
  · have told := written.trans (turned_post _ i (some i) none (.headUnlinked .line))
    unfold unlinkForLine unlinkRecords
    dsimp only
    rw [if_pos ((Head.isLinked_iff _).2 linked), if_pos linked]
    rw [written.head] at told
    exact told
  · unfold unlinkForLine unlinkRecords
    dsimp only
    rw [if_neg fun h => linked ((Head.isLinked_iff _).1 h), if_neg linked]
    exact written

/-- What restarting a list of slots makes: their records one after the other, each slot's record by itself,
and nothing else. -/
structure Unlinked (d : Cm8) (l : List Slot) : Prop where
  events : d.events = c.events.told c.clock.frame (l.flatMap c.unlinkRecords)
  heads : ∀ i, d.head i = if i ∈ l then relinedHead (c.head i) else c.head i
  holders : ∀ z, d.holder z = c.holder z
  arbiter : d.arbiter = c.arbiter
  pairs : ∀ q : Fin 2, d.pair q = c.pair q
  rest : d.clock = c.clock ∧ d.port = c.port ∧ d.policy = c.policy ∧ d.zonemap = c.zonemap

theorem arbiter_unlinkForLine (i : Slot) : (c.unlinkForLine i).arbiter = c.arbiter := by
  unfold unlinkForLine
  dsimp only
  split
  · exact arbiter_post ..
  · rfl

theorem unlinked_foldl (l : List Slot) (distinct : l.Nodup) : c.Unlinked (l.foldl unlinkForLine c) l := by
  induction l generalizing c with
  | nil =>
    exact ⟨rfl, fun i => (if_neg (List.not_mem_nil)).symm, fun _ => rfl, rfl, fun _ => rfl,
      rfl, rfl, rfl, rfl⟩
  | cons i l ih =>
    obtain ⟨new, distinct'⟩ := List.nodup_cons.1 distinct
    have first := turned_unlinkForLine c i
    have tail := ih (c.unlinkForLine i) distinct'
    have same : ∀ j ∈ l, (c.unlinkForLine i).head j = c.head j := fun j hj =>
      first.others j fun e => new (e ▸ hj)
    have records : l.flatMap (c.unlinkForLine i).unlinkRecords = l.flatMap c.unlinkRecords :=
      List.flatMap_congr fun j hj => by rw [unlinkRecords, same j hj]; rfl
    rw [List.foldl_cons]
    refine ⟨?_, fun j => ?_, fun z => (tail.holders z).trans (first.holder_eq z),
      tail.arbiter.trans (arbiter_unlinkForLine ..), fun q => (tail.pairs q).trans (first.pairs q),
      tail.rest.1.trans first.rest.1, tail.rest.2.1.trans first.rest.2.1,
      tail.rest.2.2.1.trans first.rest.2.2.1, tail.rest.2.2.2.trans first.rest.2.2.2.1⟩
    · rw [tail.events, first.events, first.rest.1, records, List.flatMap_cons, EventUnit.told_append]
    · rw [tail.heads]
      by_cases e : j = i
      · subst e
        rw [if_neg new, first.head, if_pos (List.mem_cons_self ..)]
      · rw [first.others j e]
        simp [e]

theorem flatMap_unlinkRecords (l : List Slot) : l.flatMap c.unlinkRecords =
    (l.filter fun i => decide ((c.head i).link.state = .linked)).map fun i =>
      (some i, none, .headUnlinked .line) := by
  induction l with
  | nil => rfl
  | cons i l ih =>
    rw [List.flatMap_cons, ih, unlinkRecords]
    by_cases linked : (c.head i).link.state = .linked <;> simp [linked]

/-- The part after LINE SET, before its PASS queues are emptied. -/
def relinedTold : Cm8 := (c.slotsOfPair p).foldl unlinkForLine (c.writeSetup p r)

theorem unlinked_relinedTold : (c.writeSetup p r).Unlinked (c.relinedTold p r) (c.slotsOfPair p) :=
  unlinked_foldl _ _ (c.nodup_slotsOfPair p)

/-- The part with both PASS queues emptied, their frames not yet counted. -/
def relinedEmptied : Cm8 := ((c.relinedTold p r).emptied ⟨p, .a⟩).emptied ⟨p, .b⟩

theorem store_writeSetup (l : Line) : (c.writeSetup p r).store ⟨p, l⟩ = c.store ⟨p, l⟩ := by
  unfold writeSetup store
  rw [pair_setPair_self]
  cases l <;> rfl

theorem store_relinedTold (l : Line) : (c.relinedTold p r).store ⟨p, l⟩ = c.store ⟨p, l⟩ := by
  have told := (c.unlinked_relinedTold p r).pairs p
  exact (congrArg (fun v : Pair => v.store l) told).trans (store_writeSetup ..)

theorem store_relinedEmptied (l : Line) :
    (c.relinedEmptied p r).store ⟨p, l⟩ = { c.store ⟨p, l⟩ with pass := [] } := by
  unfold relinedEmptied emptied
  cases l with
  | a => rw [store_onStore_ne _ _ _ _ (by simp), store_onStore_self, store_relinedTold]
  | b => rw [store_onStore_self, store_onStore_ne _ _ _ _ (by simp), store_relinedTold]

/-- LINE SET empties both PASS queues and then counts what was in them (R148). -/
theorem relineSlots_eq : c.relineSlots p r =
    ((c.relinedEmptied p r).bumps (.line ⟨p, .a⟩ .passDrop) (c.store ⟨p, .a⟩).pass.length).bumps
      (.line ⟨p, .b⟩ .passDrop) (c.store ⟨p, .b⟩).pass.length := by
  have first : (c.relinedTold p r).dropPass ⟨p, .a⟩ = ((c.relinedTold p r).emptied ⟨p, .a⟩).bumps
      (.line ⟨p, .a⟩ .passDrop) (c.store ⟨p, .a⟩).pass.length := by
    rw [dropPass, store_relinedTold]
    rfl
  have left : ((c.relinedTold p r).dropPass ⟨p, .a⟩).store ⟨p, .b⟩ = c.store ⟨p, .b⟩ := by
    rw [first, store_bumps_line_ne _ (by simp), emptied, store_onStore_ne _ _ _ _ (by simp),
      store_relinedTold]
  show ((c.relinedTold p r).dropPass ⟨p, .a⟩).dropPass ⟨p, .b⟩ = _
  rw [dropPass, left]
  refine congrArg (fun d : Cm8 => d.bumps (.line ⟨p, .b⟩ .passDrop) (c.store ⟨p, .b⟩).pass.length) ?_
  rw [first]
  exact emptied_bumps ..

theorem counted_relineSlots : (c.relinedEmptied p r).Counted (c.relineSlots p r) :=
  relineSlots_eq c p r ▸ (counted_bumps ..).trans (counted_bumps ..)

theorem pair_relinedTold : (c.relinedTold p r).pair p = { c.pair p with setup := r, relined := true } := by
  rw [(c.unlinked_relinedTold p r).pairs]
  exact pair_setPair_self ..

theorem pair_relineSlots : ((c.relineSlots p r).pair p).setup = r ∧
    ((c.relineSlots p r).pair p).relined = true ∧
    ((c.relineSlots p r).pair p).inForce = (c.pair p).inForce := by
  have counted := (c.counted_relineSlots p r).pair p
  have second := ((c.relinedTold p r).emptied ⟨p, .a⟩).pair_onStore ⟨p, .b⟩ (fun s => { s with pass := [] }) p
  have first := (c.relinedTold p r).pair_onStore ⟨p, .a⟩ (fun s => { s with pass := [] }) p
  have told := c.pair_relinedTold p r
  refine ⟨?_, ?_, ?_⟩
  · exact counted.1.trans (second.1.trans (first.1.trans (by rw [told])))
  · exact counted.2.2.trans (second.2.2.trans (first.2.2.trans (by rw [told])))
  · exact counted.2.1.trans (second.2.1.trans (first.2.1.trans (by rw [told])))

theorem pair_relineSlots_ne {q : Fin 2} (n : q ≠ p) : (c.relineSlots p r).pair q = c.pair q := by
  rw [relineSlots_eq, pair_bumps_line_ne _ n, pair_bumps_line_ne _ n]
  refine (pair_setStore_ne (st := ⟨p, .b⟩) _ n _).trans ((pair_setStore_ne (st := ⟨p, .a⟩) _ n _).trans ?_)
  rw [(c.unlinked_relinedTold p r).pairs, writeSetup, pair_setPair, if_neg n]

theorem store_relineSlots (l : Line) : ∃ k, (c.relineSlots p r).store ⟨p, l⟩ =
    { c.store ⟨p, l⟩ with pass := [], counters := k } := by
  obtain ⟨k, hk⟩ := (c.counted_relineSlots p r).store ⟨p, l⟩
  exact ⟨k, by rw [hk, store_relinedEmptied]⟩

/-- Emptying the queues counts PASS_DROP alone. -/
theorem sent_relineSlots (l : Line) : ((c.relineSlots p r).store ⟨p, l⟩).counters.sent =
    (c.store ⟨p, l⟩).counters.sent := by
  have kept : (c.relineSlots p r).counter (.line ⟨p, l⟩ .sent) =
      (c.relinedEmptied p r).counter (.line ⟨p, l⟩ .sent) := by
    rw [relineSlots_eq, counter_bumps_ne _ (by simp), counter_bumps_ne _ (by simp)]
  refine kept.trans ?_
  show ((c.relinedEmptied p r).store ⟨p, l⟩).counters.sent = _
  rw [store_relinedEmptied]

theorem events_relinedEmptied : (c.relinedEmptied p r).events = c.events.told c.clock.frame
    ((Slot.all.filter fun i => decide ((c.head i).map.mask ≠ 0#6 ∧ (c.head i).map.pair = p ∧
      (c.head i).link.state = .linked)).map fun i => (some i, none, .headUnlinked .line)) := by
  have told := (c.unlinked_relinedTold p r).events
  have heads : (c.writeSetup p r).unlinkRecords = c.unlinkRecords := by
    funext i
    rw [unlinkRecords, writeSetup, head_setPair]
    rfl
  have clock : (c.writeSetup p r).clock = c.clock := clock_setPair ..
  have events : (c.writeSetup p r).events = c.events := events_setPair ..
  have slots : (c.slotsOfPair p).filter (fun i => decide ((c.head i).link.state = .linked)) =
      Slot.all.filter fun i => decide ((c.head i).map.mask ≠ 0#6 ∧ (c.head i).map.pair = p ∧
        (c.head i).link.state = .linked) := by
    unfold slotsOfPair
    rw [List.filter_filter]
    refine List.filter_congr fun i _ => ?_
    rw [Bool.eq_iff_iff]
    simp only [Bool.and_eq_true, decide_eq_true_iff, Head.isConfigured]
    tauto
  unfold relinedEmptied emptied
  rw [events_onStore, events_onStore, told, heads, clock, events, flatMap_unlinkRecords, slots]

theorem head_relineSlots (i : Slot) : (c.relineSlots p r).head i =
    if i ∈ c.slotsOfPair p then relinedHead (c.head i) else c.head i := by
  rw [(c.counted_relineSlots p r).head, relinedEmptied, emptied, emptied, head_onStore, head_onStore,
    (c.unlinked_relinedTold p r).heads, writeSetup, head_setPair]

theorem port_relineSlots : (c.relineSlots p r).port = c.port := by
  rw [relineSlots_eq, port_bumps_line, port_bumps_line, relinedEmptied, emptied, emptied, port_onStore,
    port_onStore, (c.unlinked_relinedTold p r).rest.2.1, writeSetup, port_setPair]

theorem arbiter_relineSlots : (c.relineSlots p r).arbiter = c.arbiter := by
  rw [(c.counted_relineSlots p r).arbiter, relinedEmptied, emptied, emptied, arbiter_onStore,
    arbiter_onStore, (c.unlinked_relinedTold p r).arbiter, writeSetup, arbiter_setPair]

theorem zonemap_relineSlots : (c.relineSlots p r).zonemap = c.zonemap := by
  rw [(c.counted_relineSlots p r).zonemap, relinedEmptied, emptied, emptied, zonemap_onStore,
    zonemap_onStore, (c.unlinked_relinedTold p r).rest.2.2.2, writeSetup, zonemap_setPair]

theorem policy_relineSlots : (c.relineSlots p r).policy = c.policy := by
  rw [(c.counted_relineSlots p r).policy, relinedEmptied, emptied, emptied, policy_onStore,
    policy_onStore, (c.unlinked_relinedTold p r).rest.2.2.1, writeSetup, policy_setPair]

end Cm8
end Sys2Proof.Machine

namespace Sys2Proof

open Sys2Proof.Machine Sys2Proof.Machine.Cm8

/-- Settles O32. -/
theorem lineSetWritesSetup : Obligations.LineSetWritesSetup := by
  unfold Obligations.LineSetWritesSetup
  refine ⟨?_, ?_, ?_, ?_⟩
  · intro s tag d1 d0 l p mode parity twoStop inverted ready small low r c placed slots fits
    have ticks := l.isLt
    refine s.verdict_accepts .lineSet tag _ (fun c => c.lineSet _) ready ?_
    refine (lineSet_fields c p r rfl rfl small low (by show l.toNat ≤ 255; omega)).trans ?_
    refine (setLine_ok ?_ ?_ fits).trans ?_
    · rintro ⟨i, ⟨configured, pair⟩, linked, running⟩
      obtain ⟨w, halted⟩ := (slots i configured pair).1 linked
      exact running w halted
    · rintro ⟨i, ⟨configured, pair⟩, taken⟩
      obtain ⟨j, n, mask, line, address⟩ := (addressTaken_iff ..).1 taken
      rw [writeSetup, head_setPair, head_setPair] at address
      rw [writeSetup, head_setPair] at mask
      exact (slots i configured pair).2 j n (decide_eq_true mask) line address
    · rw [capacity_writeSetup]
      rfl
  · intro c p r t
    obtain ⟨setup, relined, inForce⟩ := c.pair_relineSlots p r
    refine ⟨setup, relined, inForce, fun q n => c.pair_relineSlots_ne p r n, fun l => ?_, ?_,
      fun d id n => ⟨rfl, rfl⟩, fun i => ?_, fun z => ?_, clock_relineSlots c p r,
      c.arbiter_relineSlots p r, c.zonemap_relineSlots p r, c.policy_relineSlots p r,
      c.port_relineSlots p r⟩
    · obtain ⟨k, store⟩ := c.store_relineSlots p r l
      rw [show t.store ⟨p, l⟩ = _ from store]
      exact ⟨rfl, rfl, rfl, store ▸ c.sent_relineSlots p r l⟩
    · exact ⟨c.relinedEmptied p r, c.relineSlots_eq p r, c.events_relinedEmptied p r,
        fun l => by rw [store_relinedEmptied]⟩
    · have head := c.head_relineSlots p r i
      have member : (c.head i).isConfigured = true ∧ (c.head i).map.pair = p ↔ i ∈ c.slotsOfPair p :=
        (c.mem_slotsOfPair p i).symm
      split
      · rename_i mine
        rw [if_pos (member.1 mine)] at head
        have entry (a : Axis) : (relinedHead (c.head i)).axes.get a =
            { (c.head i).axes.get a with headRange := none } := PerAxis.get_gen ..
        rw [show t.head i = _ from head]
        exact ⟨rfl, entry, rfl, rfl, rfl, rfl, rfl, rfl, rfl, rfl, rfl, rfl, rfl, rfl, rfl⟩
      · rename_i other
        rw [if_neg fun h => other (member.2 h)] at head
        exact head
    · show t.arbiter.holders[z] = c.arbiter.holders[z]
      rw [show t.arbiter = c.arbiter from c.arbiter_relineSlots p r]
  · intro s tag b m d1 d0 q k v l ready wrong
    exact s.verdict_refuses .lineSet tag _ (fun c => c.lineSet _) ready (lineSet_range _ wrong)
  · intro s tag p r ready small low high c placed refused mine busy shared
    have fields := lineSet_fields c p r (be2_enc2 (n := r.divisor) (by omega))
      (toNat_ofNat_small (by omega)) small low high
    have refuse {why : Reason} (h : c.setLine p r = .error why) : refused why :=
      s.verdict_refuses .lineSet tag _ (fun c => c.lineSet _) ready (fields.trans h)
    have shared_iff : shared ↔ c.LineShared p r := by
      constructor
      · rintro ⟨i, j, mi, mj, n, line, address⟩
        refine ⟨i, mi, (addressTaken_iff ..).2 ⟨j, fun e => n e.symm, ?_, line.symm, ?_⟩⟩
        · rw [writeSetup, head_setPair]
          exact of_decide_eq_true mj.1
        · rw [writeSetup, head_setPair, head_setPair]
          exact address.symm
      · rintro ⟨i, mi, taken⟩
        obtain ⟨j, n, mask, line, address⟩ := (addressTaken_iff ..).1 taken
        have pair := ((lineOf_eq_iff ..).1 line).1
        have pair' := ((lineOf_eq_iff (c.writeSetup p r) _ i).1 rfl).1
        rw [← pair'] at pair
        rw [writeSetup, head_setPair, head_setPair] at address pair
        rw [writeSetup, head_setPair] at mask
        exact ⟨i, j, mi, ⟨decide_eq_true mask, pair.trans mi.2⟩, fun e => n e.symm, line.symm,
          address.symm⟩
    exact ⟨fun b => refuse (setLine_busy b), fun b h => refuse (setLine_range b (shared_iff.1 h)),
      fun b h full => refuse (setLine_capacity b (fun k => h (shared_iff.2 k)) full)⟩

end Sys2Proof
end

section
/-! PROOF. The event queue, the frames of the port, the transmit arbiter and the layouts of upstream frames
(R176 to R183, R190 to R192, R200 to R202). -/

namespace Sys2Proof.Machine

/-! ### Slots in order -/

theorem slots_split (n : Slot) : Slot.all = Slot.all.take n.val ++ n :: Slot.all.drop (n.val + 1) := by
  revert n
  decide

theorem mem_take_slots (n m : Slot) : m ∈ Slot.all.take n.val ↔ m < n := by
  revert n m
  decide

/-! ### The event queue (R200 to R202) -/

namespace EventUnit

variable (u : EventUnit) (r : EventRecord)

theorem countLoss_eq (n : Nat) : countLoss n = if n < 255 then n + 1 else 255 := by
  unfold countLoss
  split <;> omega

theorem enqueue_room (h : u.queue.length < 32) :
    u.enqueue r = { u with queue := u.queue ++ [{ r with dropped := u.dropped }], dropped := 0 } :=
  if_pos h

theorem enqueue_full (h : ¬ u.queue.length < 32) : u.enqueue r =
    match u.mode with
    | .keep => { u with dropped := countLoss u.dropped }
    | .overwrite =>
      { u with queue := u.queue.drop 1 ++ [{ r with dropped := countLoss u.dropped }], dropped := 0 } :=
  if_neg h

theorem length_enqueue (h : u.queue.length ≤ 32) : (u.enqueue r).queue.length ≤ 32 := by
  by_cases room : u.queue.length < 32
  · rw [enqueue_room u r room]
    simpa using room
  · rw [enqueue_full u r room]
    split
    · exact h
    · simp only [List.length_append, List.length_drop, List.length_singleton]
      omega

end EventUnit

namespace Cm8

variable (c : Cm8)

theorem post_disabled {slot : Option Slot} {tag : Option Byte} {e : Event}
    (h : c.events.enabled e = false) : c.post slot tag e = c :=
  if_neg (boolFalse_ne h)

theorem post_enabled {slot : Option Slot} {tag : Option Byte} {e : Event}
    (h : c.events.enabled e = true) : c.post slot tag e =
      { c with events := c.events.enqueue ⟨e, c.clock.frame, slot, tag, 0⟩ } :=
  if_pos h

/-! ### The transmit arbiter (R180) -/

theorem choose_reply {r : Reply} {rest : List Reply} (h : c.port.replies = r :: rest) :
    c.choose = { c with port := { c.port with replies := rest, sending := some (.reply r) } } := by
  unfold choose
  rw [h]

theorem choose_event {e : EventRecord} {rest : List EventRecord} (replies : c.port.replies = [])
    (h : c.events.queue = e :: rest) : c.choose =
      { c with
        port := { c.port with sending := some (.event e) }, events := { c.events with queue := rest } } := by
  unfold choose
  rw [replies, h]

theorem nextReport_some (n : Slot) {r : ForwardedReport}
    (h : (c.head (c.port.lastServed + 1 + n)).track.upstream = some r)
    (first : ∀ m : Slot, m < n → (c.head (c.port.lastServed + 1 + m)).track.upstream = none) :
    c.nextReport = some (c.port.lastServed + 1 + n, r) := by
  unfold nextReport
  rw [slots_split n, List.map_append, List.map_cons, List.findSome?_append]
  have none : (List.map (fun i => c.port.lastServed + 1 + i) (Slot.all.take n.val)).findSome? (fun i =>
      (c.head i).track.upstream.map fun r => (i, r)) = none := by
    rw [List.findSome?_eq_none_iff]
    intro i hi
    obtain ⟨m, hm, rfl⟩ := List.mem_map.1 hi
    rw [first m ((mem_take_slots n m).1 hm)]
    rfl
  rw [none, List.findSome?_cons, h]
  rfl

theorem nextReport_none (h : ∀ i : Slot, (c.head i).track.upstream = none) : c.nextReport = none := by
  unfold nextReport
  rw [List.findSome?_eq_none_iff]
  intro i _
  rw [h i]
  rfl

theorem choose_report {i : Slot} {r : ForwardedReport} (replies : c.port.replies = [])
    (events : c.events.queue = []) (next : c.nextReport = some (i, r)) : c.choose =
      { (c.setHead i { c.head i with track := { (c.head i).track with upstream := none } }) with
        port := { c.port with lastServed := i, sending := some (.report i r) } } := by
  unfold choose
  rw [replies, events, next]
  rfl

theorem choose_nothing (replies : c.port.replies = []) (events : c.events.queue = [])
    (next : c.nextReport = none) : c.choose = { c with port := { c.port with sending := none } } := by
  unfold choose
  rw [replies, events, next]

theorem buffer_choose : c.choose.port.buffer = c.port.buffer := by
  unfold choose
  split
  · rfl
  · split
    · rfl
    · split <;> rfl

/-! ### The end of an upstream frame (R178, R183) -/

theorem sentEffect_settings {kind tag : Byte} {n : PortSettings} {data : List Byte} {receiving : Bool} :
    c.sentEffect (.reply ⟨kind, tag, .acceptedSettings n data⟩) receiving =
      if n ≠ c.port.settings ∧ (receiving = true ∨ c.port.incoming.isSome = true) then
        { c with port := { c.port with settings := n, incoming := none } }.bump .rxBad
      else { c with port := { c.port with settings := n } } := by
  unfold sentEffect
  dsimp only
  by_cases cut : n ≠ c.port.settings ∧ (receiving = true ∨ c.port.incoming.isSome = true)
  · rw [if_pos cut, if_pos (by simpa using cut)]
  · rw [if_neg cut, if_neg (by simpa using cut)]

theorem sentEffect_other {u : Upstream} {receiving : Bool}
    (h : ∀ (kind tag : Byte) (n : PortSettings) (data : List Byte),
      u ≠ .reply ⟨kind, tag, .acceptedSettings n data⟩) : c.sentEffect u receiving = c := by
  unfold sentEffect
  split
  · exact absurd rfl (h _ _ _ _)
  · rfl

theorem buffer_sentEffect (u : Upstream) (receiving : Bool) :
    (c.sentEffect u receiving).port.buffer = c.port.buffer := by
  unfold sentEffect
  split
  · dsimp only
    split
    · exact (samePort_bump _ .rxBad).2
    · rfl
  · rfl

theorem pump_empty (h : c.port.buffer = []) : c.pump = c := by
  unfold pump
  rw [h]
  rfl

theorem pumpN_cons (n : Nat) {f : CommandFrame} {rest : List CommandFrame}
    (h : c.port.buffer = f :: rest) : pumpN (n + 1) c =
      if c.canAnswer then
        pumpN n ({ c with port := { c.port with buffer := rest } }.answer f.kind f.tag
          (carryOut f.kind f.tag f.body))
      else c := by
  conv_lhs => unfold pumpN
  dsimp only
  rw [h]

/-- With no reply place free the commands wait (R178). -/
theorem pump_waits (h : 4 ≤ c.port.replies.length) : c.pump = c := by
  have full : c.canAnswer = false := decide_eq_false (Nat.not_lt.2 h)
  unfold pump
  cases buffer : c.port.buffer with
  | nil => rfl
  | cons f rest => exact (pumpN_cons c _ buffer).trans (if_neg (boolFalse_ne full))

/-- With a place free the oldest command is carried out and answered, and then the others (R178). -/
theorem pump_takes {f : CommandFrame} {rest : List CommandFrame} (h : c.port.buffer = f :: rest)
    (free : c.port.replies.length < 4) : c.pump =
      pumpN rest.length ({ c with port := { c.port with buffer := rest } }.answer f.kind f.tag
        (carryOut f.kind f.tag f.body)) := by
  have place : c.canAnswer = true := decide_eq_true free
  unfold pump
  rw [h]
  exact (pumpN_cons c _ h).trans (if_pos place)

end Cm8

/-! ### Layouts (R190 to R192) -/

theorem byte_line (st : StoreId) (k : LineCounter) : (CounterId.line st k).byte =
    BitVec.ofNat 8 (32 * st.pair.val + (if st.line = .a then 0 else 16) + k.code) := by
  refine congrArg (BitVec.ofNat 8) ?_
  unfold storeNumber
  cases st.line
  · simp only [if_true]
    omega
  · simp only [reduceCtorEq, if_false]
    omega

theorem Span.isEmpty_iff (r : Span) : r.isEmpty = true ↔ r.hi < r.lo := decide_eq_true_iff

end Sys2Proof.Machine

namespace Sys2Proof

open Sys2Proof.Machine Sys2Proof.Machine.Cm8

/-- Settles O42. -/
theorem eventQueueKeepsThirtyTwo : Obligations.EventQueueKeepsThirtyTwo := by
  unfold Obligations.EventQueueKeepsThirtyTwo
  refine ⟨fun c slot tag e => ⟨c.post_disabled, c.post_enabled⟩, fun u r =>
    ⟨u.enqueue_room r, fun full keep => ?_, fun o rest full mode queue => ?_, u.length_enqueue r,
      fun c o rest replies queue => ?_⟩⟩
  · rw [u.enqueue_full r (by omega), keep, EventUnit.countLoss_eq]
  · rw [u.enqueue_full r (by omega), mode, EventUnit.countLoss_eq, queue]
    rfl
  · rw [c.choose_event replies queue]

/-- Settles O40. -/
theorem portFramesCounted : Obligations.PortFramesCounted := by
  unfold Obligations.PortFramesCounted
  refine ⟨fun s why idle => ?_, fun s instant kind tag body idle => ?_⟩
  · have row := congrArg (Host.Outcome.next (φ := Fault) (ρ := Refusal))
      (s.row_of_nil (fun c => c.bump .rxBad) idle)
    exact ⟨row, row⟩
  · intro c ok
    have same := samePort_bump c .rxOk
    have row {d : Cm8} (h : (c.commandFrame kind tag body).chooseIdle = d) :
        exec (.commandFrame instant kind tag body) s = .next { s with part := d } := by
      have done := congrArg (Host.Outcome.next (φ := Fault) (ρ := Refusal))
        (s.row_of_nil (fun c => (c.reach instant).commandFrame kind tag body) idle)
      exact done.trans (by rw [← h]; rfl)
    refine ⟨fun room full => row ?_, fun full => row ?_, fun empty free => row ?_, fun k named => ?_⟩
    · unfold commandFrame
      rw [if_pos (show c.port.buffer.length < Config.receiveBufferMax from room),
        offer_full ok kind tag body _ (by rw [same.1]; exact full) (by rw [same.2]; exact room)]
    · unfold commandFrame
      rw [if_neg (show ¬ c.port.buffer.length < Config.receiveBufferMax from Nat.not_lt.2 full)]
    · unfold commandFrame
      rw [if_pos (show c.port.buffer.length < Config.receiveBufferMax from by rw [empty]; decide)]
      exact offer_ready ok tag (by rw [same.2]; exact empty) (by rw [same.1]; exact free)
    · subst named
      unfold carryOut
      rw [CommandKind.ofCode_code]

/-- Settles O41. -/
theorem upstreamFramesInOrder : Obligations.UpstreamFramesInOrder := by
  unfold Obligations.UpstreamFramesInOrder
  refine ⟨?_, fun c => ⟨fun r rest => c.choose_reply, fun e rest => c.choose_event, ?_, ?_⟩, ?_⟩
  · intro s instant receiving u idle sending c heard
    have row {e : Cm8} (h : (c.sentEffect u receiving).choose.pump = e) :
        exec (.upstreamFrameSent instant receiving) s = .next { s with part := e.chooseIdle } := by
      have done := congrArg (Host.Outcome.next (φ := Fault) (ρ := Refusal))
        (s.row_of_nil (fun c => (c.reach instant).upstreamSent receiving) idle)
      refine done.trans ?_
      have sent : c.upstreamSent receiving = e := by
        unfold upstreamSent
        rw [show c.port.sending = some u from sending]
        exact h
      rw [← sent]
      rfl
    have buffer : (c.sentEffect u receiving).choose.port.buffer = s.part.port.buffer :=
      (buffer_choose _).trans (buffer_sentEffect c u receiving)
    refine ⟨c.sentEffect u receiving, fun empty => row (pump_empty _ (buffer.trans empty)), ?_,
      fun _ full => row (pump_waits _ full), ?_, sentEffect_other c⟩
    · intro f rest waits free
      exact row (pump_takes _ (buffer.trans waits) free)
    · rintro kind tag n data rfl
      rw [sentEffect_settings]
      exact ⟨fun cut => if_pos cut, fun kept => if_neg kept⟩
  · intro n r replies events i waits first
    exact c.choose_report replies events (c.nextReport_some n waits first)
  · intro replies events none
    exact c.choose_nothing replies events (c.nextReport_none none)
  · intro name marks
    refine ⟨?_, ?_, fun i r => rfl⟩
    · rintro ⟨kind, tag, data | ⟨n, data⟩ | why⟩
      · rfl
      · rfl
      · cases why <;> rfl
    · have named (x : Option SourceName) : sourceByte x = name x := by
        rcases x with - | n | - <;> rfl
      rintro ⟨event, frame, slot, tag, dropped⟩
      have laid (code : Byte) (detail : List Byte) (hc : BitVec.ofNat 8 event.code = code)
          (hd : event.detail = detail) :
          (Upstream.event ⟨event, frame, slot, tag, dropped⟩).frame = ⟨0#8, 0xE1#8, 0#8,
            code :: enc4 frame ++ [flagsByte [slot.isSome, tag.isSome], (slot.map slotByte).getD 0#8,
              tag.getD 0#8, BitVec.ofNat 8 dropped] ++ detail⟩ := by
        rw [← hc, ← hd]
        rfl
      cases event with
      | moveStarted x d f => exact laid _ _ rfl (by rw [Event.detail, named]; rfl)
      | moveDone x => exact laid _ _ rfl (by rw [Event.detail, named])
      | moveDropped x why => exact laid _ _ rfl (by rw [Event.detail, named]; cases why <;> rfl)
      | moveHeld x r => exact laid _ _ rfl (by rw [Event.detail, named]; rfl)
      | moveResumed x d f n => exact laid _ _ rfl (by rw [Event.detail, named]; rfl)
      | headHalted cause => exact laid _ _ rfl (by cases cause <;> rfl)
      | headUnlinked why => exact laid _ _ rfl (by cases why <;> rfl)
      | limitsNarrowed axes =>
        refine laid _ _ rfl ?_
        simp only [Event.detail, Span.isEmpty_iff]
        rfl
      | counter id full =>
        refine laid _ _ rfl ?_
        cases id with
        | line st k =>
          rw [Event.detail, byte_line]
          cases k <;> rfl
        | _ => rfl
      | _ => exact laid _ _ rfl rfl

end Sys2Proof
end

section
/-! PROOF. Halt requests, and the enrolment engine's timers and its entry into LINKED (O38, O39). -/

namespace Sys2Proof.Machine

theorem Head.mem_axisList (h : Head) (a : Axis) : a ∈ h.axisList ↔ h.configured a = true := by
  unfold Head.axisList Head.configured
  exact AxisMask.mem_axes ..

theorem Head.anyEmpty_iff (h : Head) : h.anyEmpty = true ↔
    ∃ a, h.configured a = true ∧ (h.axes.get a).working.hi < (h.axes.get a).working.lo := by
  simp only [Head.anyEmpty, List.any_eq_true, Head.mem_axisList, Span.isEmpty_iff, Head.working]

namespace Cm8

variable (c : Cm8) (i : Slot)

/-! ### Halt requests (R81) -/

theorem haltRequest_halted (cause : HaltCause) {w : HaltCause} (h : (c.head i).activity = .halted w) :
    c.haltRequest i cause = c := by
  unfold haltRequest
  rw [h]

theorem haltRequest_offline (cause : HaltCause) (h : (c.head i).activity = .offline) :
    c.haltRequest i cause = if HaltCause.haltsOffline cause then c.enterHalted i cause else c := by
  unfold haltRequest
  rw [h]

theorem haltRequest_running (cause : HaltCause) (off : (c.head i).activity ≠ .offline)
    (run : ∀ w, (c.head i).activity ≠ .halted w) : c.haltRequest i cause = c.enterHalted i cause := by
  unfold haltRequest
  cases h : (c.head i).activity with
  | offline => exact absurd h off
  | halted w => exact absurd h (run w)
  | _ => rfl

/-- A halt request turns the head to some activity and queue, with records of its own. -/
theorem turned_haltRequest (cause : HaltCause) : ∃ a q r,
    c.Turned (c.haltRequest i cause) i { c.head i with activity := a, queue := q } 0#16 r := by
  unfold haltRequest
  split
  · split
    · exact ⟨_, _, _, turned_enterHalted ..⟩
    · exact ⟨_, _, _, .refl c i⟩
  · exact ⟨_, _, _, .refl c i⟩
  · exact ⟨_, _, _, turned_enterHalted ..⟩

/-! ### Link loss (R160) -/

/-- What the loss of a link makes of a head: the state that its halt left, the engine in PROBE with the
latched flag, no head ranges. -/
def unlinked (h : Head) (a : Activity) (q : List QueueEntry) : Head :=
  { ({ h with activity := a, queue := q } : Head).dropRanges with
    link := { Link.reset with state := .probe, pending := .probe, lostFlag := true } }

/-- The loss of a link turns the head once its halt request, if it is one, has. -/
theorem turned_loseLink {a : Activity} {q : List QueueEntry}
    {r : List (Option Slot × Option Byte × Event)}
    (halt : c.Turned (c.haltRequest i .lost) i { c.head i with activity := a, queue := q } 0#16 r) :
    c.Turned (c.loseLink i) i (unlinked (c.head i) a q) 0#16
      (r ++ [(some i, none, .headUnlinked .loss)]) := by
  have restarted := halt.trans (turned_onHead _ i fun h =>
    { h.dropRanges with link := { h.link.restarted with lostFlag := true } })
  have posted := restarted.trans (turned_post _ i (some i) none (.headUnlinked .loss))
  rw [restarted.head, halt.head] at posted
  exact posted.records (by rw [List.append_nil])

/-- What `LINK_LOSS` says of a slot whose halt request left the Event Unit `u`. -/
theorem loseLink_keeps {a : Activity} {q : List QueueEntry}
    {r : List (Option Slot × Option Byte × Event)}
    (halt : c.Turned (c.haltRequest i .lost) i { c.head i with activity := a, queue := q } 0#16 r) :
    let t := (c.loseLink i).head i
    t = unlinked (c.head i) a q ∧
    (c.loseLink i).events = (c.haltRequest i .lost).events.told c.clock.frame
      [(some i, none, .headUnlinked .loss)] ∧
    (∀ z : Zone, (c.loseLink i).holder z = c.holder z) ∧
    (∀ j : Slot, j ≠ i → (c.loseLink i).head j = c.head j) := by
  have lost := c.turned_loseLink i halt
  exact ⟨lost.head, by rw [lost.events, halt.events, EventUnit.told_append], lost.holder_eq, lost.others⟩

/-! ### Entry into LINKED (R157, R158) -/

theorem lacksAxis_iff (h : Head) (mask : AxisMask) : lacksAxis h mask = true ↔
    ∃ a, h.configured a = true ∧ mask.getLsbD a.num = false := by
  simp [lacksAxis, Head.mem_axisList]

/-- The records of an entry into LINKED before its halts (R157 steps 3 and 4). -/
def linkRecords (i : Slot) (h : Head) (mask : AxisMask) : List (Option Slot × Option Byte × Event) :=
  (some i, none, .headLinked mask) ::
    (if narrowedAxes h (linkHead h mask) = [] then []
      else [(some i, none, .limitsNarrowed (narrowedAxes h (linkHead h mask)))])

/-- The part once the records of an entry into LINKED are posted. -/
def linkTold (c : Cm8) (i : Slot) (mask : AxisMask) : Cm8 :=
  let told := (c.setHead i (linkHead (c.head i) mask)).post (some i) none (.headLinked mask)
  if (narrowedAxes (c.head i) (linkHead (c.head i) mask)).isEmpty then told
  else told.post (some i) none (.limitsNarrowed (narrowedAxes (c.head i) (linkHead (c.head i) mask)))

theorem enterLinked_eq {mask : AxisMask} (h : (c.head i).link.headMask = some mask) :
    c.enterLinked i = (c.linkTold i mask).linkHalts i mask := by
  unfold enterLinked linkTold
  dsimp only
  rw [h]
  rfl

theorem turned_linkTold (mask : AxisMask) :
    c.Turned (c.linkTold i mask) i (linkHead (c.head i) mask) 0#16 (linkRecords i (c.head i) mask) := by
  have told := (turned_onHead c i fun h => linkHead h mask).trans
    (turned_post _ i (some i) none (.headLinked mask))
  rw [head_onHead_self] at told
  unfold linkTold linkRecords
  dsimp only
  by_cases none : narrowedAxes (c.head i) (linkHead (c.head i) mask) = []
  · rw [if_pos none, if_pos (List.isEmpty_iff.2 none)]
    exact told
  · rw [if_neg none, if_neg fun h => none (List.isEmpty_iff.1 h)]
    have narrowed := told.trans (turned_post _ i (some i) Option.none
      (.limitsNarrowed (narrowedAxes (c.head i) (linkHead (c.head i) mask))))
    exact narrowed.headAs told.head

/-- The halts of an entry change the state and the queue of its head alone. -/
theorem turned_linkHalts (mask : AxisMask) : ∃ a q r,
    c.Turned (c.linkHalts i mask) i { c.head i with activity := a, queue := q } 0#16 r := by
  have two : ∃ a q r, c.Turned (if (c.head i).anyEmpty then
      (if lacksAxis (c.head i) mask then c.haltRequest i .mismatch else c).haltRequest i .range
      else if lacksAxis (c.head i) mask then c.haltRequest i .mismatch else c) i
      { c.head i with activity := a, queue := q } 0#16 r := by
    have one : ∃ a q r, c.Turned (if lacksAxis (c.head i) mask then c.haltRequest i .mismatch else c) i
        { c.head i with activity := a, queue := q } 0#16 r := by
      split
      · exact c.turned_haltRequest i .mismatch
      · exact ⟨_, _, _, .refl c i⟩
    obtain ⟨a, q, r, first⟩ := one
    split
    · obtain ⟨a', q', r', second⟩ := turned_haltRequest
        (if lacksAxis (c.head i) mask then c.haltRequest i .mismatch else c) i .range
      rw [first.head] at second
      exact ⟨a', q', r ++ r', first.trans second⟩
    · exact ⟨a, q, r, first⟩
  unfold linkHalts
  dsimp only
  split
  · exact ⟨_, _, _, turned_setActivity ..⟩
  · exact two

theorem linkHalts_halted (mask : AxisMask) {w : HaltCause} (h : (c.head i).activity = .halted w) :
    c.linkHalts i mask = c.setActivity i (.halted (reviewedCause (lacksAxis (c.head i) mask) w)) := by
  unfold linkHalts
  dsimp only
  rw [h]

/-- The halts of an OFFLINE head: MISMATCH before RANGE, and none when neither applies (R81, R157). -/
theorem linkHalts_offline (mask : AxisMask) (h : (c.head i).activity = .offline) :
    c.linkHalts i mask = if lacksAxis (c.head i) mask then c.enterHalted i .mismatch
      else if (c.head i).anyEmpty then c.enterHalted i .range else c := by
  have mismatch : c.haltRequest i .mismatch = c.enterHalted i .mismatch := by
    rw [haltRequest_offline c i _ h]
    rfl
  have range : c.haltRequest i .range = c.enterHalted i .range := by
    rw [haltRequest_offline c i _ h]
    rfl
  have stays : (c.enterHalted i .mismatch).haltRequest i .range = c.enterHalted i .mismatch :=
    haltRequest_halted _ i _ (congrArg Head.activity (turned_enterHalted c i .mismatch).head)
  unfold linkHalts
  dsimp only
  rw [h]
  dsimp only
  by_cases lacks : lacksAxis (c.head i) mask = true
  · rw [if_pos lacks, if_pos lacks, mismatch, stays, ite_self]
  · rw [if_neg lacks, if_neg lacks, range]

/-- A halt of an OFFLINE head with an empty queue posts HEAD_HALTED alone. -/
theorem turned_enterHalted_offline (cause : HaltCause) (off : (c.head i).activity = .offline)
    (empty : (c.head i).queue = []) :
    c.Turned (c.enterHalted i cause) i { c.head i with activity := .halted cause, queue := [] } 0#16
      [(some i, none, .headHalted cause)] :=
  (turned_enterHalted c i cause).records (by rw [off, empty]; rfl)

end Cm8

end Sys2Proof.Machine

namespace Sys2Proof

open Sys2Proof.Machine Sys2Proof.Machine.Cm8

/-- Settles O39. -/
theorem linkTimersRunOut : Obligations.LinkTimersRunOut := by
  unfold Obligations.LinkTimersRunOut
  refine ⟨?_, ?_, ?_⟩
  · intro s i ws work linked over_
    have due : s.part.lossDue i = true := (lossDue_iff ..).2 ⟨linked, over_⟩
    have due' : ({ s.part with work := ws } : Cm8).lossDue i = true := due
    refine congrArg Host.Outcome.next (congrArg (fun p => { s with part := p }) ?_)
    refine (takeEvent_due s.part work rfl nofun due).trans ?_
    show (({ s.part with work := ws } : Cm8).lossStep i).advance.chooseIdle = _
    unfold lossStep
    rw [if_pos due']
  · intro c i h t
    have kept (a : Activity) (u : EventUnit) {q : List QueueEntry}
        {r : List (Option Slot × Option Byte × Event)} (hu : (c.haltRequest i .lost).events = u)
        (halt : c.Turned (c.haltRequest i .lost) i { c.head i with activity := a, queue := q } 0#16 r) :
        t.activity = a ∧ t.link = { Link.reset with state := .probe, pending := .probe, lostFlag := true } ∧
        (∀ b, (t.axes.get b).headRange = none) ∧ t.setpoint = h.setpoint ∧ t.previous = h.previous ∧
        t.track = h.track ∧ t.seq = h.seq ∧
        (c.loseLink i).events = u.told c.clock.frame [(some i, none, .headUnlinked .loss)] ∧
        (∀ z : Zone, (c.loseLink i).holder z = c.holder z) ∧
        (∀ j : Slot, j ≠ i → (c.loseLink i).head j = c.head j) := by
      obtain ⟨head, events, holders, others⟩ := c.loseLink_keeps i halt
      rw [show t = _ from head, ← hu]
      exact ⟨rfl, rfl, fun b => by simp [unlinked, Head.dropRanges], rfl, rfl, rfl, rfl, events, holders,
        others⟩
    have still (same : c.haltRequest i .lost = c) :
        c.Turned (c.haltRequest i .lost) i { c.head i with } 0#16 [] := by
      rw [same]
      exact .refl c i
    have runs (off : h.activity ≠ .offline) (run : ∀ w, h.activity ≠ .halted w) :=
      c.haltRequest_running i .lost off run
    cases act : h.activity with
    | offline =>
      have same : c.haltRequest i .lost = c := haltRequest_offline c i .lost act
      exact kept .offline c.events (by rw [same]) (by rw [← act]; exact still same)
    | halted w =>
      have same := c.haltRequest_halted i .lost act
      exact kept (.halted w) c.events (by rw [same]) (by rw [← act]; exact still same)
    | _ =>
      have same := runs (by rw [act]; nofun) (by rw [act]; nofun)
      exact kept (.halted .lost) _ (by rw [same]) (same ▸ turned_enterHalted c i .lost)
  · intro s i n ws work timer over_
    have due : s.part.due (.page i) = true := (due_page_iff ..).2 ⟨n, timer, over_⟩
    refine congrArg Host.Outcome.next (congrArg (fun p => { s with part := p }) ?_)
    refine (takeEvent_due s.part work rfl nofun due).trans ?_
    show (({ s.part with work := ws } : Cm8).pageStep i).advance.chooseIdle = _
    unfold pageStep
    rw [show (({ s.part with work := ws } : Cm8).head i).link.pageTimer = some n from timer]
    dsimp only
    rw [if_pos (show Config.pageTimeoutTicks ≤ n + 1 from over_)]
    rfl

/-- Settles O38. -/
theorem entryIntoLinked : Obligations.EntryIntoLinked := by
  unfold Obligations.EntryIntoLinked
  intro c i mask hmask h t lacks empty
  have told := c.turned_linkTold i mask
  have entry := c.enterLinked_eq i hmask
  generalize c.linkTold i mask = d at told entry
  obtain ⟨a, q, r, halts⟩ := d.turned_linkHalts i mask
  rw [← entry, told.head] at halts
  have all := told.trans halts
  have head : t = { linkHead h mask with activity := a, queue := q } := all.head
  have lacks_iff : lacksAxis (d.head i) mask = true ↔ lacks := by
    rw [told.head]
    exact lacksAxis_iff h mask
  have empty_iff : (d.head i).anyEmpty = true ↔ empty := by
    rw [told.head, Head.anyEmpty_iff]
    show _ ↔ ∃ a, h.configured a = true ∧ (t.axes.get a).working.hi < (t.axes.get a).working.lo
    rw [head]
    rfl
  have act : (d.head i).activity = h.activity := (congrArg Head.activity told.head : _)
  have queue : (d.head i).queue = h.queue := (congrArg Head.queue told.head : _)
  have offline (off : h.activity = .offline) : c.enterLinked i =
      if lacksAxis (d.head i) mask then d.enterHalted i .mismatch
      else if (d.head i).anyEmpty then d.enterHalted i .range else d := by
    rw [entry, d.linkHalts_offline i mask (act.trans off)]
  have halted (w : HaltCause) (hw : h.activity = .halted w) :
      c.enterLinked i = d.setActivity i (.halted (reviewedCause (lacksAxis (d.head i) mask) w)) := by
    rw [entry, d.linkHalts_halted i mask (act.trans hw)]
  have activity (cause : HaltCause) : ((d.enterHalted i cause).head i).activity = .halted cause :=
    congrArg Head.activity (turned_enterHalted d i cause).head
  refine ⟨?_, ?_, ?_, ?_, ?_, ?_, ?_, ?_, ?_, ?_, all.holder_eq⟩
  · rw [head]; rfl
  · rw [head]; rfl
  · rw [head]; rfl
  · rw [head]; rfl
  · intro b
    rw [head]
    simp [linkHead, h]
  · rw [head]; rfl
  · rw [head]; rfl
  · intro off
    refine ⟨fun l => ?_, fun l e => ?_, fun l e => ?_⟩
    · show ((c.enterLinked i).head i).activity = _
      rw [offline off, if_pos (lacks_iff.2 l), activity]
    · show ((c.enterLinked i).head i).activity = _
      rw [offline off, if_neg (lacks_iff.not.2 l), if_pos (empty_iff.2 e), activity]
    · show ((c.enterLinked i).head i).activity = _
      rw [offline off, if_neg (lacks_iff.not.2 l), if_neg (empty_iff.not.2 e), act, off]
  · intro w hw
    have state : t.activity = .halted (reviewedCause (lacksAxis (d.head i) mask) w) := by
      show ((c.enterLinked i).head i).activity = _
      rw [halted w hw, head_setActivity_self]
    refine ⟨fun l => ?_, fun l e => ?_, fun l e => ?_⟩
    · rw [state, lacks_iff.2 l]
      rfl
    · rw [state, Bool.eq_false_iff.2 fun k => l (lacks_iff.1 k), e]
      rfl
    · rw [state, Bool.eq_false_iff.2 fun k => l (lacks_iff.1 k)]
      simp [reviewedCause, e]
  · intro narrowed said tells
    have shown : narrowed = narrowedAxes h (linkHead h mask) := by
      show (h.map.mask.axes.filter fun a => decide ((h.working a).lo < (t.axes.get a).working.lo ∨
        (t.axes.get a).working.hi < (h.working a).hi)).map (fun a => (a, (t.axes.get a).working)) = _
      rw [head]
      simp only [Bool.decide_or]
      rfl
    have records : said = linkRecords i h mask := by
      show _ :: (if narrowed = [] then [] else [(some i, none, Event.limitsNarrowed narrowed)]) = _
      rw [shown]
      rfl
    have posted {e : Cm8} {x : Head} {l : List (Option Slot × Option Byte × Event)}
        (same : c.enterLinked i = e) (turned : d.Turned e i x 0#16 l) : tells l := by
      show (c.enterLinked i).events = c.events.told c.clock.frame (said ++ l)
      rw [same, records]
      exact (told.trans turned).events
    refine ⟨fun ⟨w, hw⟩ => posted (halted w hw) (turned_setActivity ..), fun off noqueue =>
      ⟨fun l => ?_, fun l e => ?_, fun l e => ?_⟩⟩
    · exact posted (by rw [offline off, if_pos (lacks_iff.2 l)])
        (d.turned_enterHalted_offline i .mismatch (act.trans off) (queue.trans noqueue))
    · exact posted (by rw [offline off, if_neg (lacks_iff.not.2 l), if_pos (empty_iff.2 e)])
        (d.turned_enterHalted_offline i .range (act.trans off) (queue.trans noqueue))
    · exact posted (by rw [offline off, if_neg (lacks_iff.not.2 l), if_neg (empty_iff.not.2 e)]) (.refl d i)

end Sys2Proof
end

section
/-! PROOF. The capability pages of an exchange and the line that hears them (O37). -/

namespace Sys2Proof.Machine

/-- The first slot that passes a test. -/
theorem find_slots_eq_some_iff (p : Slot → Bool) (n : Slot) :
    Slot.all.find? p = some n ↔ p n = true ∧ ∀ m, m < n → p m = false := by
  constructor
  · intro found
    refine ⟨List.find?_some found, fun m below => ?_⟩
    by_contra passes
    have first : (Slot.all.take n.val).find? p ≠ none := fun none =>
      passes (Bool.eq_false_iff.2 (List.find?_eq_none.1 none m ((mem_take_slots n m).2 below)))
    obtain ⟨k, hk⟩ := Option.ne_none_iff_exists'.1 first
    have same : k = n := by
      rw [slots_split n, List.find?_append, hk] at found
      exact Option.some.inj found
    rw [same] at hk
    exact lt_irrefl n ((mem_take_slots n n).1 (List.mem_of_find?_eq_some hk))
  · rintro ⟨passes, before⟩
    have none : (Slot.all.take n.val).find? p = none :=
      List.find?_eq_none.2 fun m hm => by rw [before m ((mem_take_slots n m).1 hm)]; exact Bool.false_ne_true
    rw [slots_split n, List.find?_append, none, List.find?_cons_of_pos passes]
    rfl

/-! ### Page bodies (R154, R193) -/

theorem axisByte_eq_iff (b : Byte) (a : Axis) : b = axisByte a ↔ b.toNat = a.num := by
  refine ⟨fun h => ?_, fun h => BitVec.eq_of_toNat_eq ?_⟩
  · rw [h]
    cases a <;> rfl
  · rw [h]
    cases a <;> rfl

theorem maskOf_eq_some_iff (b : Byte) (m : AxisMask) : maskOf b = some m ↔ b = m.setWidth 8 := by
  refine ⟨fun h => ?_, fun h => h ▸ maskOf_setWidth m⟩
  unfold maskOf at h
  split at h
  · rename_i small
    rw [← Option.some.inj h]
    refine BitVec.eq_of_toNat_eq ?_
    rw [BitVec.toNat_setWidth, BitVec.toNat_setWidth]
    omega
  · nomatch h

theorem page0Mask_four (page toggle more mask : Byte) : page0Mask [page, toggle, more, mask] =
    (maskOf mask).filter fun m => more.getLsbD 0 = decide (m ≠ 0#6) := rfl

theorem page0Mask_eq_some_iff (page toggle : Byte) (rest : List Byte) (m : AxisMask) :
    page0Mask (page :: toggle :: rest) = some m ↔
      ∃ more, rest = [more, m.setWidth 8] ∧ more.getLsbD 0 = decide (m ≠ 0#6) := by
  constructor
  · intro h
    match rest with
    | [] | [_] | _ :: _ :: _ :: _ => nomatch h
    | [more, mask] =>
      rw [page0Mask_four, Option.filter_eq_some_iff, maskOf_eq_some_iff, decide_eq_true_iff] at h
      exact ⟨more, by rw [h.1], h.2⟩
  · rintro ⟨more, rfl, flag⟩
    rw [page0Mask_four, Option.filter_eq_some_iff, maskOf_eq_some_iff, decide_eq_true_iff]
    exact ⟨rfl, flag⟩

theorem pageRange_ten (mask : AxisMask) (n : Nat) (page toggle more axis l2 l1 l0 h2 h1 h0 : Byte)
    (a : Axis) (r : Span) :
    pageRange mask n [page, toggle, more, axis, l2, l1, l0, h2, h1, h0] = some (a, r) ↔
      r = ⟨be3 l2 l1 l0, be3 h2 h1 h0⟩ ∧ mask.axes[n - 1]? = some a ∧ axis = axisByte a ∧ r.lo ≤ r.hi ∧
        more.getLsbD 0 = decide (n < mask.axes.length) := by
  unfold pageRange
  dsimp only
  cases mask.axes[n - 1]? with
  | none => exact iff_of_false nofun fun h => nomatch h.2.1
  | some b =>
    dsimp only
    rw [Option.ite_none_right_eq_some, Option.some.injEq, Prod.mk.injEq, Bool.and_eq_true,
      Bool.and_eq_true, decide_eq_true_iff, decide_eq_true_iff, Bool.not_eq_true', ← Bool.not_eq_true,
      Span.isEmpty_iff, Option.some.injEq, axisByte_eq_iff]
    constructor
    · rintro ⟨⟨⟨axis, order⟩, flag⟩, rfl, rfl⟩
      exact ⟨rfl, rfl, axis, Int.not_lt.1 order, flag⟩
    · rintro ⟨rfl, rfl, axis, order, flag⟩
      exact ⟨⟨⟨axis, Int.not_lt.2 order⟩, flag⟩, rfl, rfl⟩

theorem pageRange_eq_some_iff (mask : AxisMask) (n : Nat) (page toggle : Byte) (rest : List Byte)
    (a : Axis) (r : Span) : pageRange mask n (page :: toggle :: rest) = some (a, r) ↔
      ∃ more, rest = [more, axisByte a] ++ encPos r.lo ++ encPos r.hi ∧ mask.axes[n - 1]? = some a ∧
        more.getLsbD 0 = decide (n < mask.axes.length) ∧ r.lo ≤ r.hi ∧
        fitsPosition r.lo = true ∧ fitsPosition r.hi = true := by
  constructor
  · intro h
    match rest with
    | [] | [_] | [_, _] | [_, _, _] | [_, _, _, _] | [_, _, _, _, _] | [_, _, _, _, _, _]
    | [_, _, _, _, _, _, _] | _ :: _ :: _ :: _ :: _ :: _ :: _ :: _ :: _ :: _ => nomatch h
    | [more, axis, l2, l1, l0, h2, h1, h0] =>
      obtain ⟨rfl, known, rfl, order, flag⟩ := (pageRange_ten ..).1 h
      refine ⟨more, ?_, known, flag, order, fitsPosition_be3 .., fitsPosition_be3 ..⟩
      rw [encPos_be3, encPos_be3]
      rfl
  · rintro ⟨more, rfl, known, flag, order, flo, fhi⟩
    obtain ⟨l2, l1, l0, hl, lo⟩ := encPos_eq flo
    obtain ⟨h2, h1, h0, hh, hi⟩ := encPos_eq fhi
    rw [hl, hh]
    exact (pageRange_ten ..).2 ⟨by rw [lo, hi], known, rfl, order, flag⟩

namespace Link

variable {l : Link} {page toggle : Byte} {rest : List Byte} {old m : AxisMask}

/-- A page 0 that passes R154. -/
def First (page toggle : Byte) (rest : List Byte) (m : AxisMask) : Prop :=
  page = 0#8 ∧ page0Mask (page :: toggle :: rest) = some m

/-- The next page of the head's mask, passing R154. -/
def Next (l : Link) (old : AxisMask) (page toggle : Byte) (rest : List Byte) (r : Axis × Span) : Prop :=
  page ≠ 0#8 ∧ page.toNat = l.pages ∧ pageRange old page.toNat (page :: toggle :: rest) = some r

/-! ### Pages in PROBE (R153) -/

theorem takePage_probe_first (h : l.state = .probe) (first : First page toggle rest m) :
    l.takePage (page :: toggle :: rest) = l.begin0 (toggle.getLsbD 0) m := by
  obtain ⟨zero, pass⟩ := first
  unfold takePage takeInProbe
  rw [h]
  dsimp only
  rw [if_pos zero, pass]
  rfl

theorem takePage_probe_ignored (h : l.state = .probe) (fails : ∀ m, ¬ First page toggle rest m) :
    l.takePage (page :: toggle :: rest) = l := by
  unfold takePage takeInProbe
  rw [h]
  dsimp only
  split
  · split
    · exact absurd ⟨‹_›, ‹_›⟩ (fails _)
    · rfl
  · rfl

/-! ### Pages in EXCHANGE (R155) -/

theorem takePage_again (h : l.state = .exchange) (same : l.toggle = some (toggle.getLsbD 0)) :
    l.takePage (page :: toggle :: rest) =
      { l with pending := .pageAck page (toggle.getLsbD 0) false } := by
  unfold takePage takeInExchange
  rw [h]
  exact if_pos same

theorem takePage_new (h : l.state = .exchange) (other : l.toggle ≠ some (toggle.getLsbD 0)) :
    l.takePage (page :: toggle :: rest) = l.takeNew page toggle (page :: toggle :: rest) := by
  unfold takePage takeInExchange
  rw [h]
  exact if_neg other

theorem lastAccepted_iff (mask : l.headMask = some old) :
    l.lastAccepted = true ↔ l.pages = old.axes.length + 1 := by
  unfold lastAccepted lastPage
  rw [mask, decide_eq_true_iff]
  rfl

theorem takeNew_last (mask : l.headMask = some old) (last : l.pages = old.axes.length + 1)
    (body : List Byte) : l.takeNew page toggle body = l.backToProbe :=
  if_pos ((lastAccepted_iff mask).2 last)

theorem takeNew_first (mask : l.headMask = some old) (more : l.pages ≠ old.axes.length + 1)
    (first : First page toggle rest m) :
    l.takeNew page toggle (page :: toggle :: rest) = l.begin0 (toggle.getLsbD 0) m := by
  obtain ⟨zero, pass⟩ := first
  unfold takeNew
  rw [if_neg ((lastAccepted_iff mask).not.2 more), if_pos zero, pass]
  rfl

theorem takeNew_next (mask : l.headMask = some old) (more : l.pages ≠ old.axes.length + 1)
    {r : Axis × Span} (next : l.Next old page toggle rest r) :
    l.takeNew page toggle (page :: toggle :: rest) = l.accept page (toggle.getLsbD 0) r := by
  obtain ⟨nonzero, number, pass⟩ := next
  unfold takeNew
  rw [if_neg ((lastAccepted_iff mask).not.2 more), if_neg nonzero, if_pos number, mask]
  show (match pageRange old page.toNat (page :: toggle :: rest) with
    | some r => l.accept page (lowBit toggle) r
    | none => l.backToProbe) = _
  rw [pass]
  rfl

theorem takeNew_fails (mask : l.headMask = some old) (first : ∀ m, ¬ First page toggle rest m)
    (next : ∀ r, ¬ l.Next old page toggle rest r) :
    l.takeNew page toggle (page :: toggle :: rest) = l.backToProbe := by
  unfold takeNew
  rw [mask]
  split
  · rfl
  · split
    · split
      · exact absurd ⟨‹_›, ‹_›⟩ (first _)
      · rfl
    · split
      · split
        · exact absurd ⟨‹_›, ‹_›, ‹_›⟩ (next _)
        · rfl
      · rfl

theorem takeNew_number (nonzero : page ≠ 0#8) (number : page.toNat ≠ l.pages) (body : List Byte) :
    l.takeNew page toggle body = l.backToProbe := by
  unfold takeNew
  rw [if_neg nonzero, if_neg number, ite_self]

theorem takePage_short {short : List Byte} (brief : short.length < 2) :
    (l.state = .probe → l.takePage short = l) ∧
      (l.state = .exchange → l.takePage short = l.backToProbe) := by
  unfold takePage takeInProbe takeInExchange
  match short with
  | [] | [_] => exact ⟨fun h => by rw [h], fun h => by rw [h]⟩
  | _ :: _ :: _ => exact absurd brief (Nat.not_lt.2 (Nat.le_add_left 2 _))

end Link

namespace Cm8

variable (c : Cm8) (st : StoreId) (address : Byte)

/-- The slot is configured on the receiving line with this address (R145). -/
def Answers (i : Slot) : Prop := (c.head i).map.mask ≠ 0#6 ∧
  (c.head i).map.storeUnder (c.wireMode (c.head i).map.pair) = st ∧ (c.head i).map.address = address

theorem slotAt_eq_some_iff (i : Slot) : c.slotAt st address = some i ↔
    c.Answers st address i ∧ ∀ j, j < i → ¬ c.Answers st address j := by
  unfold slotAt
  simp [find_slots_eq_some_iff, Answers, Head.isConfigured, and_assoc]

theorem slotAt_eq_none_iff : c.slotAt st address = none ↔ ∀ i, ¬ c.Answers st address i := by
  unfold slotAt
  simp [Answers, Head.isConfigured]

variable {st address}

theorem arrivePage_taken {i : Slot} (hears : c.receives st = true) (at_ : c.slotAt st address = some i)
    (body : List Byte) : c.arrivePage st address body =
      (c.bump (.line st .received)).onHead i fun h => { h with link := h.link.takePage body } := by
  unfold arrivePage
  rw [if_pos hears, at_]

theorem arrivePage_bad (hears : c.receives st = true) (at_ : c.slotAt st address = none)
    (body : List Byte) : c.arrivePage st address body = c.bump (.line st .bad) := by
  unfold arrivePage
  rw [if_pos hears, at_]

theorem arrivePage_deaf (deaf : c.receives st = false) (body : List Byte) :
    c.arrivePage st address body = c := by
  unfold arrivePage
  rw [if_neg (by rw [deaf]; exact Bool.false_ne_true)]

end Cm8

end Sys2Proof.Machine

namespace Sys2Proof

open Sys2Proof.Machine Sys2Proof.Machine.Cm8 Sys2Proof.Machine.Link

/-- The row of PAGE on an idle part. -/
theorem exec_page (s : State) (st : StoreId) (address : Byte) (body : List Byte) (idle : s.part.work = [])
    {c : Cm8} (taken : s.part.arrivePage st address body = c) :
    exec (.page st address body) s = .next { s with part := c.chooseIdle } :=
  congrArg Host.Outcome.next ((s.row_of_nil (fun c => c.arrivePage st address body) idle).trans
    (by rw [taken]))

/-- Settles O37. -/
theorem pagesBuildTheExchange : Obligations.PagesBuildTheExchange := by
  unfold Obligations.PagesBuildTheExchange
  refine ⟨?_, ?_, ?_, ?_, ?_⟩
  · intro s st address body i idle hears at_
    obtain ⟨⟨configured, _, addressed⟩, _⟩ := (slotAt_eq_some_iff ..).1 at_
    exact ⟨exec_page s st address body idle (arrivePage_taken _ hears at_ body),
      decide_eq_true configured, addressed⟩
  · intro l more toggle b
    have other (turned : l.toggle = some !b) : l.toggle ≠ some (toggle.getLsbD 0) := by
      rw [turned]
      exact fun h => Bool.not_ne_self _ (Option.some.inj h)
    refine ⟨?_, ?_, ?_, ?_, ?_, ?_⟩
    · intro mask probe flag
      exact takePage_probe_first probe ⟨rfl, (page0Mask_eq_some_iff ..).2 ⟨more, rfl, flag⟩⟩
    · intro mask k a lo hi exchange known turned pages axis flag order flo fhi
      obtain ⟨short, _⟩ := List.getElem?_eq_some_iff.1 axis
      have few : mask.axes.length ≤ 6 := List.length_filter_le _ _
      have number : (BitVec.ofNat 8 (k + 1)).toNat = k + 1 := by
        rw [BitVec.toNat_ofNat]
        omega
      have nonzero : BitVec.ofNat 8 (k + 1) ≠ 0#8 := fun h => by
        have := congrArg BitVec.toNat h
        rw [number] at this
        exact Nat.succ_ne_zero k this
      have next : l.Next mask (BitVec.ofNat 8 (k + 1)) toggle
          ([more, axisByte a] ++ encPos lo ++ encPos hi) (a, ⟨lo, hi⟩) := by
        refine ⟨nonzero, number.trans pages.symm, (pageRange_eq_some_iff ..).2 ⟨more, rfl, ?_, ?_, order,
          flo, fhi⟩⟩
        · rw [number]
          exact axis
        · rw [number]
          exact flag
      refine ((takePage_new exchange (other turned)).trans (takeNew_next known (by omega) next)).trans ?_
      unfold accept
      rw [pages]
    · intro page rest exchange same
      exact takePage_again exchange same
    · intro page rest exchange turned nonzero number
      exact (takePage_new exchange (other turned)).trans (takeNew_number nonzero number _)
    · intro old exchange turned known
      refine ⟨fun mask pages flag => ?_, fun page rest last => ?_⟩
      · refine (takePage_new exchange (other turned)).trans ((takeNew_first known (by omega)
          ⟨rfl, (page0Mask_eq_some_iff ..).2 ⟨more, rfl, flag⟩⟩).trans ?_)
        unfold begin0
        rw [exchange]
      · exact (takePage_new exchange (other turned)).trans (takeNew_last known last _)
    · intro body unused
      unfold takePage
      rcases unused with h | h <;> rw [h]
  · intro l page toggle rest old back first next
    have first_iff : (∃ m, First page toggle rest m) ↔ first := by
      simp only [First, page0Mask_eq_some_iff]
      constructor
      · rintro ⟨m, zero, more, body, flag⟩
        exact ⟨zero, more, m, body, flag⟩
      · rintro ⟨zero, more, m, body, flag⟩
        exact ⟨m, zero, more, body, flag⟩
    have next_iff : (∃ r, l.Next old page toggle rest r) ↔ next := by
      simp only [Next, Prod.exists, pageRange_eq_some_iff]
      constructor
      · rintro ⟨a, r, nonzero, number, more, body, axis, flag, order, flo, fhi⟩
        exact ⟨nonzero, number, more, a, r.lo, r.hi, body, axis, flag, order, flo, fhi⟩
      · rintro ⟨nonzero, number, more, a, lo, hi, body, axis, flag, order, flo, fhi⟩
        exact ⟨a, ⟨lo, hi⟩, nonzero, number, more, body, axis, flag, order, flo, fhi⟩
    refine ⟨fun probe no => ?_, fun exchange known turned noFirst noNext => ?_, fun short brief =>
      takePage_short brief⟩
    · exact takePage_probe_ignored probe fun m h => no (first_iff.1 ⟨m, h⟩)
    · exact (takePage_new exchange turned).trans
        (takeNew_fails known (fun m h => noFirst (first_iff.1 ⟨m, h⟩))
          fun r h => noNext (next_iff.1 ⟨r, h⟩))
  · intro s st address body idle
    exact ⟨fun deaf => exec_page s st address body idle (arrivePage_deaf _ deaf body),
      fun hears at_ => exec_page s st address body idle (arrivePage_bad _ hears at_ body)⟩
  · intro c st address answers
    have same (i : Slot) : c.Answers st address i ↔ answers i := by
      show _ ∧ _ ∧ _ ↔ _ ∧ _ ∧ _ ∧ _
      rw [storeUnder_eq_iff st (c.head i).map c.wireMode, and_assoc]
      rfl
    simp only [← same]
    exact ⟨slotAt_eq_none_iff .., fun i h => (slotAt_eq_some_iff ..).1 h⟩

end Sys2Proof
end

section
/-! PROOF. The schedule of a line at a tick, part by part (O36). -/

namespace Sys2Proof.Machine

/-! ### PASS frames (R141) -/

/-- A PASS frame of a slot that is gone from the line, or too large for the send budget. -/
def passDrops (here : Slot → Bool) (budget : Nat) (f : PassFrame) : Bool :=
  !here f.slot || decide (budget < 6 + f.body.length)

/-- The characters of PASS frames on a head line. -/
def passChars (l : List PassFrame) : Nat := (l.map fun f => 6 + f.body.length).sum

section
variable (here : Slot → Bool) (budget : Nat) (room : Int) (f : PassFrame) (fs : List PassFrame)

theorem takePass_drops (h : passDrops here budget f = true) : takePass here budget room (f :: fs) =
    { takePass here budget room fs with dropped := (takePass here budget room fs).dropped + 1 } :=
  if_pos h

theorem takePass_sends (h : passDrops here budget f = false)
    (fits : (6 + f.body.length : Int) ≤ room) : takePass here budget room (f :: fs) =
      { takePass here budget (room - (6 + f.body.length : Int)) fs with
        sent := f :: (takePass here budget (room - (6 + f.body.length : Int)) fs).sent } :=
  (if_neg (Bool.eq_false_iff.1 h)).trans (if_pos fits)

theorem takePass_stops (h : passDrops here budget f = false)
    (full : ¬ (6 + f.body.length : Int) ≤ room) : takePass here budget room (f :: fs) = ⟨[], 0, f :: fs⟩ :=
  (if_neg (Bool.eq_false_iff.1 h)).trans (if_neg full)

end

/-- The PASS frames that a tick takes: a front part of the queue, of which those to drop are dropped and the
others sent; the sent ones fit the room, and the first that is left does not. -/
structure PassTaken (here : Slot → Bool) (budget : Nat) (room : Int) (q seen : List PassFrame)
    (t : PassTake) : Prop where
  queue : q = seen ++ t.left
  sent : t.sent = seen.filter fun f => !passDrops here budget f
  dropped : t.dropped = (seen.filter (passDrops here budget)).length
  fits : (passChars t.sent : Int) ≤ max room 0
  full : ∀ f rest, t.left = f :: rest → passDrops here budget f = false ∧
    room < ((passChars t.sent + (6 + f.body.length) : Nat) : Int)

theorem passTaken (here : Slot → Bool) (budget : Nat) (room : Int) (q : List PassFrame) :
    ∃ seen, PassTaken here budget room q seen (takePass here budget room q) := by
  induction q generalizing room with
  | nil => exact ⟨[], rfl, rfl, rfl, le_max_right _ _, nofun⟩
  | cons f fs ih =>
    cases drops : passDrops here budget f with
    | true =>
      obtain ⟨seen, rest⟩ := ih room
      rw [takePass_drops here budget room f fs drops]
      exact ⟨f :: seen, congrArg (f :: ·) rest.queue,
        by rw [List.filter_cons_of_neg (by rw [drops]; decide)]; exact rest.sent,
        by rw [List.filter_cons_of_pos drops, List.length_cons]; exact congrArg (· + 1) rest.dropped,
        rest.fits, rest.full⟩
    | false =>
      by_cases fits : (6 + f.body.length : Int) ≤ room
      · obtain ⟨seen, rest⟩ := ih (room - (6 + f.body.length : Int))
        rw [takePass_sends here budget room f fs drops fits]
        have chars (l : List PassFrame) : passChars (f :: l) = 6 + f.body.length + passChars l := rfl
        refine ⟨f :: seen, congrArg (f :: ·) rest.queue,
          by rw [List.filter_cons_of_pos (by rw [drops]; rfl)]; exact congrArg (f :: ·) rest.sent,
          by rw [List.filter_cons_of_neg (by rw [drops]; decide)]; exact rest.dropped, ?_,
          fun g tail left => ?_⟩
        · have := rest.fits
          rw [chars]
          omega
        · obtain ⟨kept, more⟩ := rest.full g tail left
          rw [chars]
          exact ⟨kept, by omega⟩
      · rw [takePass_stops here budget room f fs drops fits]
        refine ⟨[], rfl, rfl, rfl, le_max_right _ _, fun g tail left => ?_⟩
        obtain ⟨rfl, rfl⟩ := List.cons.inj left
        exact ⟨drops, by simpa [passChars] using fits⟩

namespace Cm8

variable (c : Cm8) (st : StoreId) (i : Slot)

/-! ### What the send budget depends on (R138) -/

section
variable {c} {d : Cm8} (maps : ∀ i, (d.head i).map = (c.head i).map) (setups : ∀ p, d.setup p = c.setup p)
include maps setups

theorem slotsOn_congr : d.slotsOn st = c.slotsOn st := by
  have lines (i : Slot) : d.lineOf i = c.lineOf i := by
    unfold lineOf
    dsimp only
    rw [maps, setups]
  unfold slotsOn Head.isConfigured
  refine List.filter_congr fun i _ => ?_
  rw [maps, lines]

theorem sendBudget_congr (rate : d.clock.rate = c.clock.rate) : d.sendBudget st = c.sendBudget st := by
  have sums (f : HeadMap → Nat) : d.sumSlots st f = c.sumSlots st f := by
    rw [sumSlots_eq, sumSlots_eq, slotsOn_congr st maps setups]
    simp only [maps]
  unfold sendBudget capacity reserve
  rw [sums, setups, rate]

end

/-! ### SETPOINT frames (R139) -/

theorem head_placeSetpoint (j : Slot) : (placeSetpoint st c i).head j =
    if j = i then (c.head i).sendSetpoint else c.head j := by
  unfold placeSetpoint place
  rw [head_onHead, head_onStore, head_onStore]

theorem outgoing_placeSetpoint : ((placeSetpoint st c i).store st).outgoing =
    (c.store st).outgoing ++ [(c.head i).setpointFrame] := by
  unfold placeSetpoint place
  rw [store_onHead, store_onStore_self]

/-- What the SETPOINT frames of a list of slots leave, and how many go out. -/
theorem placeSetpoints_keeps (l : List Slot) :
    let a := l.foldl (placeSetpoint st) c
    (∀ i, (a.head i).map = (c.head i).map) ∧ (∀ p, a.setup p = c.setup p) ∧ a.clock = c.clock ∧
      (a.store st).outgoing.length = (c.store st).outgoing.length + l.length := by
  induction l generalizing c with
  | nil => exact ⟨fun _ => rfl, fun _ => rfl, rfl, rfl⟩
  | cons j l ih =>
    obtain ⟨maps, setups, clock, out⟩ := ih (placeSetpoint st c j)
    refine ⟨fun i => (maps i).trans ?_, fun p => (setups p).trans ?_, clock.trans ?_, out.trans ?_⟩
    · rw [head_placeSetpoint]
      split
      · rename_i same
        rw [same]
        rfl
      · rfl
    · exact setup_onStore ..
    · exact clock_onStore ..
    · rw [outgoing_placeSetpoint, List.length_append, List.length_cons, List.length_cons,
        List.length_nil]
      omega

theorem carriesPositions_iff (a : Activity) :
    a.carriesPositions = true ↔ a ≠ .offline ∧ ∀ w, a ≠ .halted w := by
  cases a with
  | offline => exact iff_of_false nofun fun h => h.1 rfl
  | halted w => exact iff_of_false nofun fun h => h.2 w rfl
  | _ => exact iff_of_true rfl ⟨nofun, nofun⟩

/-! ### The enrolment frame (R140, R153, R156) -/

/-- A slot of the line with an enrolment frame pending. -/
def Enrols (i : Slot) : Prop := i ∈ c.slotsOn st ∧ (c.head i).link.pending ≠ .none

theorem enrolFrame_isSome_iff : (c.enrolFrame i).isSome = true ↔ (c.head i).link.pending ≠ .none := by
  unfold enrolFrame
  dsimp only
  cases (c.head i).link.pending <;> simp

theorem enrols_iff : ((c.slotsOn st).contains i && (c.enrolFrame i).isSome) = true ↔ c.Enrols st i := by
  rw [Bool.and_eq_true, enrolFrame_isSome_iff, List.contains_iff_mem]
  rfl

theorem nextEnrol_none (h : ∀ i, ¬ c.Enrols st i) : c.nextEnrol st = none := by
  unfold nextEnrol
  exact List.find?_eq_none.2 fun i _ hi => h i ((enrols_iff ..).1 hi)

theorem nextEnrol_some (n : Fin 8) (waits : c.Enrols st ((c.store st).roundRobin + 1 + n))
    (first : ∀ m : Fin 8, m < n → ¬ c.Enrols st ((c.store st).roundRobin + 1 + m)) :
    c.nextEnrol st = some ((c.store st).roundRobin + 1 + n) := by
  unfold nextEnrol
  dsimp only
  have found := (find_slots_eq_some_iff (fun m => (c.slotsOn st).contains ((c.store st).roundRobin + 1 + m) &&
    (c.enrolFrame ((c.store st).roundRobin + 1 + m)).isSome) n).2 ⟨(enrols_iff ..).2 waits,
      fun m hm => Bool.eq_false_iff.2 fun h => first m hm ((enrols_iff ..).1 h)⟩
  rw [List.find?_map]
  exact congrArg (Option.map _) found

theorem placeEnrol_placed {f : LineFrame} {room : Int} (next : c.nextEnrol st = some i)
    (frame : c.enrolFrame i = some f) (fits : (f.size : Int) ≤ room) : c.placeEnrol st room =
      ((c.setStore st { c.store st with
        outgoing := (c.store st).outgoing ++ [f], roundRobin := i }).enrolPlaced i, room - f.size) := by
  unfold placeEnrol place
  rw [next]
  dsimp only
  rw [frame]
  dsimp only
  rw [if_pos fits, onStore_onStore]
  rfl

theorem placeEnrol_full {f : LineFrame} {room : Int} (next : c.nextEnrol st = some i)
    (frame : c.enrolFrame i = some f) (full : room < (f.size : Int)) :
    c.placeEnrol st room = (c, room) := by
  unfold placeEnrol
  rw [next]
  dsimp only
  rw [frame]
  exact if_neg (Int.not_le.2 full)

theorem placeEnrol_none {room : Int} (next : c.nextEnrol st = none) : c.placeEnrol st room = (c, room) := by
  unfold placeEnrol
  rw [next]

theorem linkedOn_iff : c.linkedOn st i = true ↔ (c.head i).link.state = .linked ∧ i ∈ c.slotsOn st := by
  unfold linkedOn slotsOn Head.isLinked
  simp [and_assoc]

theorem placePass_eq (here : Slot → Bool) (room : Int)
    (on : ∀ i, here i = true ↔ (c.head i).link.state = .linked ∧ i ∈ c.slotsOn st) :
    c.placePass st room =
      (c.setStore st { c.store st with
        pass := (takePass here (c.sendBudget st) room (c.store st).pass).left,
        outgoing := (c.store st).outgoing ++
          (takePass here (c.sendBudget st) room (c.store st).pass).sent.map c.passLineFrame }).bumps
        (.line st .passDrop) (takePass here (c.sendBudget st) room (c.store st).pass).dropped := by
  have same : here = c.linkedOn st := funext fun i =>
    Bool.eq_iff_iff.2 ((on i).trans (c.linkedOn_iff st i).symm)
  unfold placePass place
  dsimp only
  rw [same, onStore_onStore]
  rfl

/-- The reception of a SPLIT line is cut when the line begins to send (R144, R148). -/
theorem cut_iff (before : LineStore) (receiving relined : Bool) :
    (decide (c.wireMode st.pair = .split) && before.outgoing.isEmpty &&
      (receiving || before.incoming.isSome) && !relined && !(c.store st).outgoing.isEmpty) = true ↔
    (c.pair st.pair).inForce.mode = .split ∧ before.outgoing = [] ∧
      (receiving = true ∨ before.incoming.isSome = true) ∧ relined = false ∧
      (c.store st).outgoing ≠ [] := by
  simp only [Bool.and_eq_true, decide_eq_true_iff, List.isEmpty_iff, Bool.or_eq_true,
    Bool.not_eq_true', List.isEmpty_eq_false_iff, and_assoc]
  rfl

/-! ### The whole schedule (R139) -/

/-- The slots of a line that a schedule sends setpoints, ascending. -/
def linkedSlots : List Slot := Slot.all.filter fun i =>
  decide (i ∈ c.slotsOn st ∧ (c.head i).link.state = .linked)

theorem linkedSlots_eq : (c.slotsOn st).filter (fun i => (c.head i).isLinked) = c.linkedSlots st := by
  unfold linkedSlots slotsOn
  rw [List.filter_filter]
  refine List.filter_congr fun i _ => ?_
  simp [Head.isLinked, Bool.and_comm]

theorem goneOut_nil (n : Nat) : goneOut [] n = 0 := Nat.min_zero n

end Cm8

end Sys2Proof.Machine

namespace Sys2Proof

open Sys2Proof.Machine Sys2Proof.Machine.Cm8

/-- Settles O36. -/
theorem scheduleFillsLine : Obligations.ScheduleFillsLine := by
  unfold Obligations.ScheduleFillsLine
  refine ⟨?_, ?_, ?_, ?_, ?_, ?_, ?_, ?_⟩
  · intro c st i h t driven
    have driven_iff : h.activity.carriesPositions = true ↔ driven := carriesPositions_iff ..
    have head : t.head i = h.sendSetpoint := by
      show (placeSetpoint st c i).head i = _
      rw [head_placeSetpoint, if_pos rfl]
    rw [head]
    refine ⟨rfl, ⟨h.setpointFrame, outgoing_placeSetpoint .., rfl, rfl, fun d => if_pos (driven_iff.2 d),
      fun d => if_neg (driven_iff.not.2 d)⟩, ⟨h.setpointEntry, rfl, rfl, rfl, fun d => ⟨_, if_pos
      (driven_iff.2 d), fun a configured => ?_⟩, fun d => if_neg (driven_iff.not.2 d)⟩, rfl,
      fun j other => ?_⟩
    · rw [PerAxis.get_gen, if_pos configured]
      rfl
    · show (placeSetpoint st c i).head j = _
      rw [head_placeSetpoint, if_neg other]
  · intro here budget room q t drops
    obtain ⟨seen, taken⟩ := passTaken here budget room q
    exact ⟨seen, taken.queue, taken.sent, taken.dropped, taken.fits, taken.full⟩
  · intro c st room e waits
    refine ⟨fun none => placeEnrol_none c st (nextEnrol_none c st none), fun n => ?_⟩
    intro i now first
    have next : c.nextEnrol st = some i := nextEnrol_some c st n now first
    obtain ⟨f, frame⟩ := Option.isSome_iff_exists.1 ((enrolFrame_isSome_iff c i).2 now.2)
    refine ⟨f, ?_, fun probe => ?_, fun page toggle fresh ack => ?_,
      fun fits => placeEnrol_placed c st i next frame fits,
      fun full => placeEnrol_full c st i next frame full⟩
    all_goals
      unfold enrolFrame at frame
      dsimp only at frame
    · split at frame
      · nomatch frame
      · exact Option.some.inj frame ▸ rfl
      · exact Option.some.inj frame ▸ rfl
    · rw [probe] at frame
      exact Option.some.inj frame ▸ ⟨rfl, rfl⟩
    · rw [ack] at frame
      exact Option.some.inj frame ▸ ⟨rfl, rfl⟩
  · intro c i probe
    unfold enrolPlaced
    dsimp only
    rw [probe]
  · intro c i mask known l page toggle fresh ack last
    have last_iff : l.acksLast page = true ↔ last := by
      unfold Link.acksLast
      rw [Bool.and_eq_true, Link.lastAccepted_iff known, decide_eq_true_iff]
      unfold Link.lastPage
      rw [show l.headMask = some mask from known]
      rfl
    have placed : c.enrolPlaced i = if l.acksLast page then c.enterLinked i else c.onHead i fun h =>
        { h with link := { h.link with
          pending := .none, pageTimer := if fresh then some 0 else h.link.pageTimer } } := by
      unfold enrolPlaced
      dsimp only
      rw [show (c.head i).link.pending = .pageAck page toggle fresh from ack]
    exact ⟨fun yes => placed.trans (if_pos (last_iff.2 yes)),
      fun no => placed.trans (if_neg (last_iff.not.2 no))⟩
  · intro c st here room on q t
    refine ⟨placePass_eq c st here room on, fun i => ?_, fun d id n => ⟨rfl, rfl⟩⟩
    rw [mem_slotsOn]
    exact and_congr_right fun _ => lineOf_eq_iff ..
  · intro before c st receiving relined cut
    exact ⟨fun yes => if_pos ((cut_iff ..).2 yes), fun no => if_neg ((cut_iff ..).not.2 no)⟩
  · intro c st sent receiving relined size gone linked a room
    obtain ⟨maps, setups, clock, out⟩ := placeSetpoints_keeps c st (c.linkedSlots st)
    refine ⟨out, ?_⟩
    have placed : c.placeSetpoints st = a := by
      unfold placeSetpoints
      rw [linkedSlots_eq]
      rfl
    have went : (goneOut (c.store st).outgoing sent : Int) = gone := by
      show _ = ((match (c.store st).outgoing with
        | [] => 0
        | f :: _ => min sent (size f) : Nat) : Int)
      cases (c.store st).outgoing with
      | nil => rw [goneOut_nil]
      | cons f fs => rfl
    have budget : a.sendBudget st = c.sendBudget st := sendBudget_congr st maps setups
      (congrArg Timebase.rate clock)
    unfold formSchedule
    dsimp only
    rw [placed, budget, went]
    rfl

end Sys2Proof
end

section
/-! PROOF. Reports: the first report, the following check, overrun and forwarding (O44 to O46). -/

namespace Sys2Proof.Machine.Cm8

variable {c d e : Cm8} {i : Slot} {t u : Tracker}

/-! ### What the tracker's operations keep -/

theorem Turned.counter {h : Head} {taken : ZoneSet} {r : List (Option Slot × Option Byte × Event)}
    (p : c.Turned d i h taken r) (st : StoreId) (k : LineCounter) :
    d.counter (.line st k) = c.counter (.line st k) := by
  have same : d.store st = c.store st := by
    unfold Cm8.store
    rw [p.pairs]
  exact congrArg (fun s => s.counters.get k) same

/-- `d` is `c` after work of the Report Tracker of one slot: its tracker is `t`, its activity and queue may be
those of a halt, and a HALTED head keeps its halt. -/
structure Tracked (c d : Cm8) (i : Slot) (t : Tracker) : Prop where
  head : ∃ a q, d.head i = { c.head i with activity := a, queue := q, track := t }
  halted : ∀ w, (c.head i).activity = .halted w → (d.head i).activity = .halted w
  others : ∀ j, j ≠ i → d.head j = c.head j
  frame : d.clock.frame = c.clock.frame
  overruns : ∀ st, d.counter (.line st .overrun) = c.counter (.line st .overrun)

namespace Tracked

theorem track (p : c.Tracked d i t) : (d.head i).track = t := by
  obtain ⟨a, q, h⟩ := p.head
  rw [h]

theorem trans (p : c.Tracked d i t) (q : d.Tracked e i u) : c.Tracked e i u where
  head := by
    obtain ⟨_, _, hd⟩ := p.head
    obtain ⟨a, x, he⟩ := q.head
    exact ⟨a, x, by rw [he, hd]⟩
  halted w h := q.halted w (p.halted w h)
  others j n := (q.others j n).trans (p.others j n)
  frame := q.frame.trans p.frame
  overruns st := (q.overruns st).trans (p.overruns st)

theorem refl (c : Cm8) (i : Slot) : c.Tracked c i (c.head i).track where
  head := ⟨_, _, rfl⟩
  halted _ h := h
  others _ _ := rfl
  frame := rfl
  overruns _ := rfl

theorem as (p : c.Tracked d i t) (same : t = u) : c.Tracked d i u := same ▸ p

end Tracked

variable (c i)

theorem tracked_onTrack (f : Tracker → Tracker) : c.Tracked (c.onTrack i f) i (f (c.head i).track) where
  head := ⟨_, _, head_onTrack_self ..⟩
  halted w h := by
    rw [head_onTrack_self]
    exact h
  others j n := by simp [n]
  frame := rfl
  overruns _ := rfl

theorem tracked_haltRequest (cause : HaltCause) :
    c.Tracked (c.haltRequest i cause) i (c.head i).track := by
  obtain ⟨a, q, r, turned⟩ := c.turned_haltRequest i cause
  refine ⟨⟨a, q, turned.head⟩, fun w h => ?_, turned.others, congrArg Timebase.frame turned.rest.1,
    fun st => turned.counter st _⟩
  rw [haltRequest_halted c i cause h]
  exact h

theorem tracked_stale (st : StoreId) : c.Tracked (c.bump (.line st .stale)) i (c.head i).track := by
  have counted := c.counted_bump (.line st .stale)
  exact ⟨⟨_, _, counted.head i⟩, fun w h => by rw [counted.head]; exact h, fun j _ => counted.head j,
    counted.frame, fun _ => counter_bump_ne _ (by simp)⟩

/-! ### Storing a report (R167) -/

/-- The tracker with a report's positions and flags. -/
def stored (t : Tracker) (r : Report) : Tracker :=
  { t with measured := some r.measured, servoFault := r.servoFault, localControl := r.localControl }

theorem tracked_storeReport (r : Report) :
    c.Tracked (c.storeReport i r) i (stored (c.head i).track r) := by
  have first := c.tracked_onTrack i fun t => stored t r
  unfold storeReport
  dsimp only
  split
  · exact first.trans ((tracked_haltRequest _ i .head).as first.track)
  · exact first

theorem storeReport_quiet {r : Report} (quiet : r.servoFault = false) :
    c.storeReport i r = c.onTrack i fun t => stored t r :=
  if_neg (Bool.eq_false_iff.1 quiet)

/-- A report with the servo fault flag halts a head that is neither OFFLINE nor HALTED (R169). -/
theorem storeReport_eq (r : Report) : c.storeReport i r =
    if r.servoFault = true ∧ (c.head i).activity ≠ .offline ∧ (c.head i).activity.isHalted = false then
      (c.onTrack i fun t => stored t r).enterHalted i .head
    else c.onTrack i fun t => stored t r := by
  have state : ((c.onTrack i fun t => stored t r).head i).activity = (c.head i).activity := by
    rw [head_onTrack_self]
  cases fault : r.servoFault with
  | false =>
    rw [if_neg fun h => Bool.false_ne_true h.1]
    exact c.storeReport_quiet i fault
  | true =>
    have halts : c.storeReport i r = (c.onTrack i fun t => stored t r).haltRequest i .head := if_pos fault
    rw [halts]
    cases act : (c.head i).activity with
    | offline =>
      rw [if_neg fun h => h.2.1 rfl, haltRequest_offline _ i _ (state.trans act)]
      rfl
    | halted w => rw [if_neg fun h => Bool.noConfusion h.2.2, haltRequest_halted _ i _ (state.trans act)]
    | _ =>
      rw [if_pos ⟨rfl, nofun, rfl⟩, haltRequest_running _ i _ (by rw [state, act]; nofun)
        (by rw [state, act]; nofun)]

theorem storeReport_faulted {r : Report} (fault : r.servoFault = true)
    (off : (c.head i).activity ≠ .offline) : ((c.storeReport i r).head i).activity.isHalted = true ∧
      ((c.head i).activity.isHalted = false → ((c.storeReport i r).head i).activity = .halted .head) := by
  have halts (run : (c.head i).activity.isHalted = false) :
      ((c.storeReport i r).head i).activity = .halted .head := by
    rw [storeReport_eq, if_pos ⟨fault, off, run⟩]
    exact congrArg Head.activity (turned_enterHalted ..).head
  refine ⟨?_, halts⟩
  cases run : (c.head i).activity.isHalted with
  | false => rw [halts run]; rfl
  | true =>
    obtain ⟨w, hw⟩ := (Activity.isHalted_iff _).1 run
    rw [(c.tracked_storeReport i r).halted w hw]
    rfl

/-! ### The following check (R166, R168) -/

theorem matching_none_iff (h : Head) (r : Report) :
    matching h r = none ↔ ∀ x ∈ h.track.history, x.seq ≠ r.echo := by
  unfold matching
  simp [List.find?_eq_none]

theorem isNone_matching (h : Head) (r : Report) :
    (matching h r).isNone = decide (∀ x ∈ h.track.history, x.seq ≠ r.echo) := by
  rw [Bool.eq_iff_iff, Option.isNone_iff_eq_none, matching_none_iff, decide_eq_true_iff]

/-- The following check is made against the entry (R168). -/
def Checked (h : Head) (r : Report) (e : HistoryEntry) : Prop :=
  e.mask = h.map.mask ∧ h.activity.isHalted = false ∧ h.activity ≠ .offline ∧ r.localControl = false

theorem checkAgainst_pos {h : Head} {r : Report} {e : HistoryEntry} (made : Checked h r e) :
    checkAgainst h r e = e.positions := by
  obtain ⟨mask, run, off, near⟩ := made
  unfold checkAgainst
  rw [mask, run, near, Bool.eq_false_iff.2 fun h => off ((Activity.isOffline_iff _).1 h)]
  simp

theorem checkAgainst_neg {h : Head} {r : Report} {e : HistoryEntry} (made : ¬ Checked h r e) :
    checkAgainst h r e = none := by
  unfold checkAgainst
  refine if_neg fun h' => made ?_
  simp only [Bool.and_eq_true, decide_eq_true_iff, Bool.not_eq_true'] at h'
  obtain ⟨⟨⟨mask, run⟩, off⟩, near⟩ := h'
  exact ⟨mask, run, fun h => Bool.eq_false_iff.1 off ((Activity.isOffline_iff _).2 h), near⟩

theorem exceeds_iff (h : Head) (want got : PerAxis Int) : h.exceeds want got = true ↔
    ∃ a, h.configured a = true ∧ (h.axes.get a).followLimit < (want.get a - got.get a).natAbs := by
  simp [Head.exceeds, Head.mem_axisList]

theorem followStep_stale {r : Report} (stale : matching (c.head i) r = none) : c.followStep i r =
    if r.localControl then (c.bump (.line (c.lineOf i) .stale)).onTrack i fun t => { t with run := 0 }
    else c.bump (.line (c.lineOf i) .stale) := by
  unfold followStep
  dsimp only
  rw [stale]

theorem followStep_unchecked {r : Report} {e : HistoryEntry} (found : matching (c.head i) r = some e)
    (check : checkAgainst (c.head i) r e = none) : c.followStep i r =
      if r.localControl then c.onTrack i fun t => { t with run := 0 } else c := by
  unfold followStep
  dsimp only
  rw [found]
  dsimp only
  rw [check]

theorem followStep_checked {r : Report} {e : HistoryEntry} {want : PerAxis Int}
    (found : matching (c.head i) r = some e) (check : checkAgainst (c.head i) r e = some want) :
    c.followStep i r =
      if (c.head i).exceeds want r.measured &&
          decide ((c.head i).followCount ≤ followRun (c.head i) r want) then
        (c.onTrack i fun t => { t with run := followRun (c.head i) r want }).haltRequest i .follow
      else c.onTrack i fun t => { t with run := followRun (c.head i) r want } := by
  unfold followStep
  dsimp only
  rw [found]
  dsimp only
  rw [check]

/-- A report with local control set makes the run 0, stale or not (R168). -/
theorem followStep_local {r : Report} (near : r.localControl = true) : c.followStep i r =
    (if matching (c.head i) r = none then c.bump (.line (c.lineOf i) .stale) else c).onTrack i
      fun t => { t with run := 0 } := by
  cases found : matching (c.head i) r with
  | none => rw [followStep_stale c i found, if_pos near, if_pos rfl]
  | some e =>
    have check : checkAgainst (c.head i) r e = none :=
      checkAgainst_neg fun made => Bool.noConfusion (near.symm.trans made.2.2.2)
    rw [followStep_unchecked c i found check, if_pos near, if_neg nofun]

theorem tracked_followStep (r : Report) : ∃ n,
    c.Tracked (c.followStep i r) i { (c.head i).track with run := n } ∧ (r.localControl = true → n = 0) := by
  cases near : r.localControl with
  | true =>
    refine ⟨0, ?_, fun _ => rfl⟩
    rw [followStep_local c i near]
    have first : c.Tracked (if matching (c.head i) r = none then c.bump (.line (c.lineOf i) .stale) else c)
        i (c.head i).track := by
      split
      · exact c.tracked_stale i _
      · exact .refl c i
    exact first.trans ((tracked_onTrack _ i fun t => { t with run := 0 }).as (by rw [first.track]))
  | false =>
    have same : c.Tracked c i { (c.head i).track with run := (c.head i).track.run } := .refl c i
    cases found : matching (c.head i) r with
    | none =>
      rw [followStep_stale c i found, near]
      exact ⟨_, (c.tracked_stale i _).as rfl, nofun⟩
    | some e =>
      cases check : checkAgainst (c.head i) r e with
      | none =>
        rw [followStep_unchecked c i found check, near]
        exact ⟨_, same, nofun⟩
      | some want =>
        have first := c.tracked_onTrack i fun t => { t with run := followRun (c.head i) r want }
        refine ⟨followRun (c.head i) r want, ?_, nofun⟩
        rw [followStep_checked c i found check]
        split
        · exact first.trans ((tracked_haltRequest _ i _).as first.track)
        · exact first

/-- The following check on a matched report: an axis beyond its limit adds one to the run, which halts the
head at the follow count; otherwise the run becomes 0 (R168). -/
theorem followStep_run {r : Report} {e : HistoryEntry} {want : PerAxis Int}
    (found : matching (c.head i) r = some e) (positions : e.positions = some want)
    (made : Checked (c.head i) r e) :
    let t := (c.followStep i r).head i
    let beyond := ∃ a, (c.head i).configured a = true ∧
      ((c.head i).axes.get a).followLimit < (want.get a - r.measured.get a).natAbs
    let run := min ((c.head i).track.run + 1) 8
    (beyond → t.track.run = run ∧
      ((c.head i).followCount ≤ run → t.activity = .halted .follow) ∧
      (run < (c.head i).followCount → t.activity = (c.head i).activity)) ∧
    (¬ beyond → t.track.run = 0 ∧ t.activity = (c.head i).activity) := by
  intro t beyond run
  have step := c.followStep_checked i found ((checkAgainst_pos made).trans positions)
  have state (n : Nat) : ((c.onTrack i fun t => { t with run := n }).head i).activity =
      (c.head i).activity := by
    rw [head_onTrack_self]
  have runs (n : Nat) : ((c.onTrack i fun t => { t with run := n }).head i).track.run = n := by
    rw [head_onTrack_self]
  refine ⟨fun far => ?_, fun close => ?_⟩
  · have far' : (c.head i).exceeds want r.measured = true := (exceeds_iff ..).2 far
    have next : followRun (c.head i) r want = run := if_pos far'
    rw [next, far', Bool.true_and] at step
    have halted (full : (c.head i).followCount ≤ run) :
        c.followStep i r = (c.onTrack i fun t => { t with run := run }).enterHalted i .follow := by
      rw [step, if_pos (decide_eq_true full)]
      exact haltRequest_running _ i _ (by rw [state]; exact made.2.2.1) fun w h => by
        rw [state] at h
        exact Bool.noConfusion (made.2.1.symm.trans ((Activity.isHalted_iff _).2 ⟨w, h⟩))
    have goes (room : run < (c.head i).followCount) :
        c.followStep i r = c.onTrack i fun t => { t with run := run } := by
      rw [step, if_neg (by rw [decide_eq_true_iff]; exact Nat.not_le.2 room)]
    refine ⟨?_, fun full => ?_, fun room => ?_⟩
    · show ((c.followStep i r).head i).track.run = run
      rcases Nat.lt_or_ge run (c.head i).followCount with room | full
      · rw [goes room, runs]
      · rw [halted full, (turned_enterHalted ..).head]
        exact runs run
    · show ((c.followStep i r).head i).activity = _
      rw [halted full, (turned_enterHalted ..).head]
    · show ((c.followStep i r).head i).activity = _
      rw [goes room, state]
  · have close' : (c.head i).exceeds want r.measured = false :=
      Bool.eq_false_iff.2 fun h => close ((exceeds_iff ..).1 h)
    have next : followRun (c.head i) r want = 0 := if_neg (Bool.eq_false_iff.1 close')
    rw [next, close', Bool.false_and, if_neg Bool.false_ne_true] at step
    show ((c.followStep i r).head i).track.run = 0 ∧ ((c.followStep i r).head i).activity = _
    rw [step]
    exact ⟨runs 0, state 0⟩

/-! ### Forwarding (R170, R172, R173) -/

/-- The report that the upstream slot takes (R173). -/
def forwardedAs (h : Head) (f : BitVec 32) (r : Report) (stale : Bool) : ForwardedReport :=
  { frame := f, echo := r.echo, servoFault := r.servoFault, localControl := r.localControl, stale := stale,
    superseded := h.track.upstream.isSome, mask := h.map.mask,
    positions := .gen fun a => if h.configured a then h.inward r.measured a else 0 }

theorem placeReport_eq (r : Report) (stale : Bool) : c.placeReport i r stale =
    c.onTrack i fun t => { t with upstream := some { forwardedAs (c.head i) c.clock.frame r stale with
      superseded := t.upstream.isSome } } := rfl

theorem forwardedAs_fields (h : Head) (f : BitVec 32) (r : Report) (stale : Bool) (a : Axis)
    (configured : h.configured a = true) : (forwardedAs h f r stale).positions.get a =
      r.measured.get a - (h.axes.get a).trim := by
  unfold forwardedAs
  rw [PerAxis.get_gen, if_pos configured]
  rfl

theorem tracked_placeReport (r : Report) (stale : Bool) : c.Tracked (c.placeReport i r stale) i
    { (c.head i).track with upstream := some (forwardedAs (c.head i) c.clock.frame r stale) } := by
  rw [placeReport_eq]
  exact tracked_onTrack ..

/-- The tracker after the offer of a first report (R172). -/
def offered (h : Head) (f : BitVec 32) (r : Report) (stale : Bool) (saved : Nat) : Tracker :=
  if h.forward.decimation = 0 then { h.track with interval := some ⟨saved, false⟩ }
  else if h.forward.decimation ≤ h.track.decimation + 1 then
    { h.track with decimation := 0, interval := some ⟨saved, true⟩,
                   upstream := some (forwardedAs h f r stale) }
  else { h.track with decimation := h.track.decimation + 1, interval := some ⟨saved, false⟩ }

theorem tracked_offerReport (r : Report) (stale : Bool) (saved : Nat) :
    c.Tracked (c.offerReport i r stale saved) i (offered (c.head i) c.clock.frame r stale saved) := by
  unfold offerReport offered
  dsimp only
  split
  · exact tracked_onTrack ..
  · split
    · have counted := c.tracked_onTrack i fun t => { t with decimation := 0 }
      have placed := counted.trans (tracked_placeReport _ i r stale)
      have marked := placed.trans (tracked_onTrack _ i fun t => { t with interval := some ⟨saved, true⟩ })
      rw [placed.track, counted.track] at marked
      refine marked.as ?_
      rw [head_onTrack_self]
      rfl
    · have counted := c.tracked_onTrack i fun t =>
        { t with decimation := (c.head i).track.decimation + 1 }
      have marked := counted.trans (tracked_onTrack _ i fun t => { t with interval := some ⟨saved, false⟩ })
      rw [counted.track] at marked
      exact marked

/-! ### The first report (R85) -/

/-- The head at its measured position. -/
def placed (h : Head) (r : Report) : Head := (h.adopt r.measured).settleSetpoint

/-- The part with the head at its measured position. -/
def atReport (r : Report) : Cm8 := c.onHead i fun h => placed h r

theorem firstReport_eq (r : Report) : c.firstReport i r =
    if ((c.atReport i r).head i).insideLimits = false then (c.atReport i r).haltRequest i .range
    else if (c.atReport i r).conflicted i then (c.atReport i r).haltRequest i .conflict
    else ((c.atReport i r).giveFree i ((c.atReport i r).residentZones i)).toFree i := by
  show (if !((c.atReport i r).head i).insideLimits then _ else _) = _
  simp only [Bool.not_eq_true']
  rfl

/-- A first report turns its head: the setpoints are the measured ones, the activity and the queue those of
a halt or of a free head, and zones may be taken. -/
theorem turned_firstReport (r : Report) : ∃ a q taken records, c.Turned (c.firstReport i r) i
    { placed (c.head i) r with activity := a, queue := q } taken records := by
  have at_ : c.Turned (c.atReport i r) i (placed (c.head i) r) 0#16 [] := turned_onHead c i _
  have halts (cause : HaltCause) : ∃ a q taken records, c.Turned ((c.atReport i r).haltRequest i cause) i
      { placed (c.head i) r with activity := a, queue := q } taken records := by
    obtain ⟨a, q, records, halted⟩ := (c.atReport i r).turned_haltRequest i cause
    rw [at_.head] at halted
    exact ⟨a, q, _, _, at_.trans halted⟩
  rw [firstReport_eq]
  split
  · exact halts .range
  · split
    · exact halts .conflict
    · have given := at_.trans (turned_giveFree _ i ((c.atReport i r).residentZones i))
      have freed := given.transTaken (turned_toFree _ i)
      rw [given.head, at_.head] at freed
      exact ⟨_, _, _, _, freed⟩

/-- An OFFLINE head leaves that state at its first report. -/
theorem firstReport_leaves (r : Report) (off : (c.head i).activity = .offline) :
    ((c.firstReport i r).head i).activity ≠ .offline := by
  have state : ((c.atReport i r).head i).activity = .offline := by
    unfold atReport
    rw [head_onHead_self]
    exact off
  have halts (cause : HaltCause) (h : HaltCause.haltsOffline cause = true) :
      (((c.atReport i r).haltRequest i cause).head i).activity ≠ .offline := by
    rw [haltRequest_offline _ i cause state, if_pos h, (turned_enterHalted ..).head]
    nofun
  rw [firstReport_eq]
  split
  · exact halts .range rfl
  · split
    · exact halts .conflict rfl
    · rw [(turned_toFree ..).head]
      show freeActivity _ _ ≠ _
      unfold freeActivity
      split
      · split
        · split <;> nofun
        · nofun
      · nofun

end Sys2Proof.Machine.Cm8
end

section
/-! PROOF. A report is taken: its body read, its engine's part, its place in the interval (O44 to O46). -/

namespace Sys2Proof.Machine

/-! ### The body of a report (R193) -/

theorem AxisMask.nodup_axes (m : AxisMask) : m.axes.Nodup :=
  List.Nodup.filter _ (show Axis.all.Nodup by decide)

theorem readPositions_none (as : List Axis) (body : List Byte) (t : PerAxis Int)
    (size : body.length ≠ 3 * as.length) : readPositions as body t = none := by
  induction as generalizing body t with
  | nil =>
    match body with
    | [] => exact absurd rfl size
    | _ :: _ => rfl
  | cons a as ih =>
    match body with
    | [] | [_] | [_, _] => rfl
    | b2 :: b1 :: b0 :: rest =>
      exact ih rest _ fun h => size (by simp only [List.length_cons, h]; omega)

/-- Positions laid out in the order of distinct axes are read back, the other axes keeping theirs. -/
theorem readPositions_encPos (as : List Axis) (nodup : as.Nodup) (ps : List Int) (t : PerAxis Int)
    (size : ps.length = as.length) (fits : ∀ p ∈ ps, fitsPosition p = true) :
    ∃ m, readPositions as (ps.flatMap encPos) t = some m ∧ (∀ b, b ∉ as → m.get b = t.get b) ∧
      ∀ (n : Nat) (a : Axis), as[n]? = some a → ps[n]? = some (m.get a) := by
  induction as generalizing ps t with
  | nil =>
    obtain rfl := List.length_eq_zero_iff.1 size
    exact ⟨t, rfl, fun _ _ => rfl, nofun⟩
  | cons a as ih =>
    match ps with
    | [] => nomatch size
    | p :: ps =>
      obtain ⟨new, rest⟩ := List.nodup_cons.1 nodup
      obtain ⟨b2, b1, b0, bytes, value⟩ := encPos_eq (fits p (List.mem_cons_self ..))
      obtain ⟨m, read, others, mine⟩ := ih rest ps (t.set a p) (Nat.succ.inj size)
        fun q hq => fits q (List.mem_cons_of_mem _ hq)
      refine ⟨m, ?_, fun b hb => ?_, fun n b hb => ?_⟩
      · rw [List.flatMap_cons, bytes]
        show readPositions as (ps.flatMap encPos) (t.set a (be3 b2 b1 b0)) = some m
        rw [value]
        exact read
      · obtain ⟨ne, hb⟩ := not_or.1 (List.mem_cons.not.1 hb)
        rw [others b hb, PerAxis.get_set, if_neg ne]
      · match n with
        | 0 =>
          obtain rfl := Option.some.inj hb
          rw [others a new, PerAxis.get_set, if_pos rfl]
          rfl
        | n + 1 => exact mine n b hb

namespace Cm8

variable (c : Cm8) (i : Slot)

/-! ### The order of R167 -/

theorem trackReport_first (r : Report) (first : (c.head i).track.interval = none) :
    c.trackReport i r = ((c.storeReport i r).followStep i r).offerReport i r
      (matching ((c.storeReport i r).head i) r).isNone (c.head i).track.run := by
  unfold trackReport
  rw [first]
  rfl

/-- The part of an overrun report before its following check: counted, stored, and the run set back (R171). -/
def setBack (r : Report) (flag : IntervalFlag) : Cm8 :=
  ((c.bump (.line (c.lineOf i) .overrun)).storeReport i r).onTrack i
    fun t => { t with run := flag.savedRun }

theorem trackReport_overrun (r : Report) {flag : IntervalFlag}
    (later : (c.head i).track.interval = some flag) : c.trackReport i r =
      if flag.forwarded then ((c.setBack i r flag).followStep i r).placeReport i r
        (matching ((c.setBack i r flag).head i) r).isNone
      else (c.setBack i r flag).followStep i r := by
  unfold trackReport
  rw [later]
  rfl

/-- The tracker of an overrun report before its following check. -/
def backTracker (t : Tracker) (r : Report) (flag : IntervalFlag) : Tracker :=
  { stored t r with run := flag.savedRun }

/-- An overrun report is counted in OVERRUN, and its slot's record is as storing it left it. -/
theorem setBack_keeps (r : Report) (flag : IntervalFlag) :
    (∃ a q, (c.setBack i r flag).head i = { c.head i with
      activity := a, queue := q, track := backTracker (c.head i).track r flag }) ∧
    (∀ w, (c.head i).activity = .halted w → ((c.setBack i r flag).head i).activity = .halted w) ∧
    (∀ j, j ≠ i → (c.setBack i r flag).head j = c.head j) ∧
    (c.setBack i r flag).clock.frame = c.clock.frame ∧
    ∀ st, (c.setBack i r flag).counter (.line st .overrun) =
      (c.bump (.line (c.lineOf i) .overrun)).counter (.line st .overrun) := by
  have counted := c.counted_bump (.line (c.lineOf i) .overrun)
  have kept := ((c.bump (.line (c.lineOf i) .overrun)).tracked_storeReport i r).trans
    (tracked_onTrack _ i fun t => { t with run := flag.savedRun })
  rw [(tracked_storeReport _ i r).track, counted.head] at kept
  obtain ⟨a, q, head⟩ := kept.head
  refine ⟨⟨a, q, ?_⟩, fun w h => kept.halted w (by rw [counted.head]; exact h),
    fun j n => (kept.others j n).trans (counted.head j), kept.frame.trans counted.frame, kept.overruns⟩
  rw [counted.head] at head
  exact head

theorem matching_congr {h k : Head} (r : Report) (same : h.track.history = k.track.history) :
    matching h r = matching k r := by
  unfold matching
  rw [same]

theorem setBack_quiet {r : Report} (flag : IntervalFlag) (quiet : r.servoFault = false) :
    ((c.setBack i r flag).head i) = { c.head i with track := backTracker (c.head i).track r flag } := by
  unfold setBack
  rw [storeReport_quiet _ i quiet, head_onTrack_self, head_onTrack_self, (c.counted_bump _).head]
  rfl

theorem track_setBack (r : Report) (flag : IntervalFlag) :
    ((c.setBack i r flag).head i).track = backTracker (c.head i).track r flag := by
  obtain ⟨⟨a, q, head⟩, _⟩ := c.setBack_keeps i r flag
  rw [head]

/-- What an overrun report leaves in the upstream report slot (R171). -/
def overrunUpstream (h : Head) (f : BitVec 32) (r : Report) (flag : IntervalFlag) : Option ForwardedReport :=
  if flag.forwarded then some (forwardedAs h f r (matching h r).isNone) else h.track.upstream

/-- The part of an overrun report after its following check differs in the upstream report slot alone. -/
theorem head_trackReport_overrun (r : Report) {flag : IntervalFlag}
    (later : (c.head i).track.interval = some flag) : (c.trackReport i r).head i =
      { ((c.setBack i r flag).followStep i r).head i with track :=
        { (((c.setBack i r flag).followStep i r).head i).track with
          upstream := overrunUpstream (c.head i) c.clock.frame r flag } } := by
  obtain ⟨⟨a, q, head⟩, _, _, frame, _⟩ := c.setBack_keeps i r flag
  obtain ⟨n, step, _⟩ := (c.setBack i r flag).tracked_followStep i r
  obtain ⟨a', q', head'⟩ := step.head
  rw [head] at head'
  rw [trackReport_overrun c i r later]
  unfold overrunUpstream
  split
  · have stale : matching ((c.setBack i r flag).head i) r = matching (c.head i) r :=
      matching_congr r (by rw [head]; rfl)
    rw [placeReport_eq, head_onTrack_self, head', step.frame, frame, stale]
    rfl
  · rw [head']
    rfl

theorem others_trackReport_overrun (r : Report) {flag : IntervalFlag}
    (later : (c.head i).track.interval = some flag) :
    (∀ j, j ≠ i → (c.trackReport i r).head j = c.head j) ∧
    ∀ st, (c.trackReport i r).counter (.line st .overrun) =
      (c.bump (.line (c.lineOf i) .overrun)).counter (.line st .overrun) := by
  obtain ⟨_, _, others, _, overruns⟩ := c.setBack_keeps i r flag
  obtain ⟨n, step, _⟩ := (c.setBack i r flag).tracked_followStep i r
  rw [trackReport_overrun c i r later]
  split
  · have all := step.trans (tracked_placeReport _ i r (matching ((c.setBack i r flag).head i) r).isNone)
    exact ⟨fun j n => (all.others j n).trans (others j n), fun st => (all.overruns st).trans (overruns st)⟩
  · exact ⟨fun j n => (step.others j n).trans (others j n), fun st => (step.overruns st).trans (overruns st)⟩

/-- The tracker after an overrun report: stored, its run that of the following check, the upstream report slot
by the interval flag. -/
theorem trackReport_overrun_keeps (r : Report) {flag : IntervalFlag}
    (later : (c.head i).track.interval = some flag) : ∃ a q n, (r.localControl = true → n = 0) ∧
      (c.trackReport i r).head i = { c.head i with activity := a, queue := q, track :=
        { backTracker (c.head i).track r flag with
          run := n, upstream := overrunUpstream (c.head i) c.clock.frame r flag } } := by
  obtain ⟨⟨a, q, head⟩, _⟩ := c.setBack_keeps i r flag
  obtain ⟨n, step, near⟩ := (c.setBack i r flag).tracked_followStep i r
  obtain ⟨a', q', head'⟩ := step.head
  rw [head] at head'
  exact ⟨a', q', n, near, by rw [head_trackReport_overrun c i r later, head']⟩

/-- The whole of a report, with the tracker that it leaves. -/
theorem trackReport_keeps (r : Report) : ∃ t, t.measured = some r.measured ∧
    t.servoFault = r.servoFault ∧ t.localControl = r.localControl ∧
    t.history = (c.head i).track.history ∧ t.interval.isSome = true ∧
    (∃ a q, (c.trackReport i r).head i = { c.head i with activity := a, queue := q, track := t }) ∧
    (∀ j, j ≠ i → (c.trackReport i r).head j = c.head j) := by
  cases flag : (c.head i).track.interval with
  | none =>
    have stored := c.tracked_storeReport i r
    obtain ⟨n, step, _⟩ := (c.storeReport i r).tracked_followStep i r
    have first := stored.trans step
    have all := first.trans (tracked_offerReport _ i r (matching ((c.storeReport i r).head i) r).isNone
      (c.head i).track.run)
    rw [← c.trackReport_first i r flag] at all
    have track : ((((c.storeReport i r).followStep i r).head i).track) =
        { Cm8.stored (c.head i).track r with run := n } := by rw [first.track, stored.track]
    refine ⟨_, ?_, ?_, ?_, ?_, ?_, all.head, all.others⟩
    all_goals
      unfold offered
      rw [track]
      split
      · rfl
      · split <;> rfl
  | some flag' =>
    obtain ⟨a, q, n, _, head⟩ := c.trackReport_overrun_keeps i r flag
    exact ⟨{ backTracker (c.head i).track r flag' with
      run := n, upstream := overrunUpstream (c.head i) c.clock.frame r flag' }, rfl, rfl, rfl, rfl,
      congrArg Option.isSome flag, ⟨a, q, head⟩, (c.others_trackReport_overrun i r flag).1⟩

/-- A report with the servo fault flag leaves a head that was not OFFLINE halted (R169). -/
theorem trackReport_faulted {r : Report} (fault : r.servoFault = true)
    (off : (c.head i).activity ≠ .offline) : ((c.trackReport i r).head i).activity.isHalted = true ∧
      ((c.head i).activity.isHalted = false → ((c.trackReport i r).head i).activity = .halted .head) := by
  have kept : ∀ w, ((c.storeReport i r).head i).activity = .halted w →
      (c.head i).track.interval = none → ((c.trackReport i r).head i).activity = .halted w := by
    intro w h first
    obtain ⟨n, step, _⟩ := (c.storeReport i r).tracked_followStep i r
    rw [c.trackReport_first i r first]
    exact (step.trans (tracked_offerReport ..)).halted w h
  have after : ∀ w flag, ((c.setBack i r flag).head i).activity = .halted w →
      (c.head i).track.interval = some flag → ((c.trackReport i r).head i).activity = .halted w := by
    intro w flag h later
    obtain ⟨n, step, _⟩ := (c.setBack i r flag).tracked_followStep i r
    rw [head_trackReport_overrun c i r later]
    exact step.halted w h
  have counted := c.counted_bump (.line (c.lineOf i) .overrun)
  cases interval : (c.head i).track.interval with
  | none =>
    obtain ⟨halted, head⟩ := c.storeReport_faulted i fault off
    obtain ⟨w, hw⟩ := (Activity.isHalted_iff _).1 halted
    exact ⟨(Activity.isHalted_iff _).2 ⟨w, kept w hw interval⟩, fun run => kept _ (head run) interval⟩
  | some flag =>
    obtain ⟨halted, head⟩ := (c.bump (.line (c.lineOf i) .overrun)).storeReport_faulted i fault
      (by rw [counted.head]; exact off)
    have back (w : HaltCause) (h : (((c.bump (.line (c.lineOf i) .overrun)).storeReport i r).head i).activity
        = .halted w) : ((c.setBack i r flag).head i).activity = .halted w := by
      unfold setBack
      rw [head_onTrack_self]
      exact h
    obtain ⟨w, hw⟩ := (Activity.isHalted_iff _).1 halted
    exact ⟨(Activity.isHalted_iff _).2 ⟨w, after w flag (back w hw) interval⟩,
      fun run => after _ flag (back _ (head (by rw [counted.head]; exact run))) interval⟩

/-! ### A report of a LINKED slot (R159) -/

/-- The part once the engine has taken a report. -/
def seen : Cm8 := c.onHead i fun h => { h with link := { h.link with loss := 0, reported := true } }

theorem linkedReport_first (r : Report)
    (first : (c.head i).activity = .offline ∧ (c.head i).link.reported = false) :
    c.linkedReport i r = ((c.seen i).firstReport i r).trackReport i r := by
  have test : ((c.head i).activity.isOffline && !(c.head i).link.reported) = true := by
    rw [Bool.and_eq_true, Activity.isOffline_iff, Bool.not_eq_true']
    exact first
  unfold linkedReport
  dsimp only
  rw [if_pos test]
  rfl

theorem linkedReport_later (r : Report)
    (later : ¬ ((c.head i).activity = .offline ∧ (c.head i).link.reported = false)) :
    c.linkedReport i r = (c.seen i).trackReport i r := by
  have test : ¬ ((c.head i).activity.isOffline && !(c.head i).link.reported) = true := by
    rw [Bool.and_eq_true, Activity.isOffline_iff, Bool.not_eq_true']
    exact later
  unfold linkedReport
  dsimp only
  rw [if_neg test]
  rfl

/-- A report of a LINKED slot is the tracker's work after what the engine, and R85, make of the head. -/
theorem linkedReport_form (r : Report) : ∃ d : Cm8, c.linkedReport i r = d.trackReport i r ∧
    (d.head i).link = { (c.head i).link with loss := 0, reported := true } ∧
    (d.head i).track = (c.head i).track ∧ (∀ j, j ≠ i → d.head j = c.head j) ∧
    (((c.head i).activity = .offline → (c.head i).link.reported = false) →
      (d.head i).activity ≠ .offline) ∧
    ((c.head i).activity ≠ .offline → (d.head i).activity = (c.head i).activity) := by
  have own : (c.seen i).head i =
      { c.head i with link := { (c.head i).link with loss := 0, reported := true } } := head_onHead_self ..
  have other (j : Slot) (n : j ≠ i) : (c.seen i).head j = c.head j := head_onHead_ne _ _ _ _ n
  by_cases first : (c.head i).activity = .offline ∧ (c.head i).link.reported = false
  · obtain ⟨a, q, taken, records, turned⟩ := (c.seen i).turned_firstReport i r
    rw [own] at turned
    refine ⟨_, c.linkedReport_first i r first, by rw [turned.head]; rfl, by rw [turned.head]; rfl,
      fun j n => (turned.others j n).trans (other j n), fun _ => ?_, fun off => absurd first.1 off⟩
    exact firstReport_leaves _ i r (by rw [own]; exact first.1)
  · refine ⟨_, c.linkedReport_later i r first, by rw [own], by rw [own], other, fun fresh off => ?_,
      fun _ => by rw [own]⟩
    rw [own] at off
    exact first ⟨off, fresh off⟩

end Cm8

end Sys2Proof.Machine

namespace Sys2Proof

open Sys2Proof.Machine Sys2Proof.Machine.Cm8

/-- Settles O45. -/
theorem firstReportPlacesHead : Obligations.FirstReportPlacesHead := by
  unfold Obligations.FirstReportPlacesHead
  intro c i r off empty h d t residents inside taken
  obtain ⟨a', q', zs, records, turned⟩ := c.turned_firstReport i r
  have at_ : (c.atReport i r).head i = placed h r := by
    unfold atReport
    rw [head_onHead_self]
  have state : ((c.atReport i r).head i).activity = .offline := by
    rw [at_]
    exact off
  have setpoint (b : Axis) (conf : h.configured b = true) :
      (placed h r).setpoint.get b = r.measured.get b - (h.axes.get b).trim := by
    show (PerAxis.gen _).get b = _
    rw [PerAxis.get_gen, if_pos conf]
    rfl
  have inside_iff : ((c.atReport i r).head i).insideLimits = true ↔ inside := by
    rw [at_]
    unfold Head.insideLimits
    rw [List.all_eq_true]
    refine forall_congr' fun b => ?_
    rw [Head.mem_axisList]
    refine imp_congr_right fun conf => ?_
    rw [setpoint b conf]
    rfl
  have zones : (c.atReport i r).residentZones i = residents := by
    unfold residentZones
    rw [at_]
    have travel : (placed h r).setpoint.get .travel =
        if h.configured .travel then r.measured.get .travel - (h.axes.get .travel).trim
        else h.setpoint.get .travel := by
      show (PerAxis.gen _).get .travel = _
      rw [PerAxis.get_gen]
      rfl
    rw [travel]
    unfold mappedZones
    rw [at_]
    rfl
  have conflict_iff : (c.atReport i r).conflicted i = true ↔ taken := by
    unfold conflicted
    rw [Bool.not_eq_true', obtainable_false_iff, zones]
    rfl
  have halts (cause : HaltCause) (on : HaltCause.haltsOffline cause = true)
      (same : d = (c.atReport i r).haltRequest i cause) :
      t.activity = .halted cause ∧ ∀ z : Zone, d.holder z = c.holder z := by
    show (d.head i).activity = _ ∧ _
    rw [same, haltRequest_offline _ i cause state, if_pos on]
    have halted := (c.atReport i r).turned_enterHalted i cause
    exact ⟨by rw [halted.head], fun z => halted.holder_eq z⟩
  have form : d = _ := c.firstReport_eq i r
  refine ⟨fun b conf => ?_, fun out => ?_, fun in_ busy => ?_, fun in_ free => ?_⟩
  · show (d.head i).setpoint.get b = _ ∧ (d.head i).previous.get b = (d.head i).setpoint.get b
    rw [turned.head]
    refine ⟨setpoint b conf, ?_⟩
    show (PerAxis.gen _).get b = _
    rw [PerAxis.get_gen, if_pos (show ((c.head i).adopt r.measured).configured b = true from conf)]
    rfl
  · rw [if_pos (Bool.eq_false_iff.2 (inside_iff.not.2 out))] at form
    exact halts .range rfl form
  · rw [if_neg (Bool.eq_false_iff.not.2 (not_not.2 (inside_iff.2 in_))), if_pos (conflict_iff.2 busy)]
      at form
    exact halts .conflict rfl form
  · rw [if_neg (Bool.eq_false_iff.not.2 (not_not.2 (inside_iff.2 in_))), if_neg (conflict_iff.not.2 free)]
      at form
    refine ⟨?_, fun z => ?_⟩
    · show (d.head i).activity = _
      rw [form, (turned_toFree ..).head, head_giveFree, at_]
      show freeActivity _ h.queue = _
      rw [show h.queue = [] from empty]
      rfl
    · rw [form, (turned_toFree ..).holder_eq, holder_giveFree, zones,
        show (c.atReport i r).holder z = c.holder z from rfl]
      by_cases resident : residents.getLsbD z.val = true
      · rw [if_pos resident]
        by_cases holds : c.holder z = none
        · rw [if_pos ⟨resident, holds⟩]
        · rw [if_neg fun h => holds h.2]
          obtain ⟨j, hj⟩ := Option.ne_none_iff_exists'.1 holds
          by_contra other
          exact free ⟨z, resident, j, fun h => other (by rw [hj, h]), hj⟩
      · rw [if_neg resident, if_neg fun h => resident h.1]

end Sys2Proof
end

section
/-! PROOF. Reports taken by their row and by the tracker (O44, O46). -/

namespace Sys2Proof.Machine

theorem readReport_cons (mask : AxisMask) (echo status : Byte) (rest : List Byte) :
    readReport mask (echo :: status :: rest) = (readPositions mask.axes rest (.const 0)).map
      fun t => ⟨echo, status.getLsbD 0, status.getLsbD 1, t⟩ := rfl

end Sys2Proof.Machine

namespace Sys2Proof.Machine.Cm8

variable (c : Cm8) (i : Slot) {st : StoreId} {address : Byte} {body : List Byte}

theorem arriveReport_deaf (deaf : c.receives st = false) : c.arriveReport st address body = c := by
  unfold arriveReport
  rw [if_neg (by rw [deaf]; exact Bool.false_ne_true)]

theorem arriveReport_unknown (hears : c.receives st = true) (at_ : c.slotAt st address = none) :
    c.arriveReport st address body = c.bump (.line st .bad) := by
  unfold arriveReport
  rw [if_pos hears, at_]

theorem arriveReport_unread (hears : c.receives st = true) (at_ : c.slotAt st address = some i)
    (bad : readReport (c.head i).map.mask body = none) :
    c.arriveReport st address body = c.bump (.line st .bad) := by
  unfold arriveReport
  rw [if_pos hears, at_]
  dsimp only
  rw [bad]

theorem arriveReport_taken {r : Report} (hears : c.receives st = true)
    (at_ : c.slotAt st address = some i) (read : readReport (c.head i).map.mask body = some r) :
    ((c.head i).link.state = .linked →
      c.arriveReport st address body = (c.bump (.line st .received)).linkedReport i r) ∧
    ((c.head i).link.state ≠ .linked →
      c.arriveReport st address body = c.bump (.line st .received)) := by
  have form : c.arriveReport st address body =
      if (c.head i).isLinked then (c.bump (.line st .received)).linkedReport i r
      else c.bump (.line st .received) := by
    unfold arriveReport
    rw [if_pos hears, at_]
    dsimp only
    rw [read]
    dsimp only
    rw [(c.counted_bump _).head]
  rw [form]
  exact ⟨fun h => if_pos ((Head.isLinked_iff _).2 h), fun h => if_neg ((Head.isLinked_iff _).not.2 h)⟩

end Sys2Proof.Machine.Cm8

namespace Sys2Proof

open Sys2Proof.Machine Sys2Proof.Machine.Cm8

/-- The row of REPORT on an idle part. -/
theorem exec_report (s : State) (st : StoreId) (address : Byte) (body : List Byte)
    (idle : s.part.work = []) {c : Cm8} (taken : s.part.arriveReport st address body = c) :
    exec (.report st address body) s = .next { s with part := c.chooseIdle } :=
  congrArg Host.Outcome.next ((s.row_of_nil (fun c => c.arriveReport st address body) idle).trans
    (by rw [taken]))

/-- Settles O46. -/
theorem trackerFollowsAndForwards : Obligations.TrackerFollowsAndForwards := by
  unfold Obligations.TrackerFollowsAndForwards
  refine ⟨?_, ?_, ?_, ?_, ?_⟩
  · intro c i r near h d t
    refine ⟨fun e want found positions mask off run => ?_, fun stale => ?_, fun e found unmade => ?_⟩
    · exact followStep_run c i found positions ⟨mask, run, off, near⟩
    · show c.followStep i r = _
      rw [followStep_stale c i ((matching_none_iff ..).2 stale), near]
      rfl
    · have check : checkAgainst h r e = none := by
        by_cases made : Checked h r e
        · rw [checkAgainst_pos made]
          obtain ⟨mask, run, off, _⟩ := made
          rcases unmade with none | other | off' | halted
          · exact none
          · exact absurd mask other
          · exact absurd off' off
          · exact Bool.noConfusion (run.symm.trans halted)
        · exact checkAgainst_neg made
      show c.followStep i r = c
      rw [followStep_unchecked c i found check, near]
      rfl
  · intro c i r stale saved h d t
    have track : t.track = offered h c.clock.frame r stale saved := (c.tracked_offerReport i r stale saved).track
    rw [track]
    unfold offered
    refine ⟨fun zero => ?_, fun short => ?_, fun nonzero due => ?_⟩
    · rw [if_pos zero]
      exact ⟨rfl, rfl, rfl⟩
    · rw [if_neg (Nat.ne_of_gt (Nat.lt_of_le_of_lt (Nat.zero_le _) short)), if_neg (Nat.not_le.2 short)]
      exact ⟨rfl, rfl, rfl⟩
    · rw [if_neg nonzero, if_pos due]
      exact ⟨rfl, rfl, _, rfl, rfl, rfl, rfl, rfl, rfl, rfl, rfl,
        fun a configured => forwardedAs_fields _ _ _ _ a configured⟩
  · intro c i r h stored stale
    have form (d : Cm8) (same : d.head i = h) : d.storeReport i r = stored d := by
      rw [storeReport_eq, same]
      rfl
    have judged (d : Cm8) (same : (d.head i).track.history = h.track.history) :
        (matching (d.head i) r).isNone = stale := by
      rw [isNone_matching, same]
    refine ⟨fun first => ?_, fun flag later => ?_⟩
    · rw [trackReport_first c i r first, judged _ (by rw [(c.tracked_storeReport i r).track]; rfl),
        form c rfl]
    · intro back d
      have set : c.setBack i r flag = back := by
        unfold setBack
        rw [form _ ((c.counted_bump _).head i)]
        rfl
      rw [trackReport_overrun c i r later, judged _ (by rw [track_setBack]; rfl), set]
  · intro c i r near clear
    have form := followStep_local c i near
    refine ⟨fun stale => ?_, fun ⟨x, hx, same⟩ => ?_⟩
    · rw [if_pos ((matching_none_iff ..).2 stale)] at form
      exact form
    · rw [if_neg fun none => (matching_none_iff ..).1 none x hx same] at form
      exact form
  · intro c i r flag later h d t
    obtain ⟨a, q, n, zero, head⟩ := c.trackReport_overrun_keeps i r later
    have whole : t = _ := c.head_trackReport_overrun i r later
    refine ⟨(c.others_trackReport_overrun i r later).2 _, by rw [show t = _ from head]; rfl,
      by rw [show t = _ from head]; rfl, by rw [show t = _ from head]; rfl,
      by rw [show t = _ from head]; exact later, by rw [show t = _ from head]; rfl,
      by rw [show t = _ from head]; rfl, fun near => by rw [show t = _ from head]; exact zero near,
      fun near stale => ?_, fun e want near quiet found positions mask off run => ?_, fun unsent => ?_,
      fun sent => ?_⟩
    · have unmatched : matching ((c.setBack i r flag).head i) r = none := by
        rw [matching_none_iff, track_setBack]
        exact stale
      rw [whole, followStep_stale _ i unmatched, near, if_neg Bool.false_ne_true,
        (tracked_stale _ i _).track, track_setBack]
      rfl
    · have same := c.setBack_quiet i flag quiet
      have check := followStep_run (c.setBack i r flag) i (r := r) (e := e) (want := want)
        ((matching_congr r (by rw [same]; rfl)).trans found) positions
        (by rw [same]; exact ⟨mask, run, off, near⟩)
      rw [same] at check
      rw [whole]
      exact check
    · rw [show t = _ from head]
      exact if_neg (Bool.eq_false_iff.1 unsent)
    · rw [show t = _ from head]
      exact ⟨_, if_pos sent, rfl, rfl, rfl, rfl, isNone_matching .., rfl, rfl,
        fun a configured => forwardedAs_fields _ _ _ _ a configured⟩

/-- Settles O44. -/
theorem reportTaken : Obligations.ReportTaken := by
  unfold Obligations.ReportTaken
  refine ⟨?_, ?_, ?_, ?_, ?_, ?_⟩
  · intro mask body
    refine ⟨fun size => ?_, fun echo status ps size fits laid => ?_⟩
    · match body with
      | [] | [_] => rfl
      | echo :: status :: rest =>
        have none := readPositions_none mask.axes rest (.const 0) fun h => size (by
          rw [List.length_cons, List.length_cons, h]
          omega)
        exact (readReport_cons ..).trans (congrArg _ none)
    · obtain ⟨m, read, _, mine⟩ := readPositions_encPos mask.axes (AxisMask.nodup_axes mask) ps (.const 0) size fits
      refine ⟨⟨echo, status.getLsbD 0, status.getLsbD 1, m⟩, ?_, rfl, rfl, rfl, mine⟩
      rw [laid]
      exact (readReport_cons ..).trans (congrArg _ read)
  · intro s st address body i idle hears at_ bad
    exact exec_report s st address body idle (arriveReport_unread _ i hears at_ bad)
  · intro s st address body i r idle hears at_ read c
    have taken := arriveReport_taken s.part i hears at_ read
    exact ⟨fun linked => exec_report s st address body idle (taken.1 linked),
      fun unlinked => exec_report s st address body idle (taken.2 unlinked)⟩
  · intro c i r t
    obtain ⟨d, form, link, track, others, leaves, same⟩ := c.linkedReport_form i r
    obtain ⟨u, measured, fault, near, history, interval, ⟨a, q, head⟩, others'⟩ := d.trackReport_keeps i r
    have own : t = { d.head i with activity := a, queue := q, track := u } := by
      show (c.linkedReport i r).head i = _
      rw [form, head]
    have faulted (f : r.servoFault = true) (off : (d.head i).activity ≠ .offline) :=
      d.trackReport_faulted i f off
    refine ⟨by rw [own]; exact link, by rw [own]; exact measured, by rw [own]; exact fault,
      by rw [own]; exact near, by rw [own]; exact history.trans (by rw [track]),
      by rw [own]; exact interval, fun f fresh => ?_, fun f off run => ?_, fun j n => ?_,
      c.linkedReport_first i r, c.linkedReport_later i r⟩
    · show ((c.linkedReport i r).head i).activity.isHalted = true
      rw [form]
      exact (faulted f (leaves fresh)).1
    · show ((c.linkedReport i r).head i).activity = _
      rw [form]
      refine (faulted f (leaves fun h => absurd h off)).2 ?_
      rw [same off]
      exact run
    · rw [form]
      exact (others' j n).trans (others j n)
  · intro s st address body idle
    exact ⟨fun deaf => exec_report s st address body idle (arriveReport_deaf _ deaf),
      fun hears at_ => exec_report s st address body idle (arriveReport_unknown _ hears at_)⟩
  · exact pagesBuildTheExchange.2.2.2.2

end Sys2Proof
end

section
/-! PROOF. HEAD STATUS, and the folds that halt slot after slot with RESET SOFT (O58, O59). -/

namespace Sys2Proof.Machine

/-! ### The read data of HEAD STATUS (R195) -/

theorem append_congr {α : Type} {a b x y : List α} (h : a = x) (k : b = y) : a ++ b = x ++ y := by rw [h, k]

theorem tagByte_eq (t : Option Byte) : tagByte t = t.getD 0xFF#8 := by cases t <;> rfl

theorem sourceByte_eq (x : Option SourceName) : sourceByte x = (x.map SourceName.byte).getD 0xFF#8 := by
  cases x <;> rfl

theorem encPos_zero : encPos 0 = [0#8, 0#8, 0#8] := by decide

namespace Cm8

theorem refreshByte_eq {n : Nat} {b : Byte} (small : n < 256 → b.toNat = n)
    (large : 256 ≤ n → b = Config.unfitRefresh n) : b = refreshByte n := by
  unfold refreshByte
  split
  · rename_i h
    exact BitVec.eq_of_toNat_eq (by rw [small h, toNat_ofNat_small h])
  · rename_i h
    exact large (Nat.not_lt.1 h)

variable (c : Cm8) (i : Slot)

theorem headStatus_slot :
    c.headStatus [slotByte i] = .ok (c.onHead i statusRead, statusData (c.head i)) := by
  unfold headStatus
  dsimp only
  rw [slotOf_slotByte]

theorem headStatus_range {b : Byte} (h : 8 ≤ b.toNat) : c.headStatus [b] = .error .range := by
  unfold headStatus
  dsimp only
  rw [slotOf_none h]

end Cm8

end Sys2Proof.Machine

namespace Sys2Proof

open Sys2Proof.Machine Sys2Proof.Machine.Cm8

/-- Settles O58. -/
theorem headStatusClearsFlags : Obligations.HeadStatusClearsFlags := by
  unfold Obligations.HeadStatusClearsFlags
  intro s tag refresh ready
  refine ⟨fun i => ?_, fun b h => s.verdict_refuses .headStatus tag _ (fun c => c.headStatus _) ready
    (headStatus_range _ h)⟩
  intro h axes name source shown
  have sources (x : Option SourceName) : sourceByte x = source x := sourceByte_eq x
  refine (s.verdict_accepts .headStatus tag _ (fun c => c.headStatus _) ready
    (headStatus_slot s.part i)).trans ?_
  refine congrArg (fun data => Host.Outcome.next (s.accepts (s.part.onHead i statusRead) 0x70#8 tag data)) ?_
  unfold statusData
  rw [List.append_assoc _ (enc1 _) (enc1 _), List.append_assoc _ (enc1 _) (enc1 _ ++ enc1 _)]
  refine append_congr (append_congr (append_congr (append_congr (append_congr (append_congr (append_congr
    (append_congr (append_congr (append_congr (append_congr (append_congr ?state ?link) rfl) ?entry)
    ?waiting) ?motion) rfl) ?active) ?held) ?jog) rfl) ?measured) rfl
  case state =>
    refine congrArg (fun b => [b, h.statusFlags, h.map.mask.setWidth 8]) ?_
    show h.link.state.code = _
    cases h.link.state <;> rfl
  case link =>
    show linkBytes h.link = _
    unfold linkBytes
    cases h.link.state <;> rfl
  case entry =>
    show entryBytes h.queue.head? = _
    cases h.queue with
    | nil => rfl
    | cons e rest =>
      refine append_congr (append_congr (congrArg (fun b => [b, boolByte e.cue.isSome]) ?_) rfl)
        (congrArg (fun b => [e.tag, b]) ?_)
      · show e.rule.code = _
        cases e.rule <;> rfl
      · show e.source.name.byte = _
        cases e.source <;> rfl
  case waiting =>
    show waitingBytes h.activity.waiting = _
    cases h.activity with
    | waitZone w => exact congrArg (fun b => [1#8, b]) (tagByte_eq w.move.tag)
    | _ => rfl
  case motion =>
    show motionBytes h.activity = _
    cases h.activity with
    | halted cause => cases cause <;> rfl
    | _ => rfl
  case active =>
    show activeBytes h.activity.active = _
    cases h.activity with
    | moving m held =>
      show [m.cls.code, tagByte m.tag, sourceByte m.source] ++ _ ++ _ = _
      rw [tagByte_eq, sources]
      refine append_congr (append_congr
        (congrArg (fun b => [b, m.tag.getD 0xFF#8, source m.source]) ?_) rfl) rfl
      show m.cls.code = _
      cases m.cls <;> rfl
    | _ => rfl
  case held =>
    show heldBytes h.activity.held = _
    cases h.activity with
    | moving m x =>
      cases x with
      | none => rfl
      | some x =>
        show [1#8, tagByte x.tag, sourceByte x.source] ++ _ = _
        rw [tagByte_eq, sources]
    | _ => rfl
  case jog =>
    show jogBytes h = _
    unfold jogBytes
    rw [encPos_zero]
    cases act : h.activity with
    | jogging j => rw [refreshByte_eq (shown j act).1 (shown j act).2]; rfl
    | _ => rfl
  case measured =>
    show measuredBytes h = _
    unfold measuredBytes
    cases h.track.measured with
    | none => rw [← encPos_zero]; rfl
    | some t => rfl

end Sys2Proof
end

section
/-! PROOF. Folds that halt slot after slot, and RESET SOFT (O59). -/

namespace Sys2Proof.Machine

theorem nodup_slots : Slot.all.Nodup := by decide

namespace Cm8

/-- What a fold that turns head after head leaves outside the heads: records are posted, and nothing else is
changed. -/
structure Kept (c d : Cm8) : Prop where
  events : ∃ r, d.events = c.events.told c.clock.frame r
  holders : ∀ z : Zone, d.holder z = c.holder z
  pairs : ∀ p : Fin 2, d.pair p = c.pair p
  clock : d.clock = c.clock
  port : d.port = c.port
  policy : d.policy = c.policy
  zonemap : d.zonemap = c.zonemap

namespace Kept

theorem refl (c : Cm8) : c.Kept c :=
  ⟨⟨[], rfl⟩, fun _ => rfl, fun _ => rfl, rfl, rfl, rfl, rfl⟩

theorem trans {c d e : Cm8} (p : c.Kept d) (q : d.Kept e) : c.Kept e where
  events := by
    obtain ⟨r, hr⟩ := p.events
    obtain ⟨r', hr'⟩ := q.events
    exact ⟨r ++ r', by rw [hr', hr, p.clock, EventUnit.told_append]⟩
  holders z := (q.holders z).trans (p.holders z)
  pairs n := (q.pairs n).trans (p.pairs n)
  clock := q.clock.trans p.clock
  port := q.port.trans p.port
  policy := q.policy.trans p.policy
  zonemap := q.zonemap.trans p.zonemap

end Kept

theorem Turned.kept {c d : Cm8} {i : Slot} {h : Head} {r : List (Option Slot × Option Byte × Event)}
    (p : c.Turned d i h 0#16 r) : c.Kept d :=
  ⟨⟨r, p.events⟩, p.holder_eq, p.pairs, p.rest.1, p.rest.2.1, p.rest.2.2.1, p.rest.2.2.2.1⟩

/-- A fold over distinct slots of a step that turns the heads of a kind and counts them, and leaves the
others. -/
theorem foldl_turns {f : Cm8 × Nat → Slot → Cm8 × Nat} {picks : Head → Bool} {g : Head → Head}
    (passes : ∀ a i, picks (a.1.head i) = false → f a i = a)
    (turns : ∀ a i, picks (a.1.head i) = true → (f a i).2 = a.2 + 1 ∧
      ∃ r, a.1.Turned (f a i).1 i (g (a.1.head i)) 0#16 r)
    (l : List Slot) (nodup : l.Nodup) (a : Cm8 × Nat) :
    (∀ j, (l.foldl f a).1.head j =
      if j ∈ l ∧ picks (a.1.head j) = true then g (a.1.head j) else a.1.head j) ∧
    (l.foldl f a).2 = a.2 + (l.filter fun j => picks (a.1.head j)).length ∧
    a.1.Kept (l.foldl f a).1 := by
  induction l generalizing a with
  | nil => exact ⟨fun j => (if_neg fun h => List.not_mem_nil h.1).symm, rfl, .refl _⟩
  | cons i l ih =>
    obtain ⟨new, rest⟩ := List.nodup_cons.1 nodup
    obtain ⟨heads, count, kept⟩ := ih rest (f a i)
    have others : ∀ j, j ≠ i → (f a i).1.head j = a.1.head j := by
      cases pick : picks (a.1.head i) with
      | false => exact fun j _ => by rw [passes a i pick]
      | true =>
        obtain ⟨_, r, turned⟩ := turns a i pick
        exact turned.others
    have later : (l.filter fun j => picks ((f a i).1.head j)) = l.filter fun j => picks (a.1.head j) :=
      List.filter_congr fun j hj => by rw [others j fun h => new (h ▸ hj)]
    have away (j : Slot) (n : j ≠ i) : (j ∈ l ∧ picks (a.1.head j) = true) ↔
        (j ∈ i :: l ∧ picks (a.1.head j) = true) := by simp [n]
    rw [List.foldl_cons]
    cases pick : picks (a.1.head i) with
    | false =>
      rw [passes a i pick] at heads count kept ⊢
      refine ⟨fun j => ?_, ?_, kept⟩
      · rw [heads]
        by_cases same : j = i
        · rw [same, if_neg fun h => new h.1, if_neg fun h => Bool.noConfusion (pick.symm.trans h.2)]
        · exact if_congr (away j same) rfl rfl
      · rw [count, List.filter_cons, if_neg (Bool.eq_false_iff.1 pick)]
    | true =>
      obtain ⟨counted, r, turned⟩ := turns a i pick
      refine ⟨fun j => ?_, ?_, turned.kept.trans kept⟩
      · rw [heads]
        by_cases same : j = i
        · rw [same, if_neg fun h => new h.1, turned.head, if_pos ⟨List.mem_cons_self .., pick⟩]
        · rw [others j same]
          exact if_congr (away j same) rfl rfl
      · rw [count, later, counted, List.filter_cons, if_pos pick, List.length_cons]
        omega

/-! ### Halting slot after slot (R83, R184) -/

/-- A head that is neither OFFLINE nor HALTED. -/
def runs (h : Head) : Bool := !h.activity.isOffline && !h.activity.isHalted

theorem runs_iff (h : Head) : runs h = true ↔ h.activity ≠ .offline ∧ ∀ w, h.activity ≠ .halted w := by
  unfold runs
  rw [Bool.and_eq_true, Bool.not_eq_true', Bool.not_eq_true', ← Bool.not_eq_true, ← Bool.not_eq_true,
    Activity.isOffline_iff, Activity.isHalted_iff, not_exists]

/-- The record of a head once it is HALTED. -/
def haltedAs (cause : HaltCause) (h : Head) : Head := { h with activity := .halted cause, queue := [] }

theorem haltEach_passes (cause : HaltCause) (a : Cm8 × Nat) (i : Slot) (still : runs (a.1.head i) = false) :
    haltEach cause a i = a := by
  unfold haltEach
  refine if_pos ?_
  unfold runs at still
  revert still
  cases (a.1.head i).activity.isOffline <;> simp

theorem haltEach_halts (cause : HaltCause) (a : Cm8 × Nat) (i : Slot) (run : runs (a.1.head i) = true) :
    haltEach cause a i = (a.1.enterHalted i cause, a.2 + 1) := by
  obtain ⟨off, halted⟩ := (runs_iff _).1 run
  unfold haltEach
  rw [haltRequest_running _ i cause off halted]
  refine if_neg ?_
  unfold runs at run
  revert run
  cases (a.1.head i).activity.isOffline <;> simp

theorem haltEach_turns (cause : HaltCause) (a : Cm8 × Nat) (i : Slot) (run : runs (a.1.head i) = true) :
    (haltEach cause a i).2 = a.2 + 1 ∧
      ∃ r, a.1.Turned (haltEach cause a i).1 i (haltedAs cause (a.1.head i)) 0#16 r := by
  rw [haltEach_halts cause a i run]
  exact ⟨rfl, _, turned_enterHalted ..⟩

/-- A LINKED head that a soft reset halts. -/
def resets (h : Head) : Bool := h.isLinked && runs h

theorem resetHalt_passes (a : Cm8 × Nat) (i : Slot) (still : resets (a.1.head i) = false) :
    resetHalt a i = a := by
  unfold resetHalt
  split
  · rename_i linked
    unfold resets at still
    rw [linked, Bool.true_and] at still
    exact haltEach_passes .reset a i still
  · rfl

theorem resetHalt_turns (a : Cm8 × Nat) (i : Slot) (run : resets (a.1.head i) = true) :
    (resetHalt a i).2 = a.2 + 1 ∧
      ∃ r, a.1.Turned (resetHalt a i).1 i (haltedAs .reset (a.1.head i)) 0#16 r := by
  obtain ⟨linked, run⟩ := Bool.and_eq_true _ _ ▸ run
  unfold resetHalt
  rw [if_pos linked]
  exact haltEach_turns .reset a i run

/-! ### RESET SOFT (R91, R184) -/

variable (c : Cm8)

theorem pair_resetParts (p : Fin 2) : c.resetParts.pair p = resetPair (c.pair p) := by
  fin_cases p <;> rfl

theorem store_resetParts (st : StoreId) : c.resetParts.store st = resetStore (c.store st) := by
  obtain ⟨p, l⟩ := st
  fin_cases p <;> cases l <;> rfl

theorem counter_resetParts (id : CounterId) : c.resetParts.counter id = 0#16 := by
  cases id with
  | line st k =>
    show (c.resetParts.store st).counters.get k = 0#16
    rw [store_resetParts]
    cases k <;> rfl
  | _ => rfl

theorem head_resetParts (j : Slot) : c.resetParts.head j = resetHead (c.head j) :=
  head_onHeads c j fun _ h => resetHead h

/-- RESET_DONE is the one record of an event queue that a reset has emptied (R91). -/
theorem queue_resetDone : (c.resetParts.post none none .resetDone).events =
    { c.events with dropped := 0, queue :=
        if c.events.enabled .resetDone then [⟨.resetDone, c.clock.frame, none, none, 0⟩] else [] } := by
  unfold post
  cases on : c.events.enabled .resetDone with
  | true =>
    rw [if_pos (show c.resetParts.events.enabled .resetDone = true from on), if_pos rfl]
    rfl
  | false =>
    rw [if_neg (show ¬ c.resetParts.events.enabled .resetDone = true from Bool.eq_false_iff.1 on),
      if_neg Bool.false_ne_true]
    rfl

theorem resetSoft_nil : c.resetSoft [] =
    .ok ((Slot.all.foldl resetHalt (c, 0)).1.resetParts.post none none .resetDone,
      enc1 (Slot.all.foldl resetHalt (c, 0)).2) := rfl

end Cm8

end Sys2Proof.Machine

namespace Sys2Proof

open Sys2Proof.Machine Sys2Proof.Machine.Cm8

/-- Settles O59. -/
theorem resetSoftClearsWork : Obligations.ResetSoftClearsWork := by
  unfold Obligations.ResetSoftClearsWork
  intro s tag ready c halts
  have picks (j : Slot) : resets (c.head j) = halts j := (Bool.and_assoc ..).symm
  obtain ⟨heads, count, kept⟩ := foldl_turns resetHalt_passes resetHalt_turns Slot.all nodup_slots (c, 0)
  have row := s.verdict_accepts .resetSoft tag [] (fun c => c.resetSoft []) ready (resetSoft_nil c)
  generalize Slot.all.foldl resetHalt (c, 0) = e at heads count kept row
  obtain ⟨r, events⟩ := kept.events
  obtain ⟨mode, kinds, counterMode, clearOnRead⟩ := told_settings c.events c.clock.frame r
  rw [← events] at mode kinds counterMode clearOnRead
  have settings := e.1.queue_resetDone
  have enabled : e.1.events.enabled .resetDone = c.events.enabled .resetDone := by
    unfold EventUnit.enabled
    rw [kinds]
  have stored (st : StoreId) : (e.1.resetParts.post none none .resetDone).store st =
      resetStore (c.store st) := by
    rw [store_post, store_resetParts]
    unfold Cm8.store
    rw [kept.pairs]
  have paired (p : Fin 2) : (e.1.resetParts.post none none .resetDone).pair p = resetPair (c.pair p) := by
    rw [pair_post, pair_resetParts, kept.pairs]
  refine ⟨e.1.resetParts.post none none .resetDone, row.trans ?_, fun j => ?_, fun z => ?_, ?_, ?_,
    fun st => ?_, fun id => ?_, ?_, ?_, ?_, ?_, ?_, ?_, fun p => ?_, fun st => ?_, ?_, ?_, ?_, ?_⟩
  · rw [count]
    simp only [picks, Nat.zero_add]
    rfl
  · have turned : (e.1.resetParts.post none none .resetDone).head j =
        resetHead (if halts j then haltedAs .reset (c.head j) else c.head j) := by
      rw [head_post, head_resetParts, heads, picks]
      simp only [Slot.mem_all, true_and]
    intro h t
    rw [show t = _ from turned]
    cases halts j <;>
      exact ⟨rfl, rfl, rfl, fun a => PerAxis.get_gen .., rfl, rfl, rfl, rfl, rfl, rfl, rfl, rfl, rfl, rfl, rfl⟩
  · rw [holder_post]
    exact kept.holders z
  · rw [arbiter_post]
    rfl
  · rw [arbiter_post]
    rfl
  · rw [stored]
    exact ⟨rfl, rfl, rfl⟩
  · rw [counter_post]
    exact counter_resetParts ..
  · rw [settings, enabled, kept.clock]
  · rw [settings]
  · rw [settings]
    exact kinds
  · rw [settings]
    exact mode
  · rw [settings]
    exact counterMode
  · rw [settings]
    exact clearOnRead
  · rw [paired]
    exact ⟨rfl, rfl, rfl⟩
  · rw [stored]
    rfl
  · rw [clock_post, ← kept.clock]
    rfl
  · rw [policy_post]
    exact kept.policy
  · rw [zonemap_post]
    exact kept.zonemap
  · rw [port_post, ← kept.port]
    exact ⟨rfl, rfl, rfl, rfl, rfl, rfl⟩

end Sys2Proof
end

section
/-! PROOF. CLEAR (O57). -/

namespace Sys2Proof.Machine.Cm8

variable {c d : Cm8} {i : Slot}

/-! ### What the resident zones depend on (R114) -/

theorem residentZones_congr (zonemap : d.zonemap = c.zonemap) (map : (d.head i).map = (c.head i).map)
    (setpoint : (d.head i).setpoint = (c.head i).setpoint) : d.residentZones i = c.residentZones i := by
  unfold residentZones mappedZones entriesOf Head.hasTravel Head.configured
  rw [zonemap, map, setpoint]

theorem moveZones_free (free : (c.head i).activity.active = none) : c.moveZones i = 0#16 := by
  unfold moveZones
  cases h : (c.head i).activity with
  | moving m held => rw [h] at free; nomatch free
  | _ => rfl

/-- A record written over another. -/
theorem setHead_setHead (h k : Head) : (c.setHead i h).setHead i k = c.setHead i k := by
  simp [setHead]

variable (c i)

/-! ### The checks of R84 -/

theorem clearSlot_noHead (h : (c.head i).link.state ≠ .linked ∨ (c.head i).link.reported = false) :
    c.clearSlot i = (c, .refused .noHead) := by
  refine if_pos ?_
  rw [Bool.or_eq_true, Bool.not_eq_true', Bool.not_eq_true', ← Bool.not_eq_true, Head.isLinked_iff]
  exact h

section
variable (linked : (c.head i).link.state = .linked) (reported : (c.head i).link.reported = true)
include linked reported

theorem clearSlot_linked {d : Cm8 × Answer} (h : (match (c.head i).activity with
      | .halted .mismatch => (c, .refused .mismatch)
      | .halted _ =>
        match (c.head i).track.measured with
        | some t => c.clearHalted i t
        | none => (c, .refused .noHead)
      | _ => (c, .accepted [0#8])) = d) : c.clearSlot i = d := by
  refine (if_neg ?_).trans h
  rw [Bool.or_eq_true, Bool.not_eq_true', Bool.not_eq_true', ← Bool.not_eq_true, Head.isLinked_iff,
    reported]
  simp [linked]

theorem clearSlot_running (run : (c.head i).activity.isHalted = false) :
    c.clearSlot i = (c, .accepted [0#8]) := by
  refine clearSlot_linked c i linked reported ?_
  revert run
  cases (c.head i).activity with
  | halted w => exact nofun
  | _ => exact fun _ => rfl

theorem clearSlot_mismatch (act : (c.head i).activity = .halted .mismatch) :
    c.clearSlot i = (c, .refused .mismatch) :=
  clearSlot_linked c i linked reported (by rw [act])

theorem clearSlot_halted {w : HaltCause} {t : PerAxis Int} (act : (c.head i).activity = .halted w)
    (other : w ≠ .mismatch) (measured : (c.head i).track.measured = some t) :
    c.clearSlot i = c.clearHalted i t := by
  refine clearSlot_linked c i linked reported ?_
  rw [act, measured]
  cases w <;> first | rfl | exact absurd rfl other

end

/-- The part with the head's setpoint at the measured position. -/
def adopted (t : PerAxis Int) : Cm8 := c.onHead i fun h => h.adopt t

theorem head_adopted (t : PerAxis Int) : (c.adopted i t).head i = (c.head i).adopt t := head_onHead_self ..

theorem setpoint_adopt (h : Head) (t : PerAxis Int) {a : Axis} (configured : h.configured a = true) :
    (h.adopt t).setpoint.get a = t.get a - (h.axes.get a).trim := by
  show (PerAxis.gen _).get a = _
  rw [PerAxis.get_gen, if_pos configured]
  rfl

theorem insideLimits_adopt (h : Head) (t : PerAxis Int) : (h.adopt t).insideLimits = true ↔
    ∀ a, h.configured a = true → (h.axes.get a).working.contains (t.get a - (h.axes.get a).trim) = true := by
  unfold Head.insideLimits
  rw [List.all_eq_true]
  refine forall_congr' fun a => ?_
  rw [Head.mem_axisList]
  refine imp_congr_right fun configured => ?_
  rw [setpoint_adopt h t configured]
  rfl

theorem clearHalted_outside {t : PerAxis Int} (out : ((c.head i).adopt t).insideLimits ≠ true) :
    c.clearHalted i t = (c.adopted i t, .refused .range) := by
  refine if_pos ?_
  rw [Bool.not_eq_true', ← Bool.not_eq_true]
  exact fun h => out (c.head_adopted i t ▸ h)

theorem clearHalted_inside {t : PerAxis Int} (in_ : ((c.head i).adopt t).insideLimits = true) :
    c.clearHalted i t = if (c.adopted i t).conflicted i then
        ((c.adopted i t).setActivity i (.halted .conflict), .refused .zoneBusy)
      else ((c.adopted i t).clearAccepted i,
        .accepted (1#8 :: setpointBytes ((c.adopted i t).head i))) := by
  refine if_neg ?_
  rw [Bool.not_eq_true', Bool.not_eq_false]
  exact (c.head_adopted i t).symm ▸ in_

theorem setpointBytes_adopt (h : Head) (t : PerAxis Int) : setpointBytes (h.adopt t) =
    h.map.mask.axes.flatMap fun a => encPos (t.get a - (h.axes.get a).trim) := by
  unfold setpointBytes
  refine List.flatMap_congr fun a ha => ?_
  rw [setpoint_adopt h t ((Head.mem_axisList h a).1 ha)]

/-! ### An accepted CLEAR (R84, R115, R117) -/

/-- The record of a head that CLEAR frees. -/
def cleared (h : Head) : Head :=
  { h.settleSetpoint with track := { h.track with run := 0 }, activity := .idle }

/-- The part before the passes of an accepted CLEAR: the head free where it stands, its holdings its resident
zones. -/
def clearedFloor : Cm8 :=
  let e := (c.onHead i fun h => h.settleSetpoint.onTrack fun t => { t with run := 0 }).toFree i
  (e.recompute i).giveFree i (e.residentZones i)

theorem clearAccepted_eq : c.clearAccepted i = (c.clearedFloor i).settle := rfl

theorem clearedFloor_keeps (empty : (c.head i).queue = []) : (c.clearedFloor i).events = c.events ∧
    (c.clearedFloor i).head i = cleared (c.head i) ∧
    (∀ j, j ≠ i → (c.clearedFloor i).head j = c.head j) ∧
    (∀ z : Zone, (c.clearedFloor i).holder z =
      if (c.residentZones i).getLsbD z.val = true then
        if c.holder z = none then some i else c.holder z
      else if c.holder z = some i then none else c.holder z) ∧
    ((c.clearedFloor i).arbiter.released = true ↔ c.arbiter.released = true ∨
      ∃ z : Zone, c.holder z = some i ∧ (c.residentZones i).getLsbD z.val = false) := by
  have turned : c.Turned ((c.onHead i fun h => h.settleSetpoint.onTrack fun t => { t with run := 0 }).toFree i) i
      (cleared (c.head i)) 0#16 [] := by
    have placed := (turned_onHead c i fun h => h.settleSetpoint.onTrack fun t => { t with run := 0 }).trans
      (turned_toFree _ i)
    rw [head_onHead_self] at placed
    refine placed.headAs ?_
    show { (c.head i).settleSetpoint.onTrack (fun t => { t with run := 0 }) with
      activity := freeActivity c.clock.frame (c.head i).queue } = _
    rw [empty]
    rfl
  unfold clearedFloor
  dsimp only
  generalize (c.onHead i fun h => h.settleSetpoint.onTrack fun t => { t with run := 0 }).toFree i = e
    at turned ⊢
  have resident : e.residentZones i = c.residentZones i :=
    residentZones_congr turned.rest.2.2.2.1 (by rw [turned.head]; rfl) (by rw [turned.head]; rfl)
  have free : e.moveZones i = 0#16 := moveZones_free (by rw [turned.head]; rfl)
  have running : (e.head i).activity.isHalted = false := by rw [turned.head]; rfl
  refine ⟨?_, ?_, fun j n => ?_, fun z => ?_, ?_⟩
  · rw [events_giveFree, events_recompute, turned.events]
    rfl
  · rw [head_giveFree, head_recompute, turned.head]
  · rw [head_giveFree, head_recompute, turned.others j n]
  · rw [holder_giveFree, holder_recompute, resident, free, BitVec.or_zero, turned.holder_eq, running]
    cases (c.residentZones i).getLsbD z.val <;> simp
  · rw [released_giveFree, released_recompute _ _ running, resident, free, BitVec.or_zero,
      turned.arbiter.2.2]
    simp only [turned.holder_eq]

end Sys2Proof.Machine.Cm8

namespace Sys2Proof

open Sys2Proof.Machine Sys2Proof.Machine.Cm8

/-- Settles O57. -/
theorem clearFreesHaltedHead : Obligations.ClearFreesHaltedHead := by
  unfold Obligations.ClearFreesHaltedHead
  have taken (s : State) (i : Slot) : s.part.clear [slotByte i] = s.part.clearSlot i := by
    unfold clear
    dsimp only
    rw [slotOf_slotByte]
  have refused (s : State) (tag : Byte) (i : Slot) (ready : s.part.Ready) {d : Cm8} {why : Reason}
      (h : s.part.clearSlot i = (d, .refused why)) :
      exec (.clear tag [slotByte i]) s = .next (s.refuses d 0x56#8 tag why) :=
    congrArg Host.Outcome.next (s.command_refuses .clear tag _ _ ready ((taken s i).trans h))
  have accepted (s : State) (tag : Byte) (i : Slot) (ready : s.part.Ready) {d : Cm8} {data : List Byte}
      (h : s.part.clearSlot i = (d, .accepted data)) :
      exec (.clear tag [slotByte i]) s = .next (s.accepts d 0x56#8 tag data) :=
    congrArg Host.Outcome.next (s.command_accepts .clear tag _ _ ready ((taken s i).trans h))
  refine ⟨?_, ?_, ?_, ?_⟩
  · intro s tag i ready h
    exact refused s tag i ready (clearSlot_noHead _ i h)
  · intro s tag i w t ready linked reported act other measured h there c inside
    have row := clearSlot_halted s.part i linked reported act other measured
    refine ⟨fun out => ?_, fun in_ busy => ?_⟩
    · refine refused s tag i ready (row.trans (clearHalted_outside _ i fun h => out ?_))
      exact (insideLimits_adopt ..).1 h
    · refine (refused s tag i ready (row.trans ((clearHalted_inside _ i
        ((insideLimits_adopt ..).2 in_)).trans (if_pos ?_)))).trans ?_
      · unfold conflicted
        rw [Bool.not_eq_true']
        exact (obtainable_false_iff ..).2 busy
      · refine congrArg (fun d => Host.Outcome.next (s.refuses d 0x56#8 tag .zoneBusy)) ?_
        show (s.part.setHead i there).setHead i { (s.part.setHead i there).head i with
          activity := .halted .conflict } = _
        rw [setHead_setHead, head_setHead_self]
  · intro s tag i ready linked reported h
    refine ⟨fun run => ?_, fun act => ?_, fun w t act other measured empty => ?_⟩
    · exact accepted s tag i ready (clearSlot_running _ i linked reported run)
    · exact refused s tag i ready (clearSlot_mismatch _ i linked reported act)
    · intro c inside own
      have free : ¬ c.conflicted i = true := by
        unfold conflicted
        rw [Bool.not_eq_true', ← Bool.not_eq_true, not_not]
        exact (obtainable_iff ..).2 own
      have row := accepted s tag i ready ((clearSlot_halted s.part i linked reported act other measured).trans
        ((clearHalted_inside _ i ((insideLimits_adopt ..).2 inside)).trans (if_neg free)))
      have queue : (c.head i).queue = [] := (congrArg Head.queue (s.part.head_adopted i t)).trans empty
      obtain ⟨events, head, others, holders, released⟩ := c.clearedFloor_keeps i queue
      rw [show c.head i = h.adopt t from s.part.head_adopted i t] at head
      have settled : (c.clearAccepted i).head i = cleared (h.adopt t) := by
        rw [clearAccepted_eq, (passFrame_settle _).head_eq (by rw [head]; rfl), head]
      have setpoint (a : Axis) (configured : h.configured a = true) :
          ((c.clearAccepted i).head i).setpoint.get a = t.get a - (h.axes.get a).trim := by
        rw [settled]
        exact setpoint_adopt h t configured
      refine ⟨c.clearAccepted i, row.trans ?_, by rw [settled]; rfl, by rw [settled]; rfl,
        fun a configured => ⟨setpoint a configured, ?_⟩, ?_, c.clearedFloor i, rfl, events, ?_,
        fun j n => (others j n).trans (head_onHead_ne _ _ _ _ n), fun z => ?_, released⟩
      · refine congrArg (fun l => Host.Outcome.next (s.accepts (c.clearAccepted i) 0x56#8 tag (1#8 :: l))) ?_
        rw [head_adopted]
        exact setpointBytes_adopt h t
      · rw [settled]
        show (PerAxis.gen _).get a = _
        rw [PerAxis.get_gen, if_pos (show (h.adopt t).configured a = true from configured)]
        rfl
      · rw [clearAccepted_eq]
        refine (passFrame_settle _).holdsAll (by rw [head]; rfl) fun z resident => ?_
        rw [holders, if_pos resident]
        rcases own z resident with none | mine
        · rw [if_pos none]
        · rw [mine]
          exact if_neg nofun
      · rw [head]
        have previous : (cleared (h.adopt t)).previous = .gen fun a =>
            if h.configured a then t.get a - (h.axes.get a).trim else h.previous.get a := by
          refine PerAxis.ext_get fun a => ?_
          show (PerAxis.gen _).get a = _
          rw [PerAxis.get_gen, PerAxis.get_gen]
          by_cases configured : h.configured a = true
          · rw [if_pos configured, ← setpoint_adopt h t configured]
            exact if_pos configured
          · rw [if_neg configured]
            exact if_neg configured
        rw [← previous]
        rfl
      · rw [holders]
        by_cases resident : (c.residentZones i).getLsbD z.val = true
        · rw [if_pos resident, if_pos resident]
          rcases own z resident with none | mine
          · rw [if_pos none]
          · rw [mine]
            exact if_neg nofun
        · rw [if_neg resident, if_neg resident]
          rfl
  · intro s tag b ready high
    refine congrArg Host.Outcome.next (s.command_refuses .clear tag _ _ ready ?_)
    show s.part.clear [b] = _
    unfold clear
    dsimp only
    rw [slotOf_none high]

end Sys2Proof
end

section
/-! PROOF. What a pass makes of a waiting head, and what STOP makes of its own (R78, R80, R105, R125). -/

namespace Sys2Proof.Machine

theorem freeActivity_isFree (f : BitVec 32) (q : List QueueEntry) : (freeActivity f q).isFree = true := by
  unfold freeActivity
  split
  · split
    · split <;> rfl
    · rfl
  · rfl

theorem Activity.isFree_iff (a : Activity) : a.isFree = true ↔ a = .idle ∨ a = .waitCue := by
  cases a <;> simp [Activity.isFree]

/-- The activities that grant passes can give a head: its own, or that of a waiting head that was granted or
freed. -/
def AfterPass (a b : Activity) : Prop :=
  b = a ∨ (a.waiting ≠ none ∧ ((∃ n, b = .moving n none) ∨ b.isFree = true))

namespace AfterPass

theorem refl (a : Activity) : AfterPass a a := .inl rfl

/-- A head that does not wait keeps its activity. -/
theorem still {a b : Activity} (h : AfterPass a b) (w : a.waiting = none) : b = a :=
  h.elim id fun k => absurd w k.1

theorem trans {a b d : Activity} (h : AfterPass a b) (k : AfterPass b d) : AfterPass a d := by
  rcases h with rfl | ⟨w, granted | free⟩
  · exact k
  · obtain ⟨n, rfl⟩ := granted
    exact .inr ⟨w, .inl ⟨n, k.still rfl⟩⟩
  · have : b.waiting = none := by
      rcases (Activity.isFree_iff b).1 free with rfl | rfl <;> rfl
    exact .inr ⟨w, .inr (k.still this ▸ free)⟩

end AfterPass

namespace Cm8

variable (c : Cm8) (i j : Slot)

theorem startMove_moves (m : Move) (cue : Option (BitVec 32)) :
    ((c.startMove i m cue).head i).activity =
      .moving { m with flags := { m.flags with late := lateBy c.frame cue } } none := by
  simp [startMove, postStarted, makeActive]

theorem afterPass_handGrant : AfterPass (c.head j).activity ((c.handGrant i).head j).activity := by
  cases waits : c.waitingOf i with
  | none =>
    unfold handGrant
    rw [waits]
    exact .refl _
  | some w =>
    by_cases same : j = i
    · subst same
      refine .inr ⟨by rw [show (c.head j).activity.waiting = some w from waits]; nofun, ?_⟩
      unfold handGrant
      rw [waits]
      dsimp only
      split
      · exact .inl ⟨_, startMove_moves ..⟩
      · refine .inr ?_
        rw [head_recompute, toFree, head_onHead_self]
        exact freeActivity_isFree ..
    · unfold handGrant
      rw [waits]
      dsimp only
      split
      · exact .inl (by simp [startMove, postStarted, makeActive, same])
      · exact .inl (by simp [toFree, same])

theorem afterPass_foldl_handGrant (l : List Slot) :
    AfterPass (c.head j).activity ((l.foldl handGrant c).head j).activity := by
  induction l generalizing c with
  | nil => exact .refl _
  | cons i l ih => exact (c.afterPass_handGrant i j).trans (ih _)

theorem afterPass_settleN (n : Nat) : AfterPass (c.head j).activity ((settleN n c).head j).activity := by
  induction n generalizing c with
  | zero => exact .refl _
  | succ n ih =>
    rw [settleN_succ]
    split
    · have pass := c.judgePass.1.afterPass_foldl_handGrant j c.judgePass.2
      rw [head_judgePass] at pass
      exact pass.trans (ih _)
    · exact .refl _

theorem afterPass_settle : AfterPass (c.head j).activity (c.settle.head j).activity :=
  c.afterPass_settleN j 9

/-! ### What a stop planning depends on (R103, R104) -/

section
variable {c} {d : Cm8} {i} (zonemap : d.zonemap = c.zonemap)
  (holders : ∀ z : Zone, d.holder z = c.holder z)
  (head : ∃ q a, d.head i = { c.head i with queue := q, activity := a })
include zonemap holders head

theorem planStop_congr (m : Move) : d.planStop i m = c.planStop i m := by
  obtain ⟨q, a, same⟩ := head
  have held (z : Zone) : d.heldByOther i z = c.heldByOther i z := by
    unfold heldByOther
    rw [holders]
  have entries : d.entriesOf i = c.entriesOf i := by
    unfold entriesOf
    rw [zonemap]
  have blocker (st : Start) (t : Int) : d.stopBlocker i st t = c.stopBlocker i st t := by
    unfold stopBlocker
    rw [entries, same]
    simp only [held]
    rfl
  have shape (st : Start) : d.stopShape i st = c.stopShape i st := by
    unfold stopShape
    simp only [blocker, same]
    rfl
  have zones (n : Move) : d.sweepZones i n = c.sweepZones i n := by
    unfold sweepZones neededZones mappedZones
    rw [entries, same]
    rfl
  unfold planStop
  simp only [shape, zones, same]
  rfl

end

/-! ### STOP by the state of its head (R78) -/

theorem stopBy_free (free : (c.head i).activity.isFree = true) : c.stopBy i = c.toFree i := by
  unfold stopBy
  rcases (Activity.isFree_iff _).1 free with h | h <;> rw [h]

theorem stopBy_waiting {w : Waiting} (h : (c.head i).activity = .waitZone w) :
    c.stopBy i = (c.dropMove i w.move .flushed).restFree i := by
  unfold stopBy
  rw [h]

theorem stopBy_stopping {m : Move} {held : Option Held} (h : (c.head i).activity = .moving m held)
    (stop : m.cls = .stop) : c.stopBy i = c := by
  unfold stopBy
  rw [h]
  exact if_pos stop

theorem stopBy_moving {m : Move} {held : Option Held} (h : (c.head i).activity = .moving m held)
    (run : m.cls ≠ .stop) : c.stopBy i =
      ((c.dropHeld? i held .superseded).dropMove i m .superseded).beginStop i m := by
  unfold stopBy
  rw [h]
  exact if_neg run

theorem stopBy_jogging {j : Jog} (h : (c.head i).activity = .jogging j) :
    c.stopBy i = c.setActivity i (.jogging { j with commanded := .const 0 }) := by
  unfold stopBy
  rw [h]

/-- The part `e` is the part `c` with the queue of the head flushed, its activity `a`, the free zones of
`taken` given to it, and these records posted after those of the flush. -/
def Ended (e : Cm8) (a : Activity) (taken : ZoneSet) (records : List (Option Slot × Option Byte × Event)) :
    Prop :=
  c.Turned e i { c.head i with activity := a, queue := [] } taken
    (flushRecords i (c.head i).queue ++ records)

theorem stopHead_free (free : (c.head i).activity.isFree = true) :
    c.Ended i (c.stopHead i) .idle 0#16 [] := by
  have flushed := c.turned_flush i
  unfold stopHead
  rw [stopBy_free _ i (by rw [flushed.head]; exact free)]
  refine (flushed.trans (turned_toFree _ i)).headAs ?_
  rw [flushed.head]
  rfl

theorem stopHead_waiting {w : Waiting} (h : (c.head i).activity = .waitZone w) :
    ∃ e, c.Ended i e .idle 0#16 (moveRecords i w.move .flushed) ∧ c.stopHead i = (e.recompute i).settle := by
  have flushed := c.turned_flush i
  have dropped := flushed.trans (turned_dropMove _ i w.move .flushed)
  have freed := dropped.trans (turned_toFree _ i)
  rw [dropped.head, flushed.head] at freed
  refine ⟨_, freed.records ?_, ?_⟩
  · rw [List.append_nil]
  · unfold stopHead
    rw [stopBy_waiting _ i (by rw [flushed.head]; exact h)]
    rfl

theorem stopHead_stopping {m : Move} {held : Option Held} (h : (c.head i).activity = .moving m held)
    (stop : m.cls = .stop) : c.Ended i (c.stopHead i) (.moving m held) 0#16 [] := by
  have flushed := c.turned_flush i
  unfold stopHead
  rw [stopBy_stopping _ i (by rw [flushed.head]; exact h) stop]
  refine (flushed.headAs ?_).records (List.append_nil _).symm
  rw [← h]

theorem stopHead_moving {m : Move} {held : Option Held} (h : (c.head i).activity = .moving m held)
    (run : m.cls ≠ .stop) : ∃ e, c.Ended i e (.moving (c.planStop i m) none) (c.planStop i m).zones
      (heldRecords i held .superseded ++ moveRecords i m .superseded) ∧
        c.stopHead i = (e.recompute i).settle := by
  have flushed := c.turned_flush i
  have dropped := (flushed.trans (turned_dropHeld _ i held .superseded)).trans
    (turned_dropMove _ i m .superseded)
  have head : (((c.flush i).dropHeld? i held .superseded).dropMove i m .superseded).head i =
      { c.head i with queue := [] } := by
    rw [head_dropMove, (turned_dropHeld ..).head, flushed.head]
  have plan : (((c.flush i).dropHeld? i held .superseded).dropMove i m .superseded).planStop i m =
      c.planStop i m :=
    planStop_congr dropped.rest.2.2.2.1 dropped.holder_eq ⟨_, _, head⟩ m
  have given := dropped.trans (turned_giveFree _ i (c.planStop i m).zones)
  have begun := given.transTaken (turned_setActivity _ i (.moving (c.planStop i m) none))
  rw [given.head, head] at begun
  refine ⟨_, begun.records ?_, ?_⟩
  · simp
  · unfold stopHead
    rw [stopBy_moving _ i (by rw [flushed.head]; exact h) run]
    unfold beginStop takeOver
    rw [plan]

theorem stopHead_jogging {j : Jog} (h : (c.head i).activity = .jogging j) :
    c.Ended i (c.stopHead i) (.jogging { j with commanded := .const 0 }) 0#16 [] := by
  have flushed := c.turned_flush i
  unfold stopHead
  rw [stopBy_jogging _ i (by rw [flushed.head]; exact h)]
  refine (flushed.trans (turned_setActivity ..)).headAs ?_
  rw [flushed.head]

/-! ### The head and the others after STOP -/

/-- What STOP leaves of a head's activity (R78). -/
def StopsAs (a b : Activity) : Prop :=
  match a with
  | .waitZone _ => b = .idle
  | .moving m held =>
    if m.cls = .stop then b = .moving m held
    else ∃ n, b = .moving n none ∧ n.cls = .stop ∧ n.source = none ∧ n.tag = none ∧ n.profile = none ∧
      n.k = 0
  | .jogging j => b = .jogging { j with commanded := .const 0 }
  | _ => b = .idle

theorem callable_iff (h : Head) : h.callable = true ↔ h.link.state = .linked ∧ runs h = true := by
  unfold Head.callable runs
  rw [Bool.and_assoc, Bool.and_eq_true, Head.isLinked_iff]

/-- STOP leaves the head as R78 gives it, with its queue empty, and other heads as passes leave them. -/
theorem stopHead_heads (run : runs (c.head i) = true) :
    (∃ b, StopsAs (c.head i).activity b ∧ (c.stopHead i).head i =
      { c.head i with activity := b, queue := [] }) ∧
    (∀ j, j ≠ i → ∃ b, AfterPass (c.head j).activity b ∧
      (c.stopHead i).head j = { c.head j with activity := b }) := by
  obtain ⟨off, halted⟩ := (runs_iff _).1 run
  have whole {a : Activity} {taken : ZoneSet} {records : List (Option Slot × Option Byte × Event)}
      (as : StopsAs (c.head i).activity a) (h : c.Ended i (c.stopHead i) a taken records) :
      (∃ b, StopsAs (c.head i).activity b ∧ (c.stopHead i).head i =
        { c.head i with activity := b, queue := [] }) ∧
      (∀ j, j ≠ i → ∃ b, AfterPass (c.head j).activity b ∧
        (c.stopHead i).head j = { c.head j with activity := b }) :=
    ⟨⟨a, as, h.head⟩, fun j n => ⟨_, .refl _, h.others j n⟩⟩
  have passes {a : Activity} {taken : ZoneSet} {records : List (Option Slot × Option Byte × Event)}
      {e : Cm8} (as : StopsAs (c.head i).activity a) (still : a.waiting = none)
      (h : c.Ended i e a taken records) (same : c.stopHead i = (e.recompute i).settle) :
      (∃ b, StopsAs (c.head i).activity b ∧ (c.stopHead i).head i =
        { c.head i with activity := b, queue := [] }) ∧
      (∀ j, j ≠ i → ∃ b, AfterPass (c.head j).activity b ∧
        (c.stopHead i).head j = { c.head j with activity := b }) := by
    rw [same]
    refine ⟨⟨a, as, ?_⟩, fun j n =>
      ⟨((e.recompute i).settle.head j).activity, ?_, ?_⟩⟩
    · rw [(passFrame_settle _).head_eq (by rw [head_recompute, h.head]; exact still), head_recompute, h.head]
    · have pass := (e.recompute i).afterPass_settle j
      rw [head_recompute, h.others j n] at pass
      exact pass
    · rw [(passFrame_settle _).head j, head_recompute, h.others j n]
  cases act : (c.head i).activity with
  | offline => exact absurd act off
  | halted w => exact absurd act (halted w)
  | idle => exact act ▸ whole (by rw [act]; rfl) (c.stopHead_free i (by rw [act]; rfl))
  | waitCue => exact act ▸ whole (by rw [act]; rfl) (c.stopHead_free i (by rw [act]; rfl))
  | waitZone w =>
    obtain ⟨e, h, same⟩ := c.stopHead_waiting i act
    exact act ▸ passes (by rw [act]; rfl) rfl h same
  | moving m held =>
    by_cases stop : m.cls = .stop
    · exact act ▸ whole (by rw [act]; exact (if_pos stop).mpr rfl) (c.stopHead_stopping i act stop)
    · obtain ⟨e, h, same⟩ := c.stopHead_moving i act stop
      exact act ▸ passes (by rw [act]; exact (if_neg stop).mpr ⟨_, rfl, rfl, rfl, rfl, rfl, rfl⟩) rfl h same
  | jogging j => exact act ▸ whole (by rw [act]; rfl) (c.stopHead_jogging i act)

end Cm8

end Sys2Proof.Machine
end

section
/-! PROOF. STOP ALL and HALT (O56). -/

namespace Sys2Proof.Machine.Cm8

variable {c : Cm8}

/-- An operation that takes no zone leaves the Zone Arbiter. -/
theorem Turned.arbiter_eq {d : Cm8} {i : Slot} {h : Head} {r : List (Option Slot × Option Byte × Event)}
    (p : c.Turned d i h 0#16 r) : d.arbiter = c.arbiter := by
  have holders : d.arbiter.holders = c.arbiter.holders := Vector.ext fun k hk => p.holder_eq ⟨k, hk⟩
  obtain ⟨mask, lowest, released⟩ := p.arbiter
  cases hd : d.arbiter
  cases hc : c.arbiter
  rw [hd, hc] at holders mask lowest released
  simp only at holders mask lowest released
  rw [holders, mask, lowest, released]

/-! ### STOP ALL (R79) -/

/-- What STOP ALL leaves of a head's activity: what STOP does, after the passes of the slots before it. -/
def StopsAll (a b : Activity) : Prop := ∃ x, AfterPass a x ∧ StopsAs x b

theorem StopsAs.still {a b : Activity} (h : StopsAs a b) : b.waiting = none := by
  cases a with
  | moving m held =>
    unfold StopsAs at h
    dsimp only at h
    split at h
    · rw [h]; rfl
    · obtain ⟨n, rfl, _⟩ := h
      rfl
  | _ => rw [show b = _ from h]; rfl

theorem runs_afterPass {a b : Activity} (h : AfterPass a b) :
    (!b.isOffline && !b.isHalted) = (!a.isOffline && !a.isHalted) := by
  rcases h with rfl | ⟨waits, other⟩
  · rfl
  · have run : (!b.isOffline && !b.isHalted) = true := by
      rcases other with ⟨n, rfl⟩ | free
      · rfl
      · rcases (Activity.isFree_iff b).1 free with rfl | rfl <;> rfl
    rw [run]
    cases a with
    | waitZone w => rfl
    | _ => exact absurd rfl waits

theorem callable_afterPass (h : Head) {b : Activity} (pass : AfterPass h.activity b) :
    { h with activity := b }.callable = h.callable := by
  show (h.isLinked && !b.isOffline && !b.isHalted) = (h.isLinked && !h.activity.isOffline && !h.activity.isHalted)
  rw [Bool.and_assoc, runs_afterPass pass, Bool.and_assoc]

theorem stopEach_eq (c : Cm8) (n : Nat) (i : Slot) :
    stopEach (c, n) i = if (c.head i).callable then (c.stopHead i, n + 1) else (c, n) := rfl

/-- What STOP ALL over distinct slots leaves of every head, and how many it stops. -/
theorem foldl_stopEach (l : List Slot) (nodup : l.Nodup) (c : Cm8) (n : Nat) :
    (∀ j, j ∈ l → (c.head j).callable = true → ∃ b, StopsAll (c.head j).activity b ∧
      (l.foldl stopEach (c, n)).1.head j = { c.head j with activity := b, queue := [] }) ∧
    (∀ j, (j ∈ l → (c.head j).callable = false) → ∃ b, AfterPass (c.head j).activity b ∧
      (l.foldl stopEach (c, n)).1.head j = { c.head j with activity := b }) ∧
    (l.foldl stopEach (c, n)).2 = n + (l.filter fun j => (c.head j).callable).length := by
  induction l generalizing c n with
  | nil => exact ⟨nofun, fun j _ => ⟨_, .refl _, rfl⟩, rfl⟩
  | cons i l ih =>
    obtain ⟨new, rest⟩ := List.nodup_cons.1 nodup
    rw [List.foldl_cons, stopEach_eq]
    cases call : (c.head i).callable with
    | false =>
      obtain ⟨stops, others, count⟩ := ih rest c n
      rw [if_neg Bool.false_ne_true]
      refine ⟨fun j hj callable => ?_, fun j out => ?_, ?_⟩
      · rcases List.mem_cons.1 hj with rfl | hj
        · exact Bool.noConfusion (call.symm.trans callable)
        · exact stops j hj callable
      · exact others j fun hj => out (List.mem_cons_of_mem _ hj)
      · rw [count, List.filter_cons, if_neg (Bool.eq_false_iff.1 call)]
    | true =>
      obtain ⟨⟨own, as, head⟩, away⟩ := c.stopHead_heads i ((callable_iff _).1 call).2
      obtain ⟨stops, others, count⟩ := ih rest (c.stopHead i) (n + 1)
      rw [if_pos rfl]
      have same (j : Slot) (ne : j ≠ i) : ((c.stopHead i).head j).callable = (c.head j).callable := by
        obtain ⟨x, pass, hx⟩ := away j ne
        rw [hx]
        exact callable_afterPass _ pass
      refine ⟨fun j hj callable => ?_, fun j out => ?_, ?_⟩
      · by_cases ji : j = i
        · subst ji
          obtain ⟨b, pass, hb⟩ := others j fun h => absurd h new
          rw [head] at pass hb
          rw [pass.still as.still] at hb
          exact ⟨own, ⟨_, .refl _, as⟩, hb⟩
        · obtain ⟨x, pass, hx⟩ := away j ji
          obtain ⟨b, ⟨y, pass', as'⟩, hb⟩ := stops j ((List.mem_cons.1 hj).resolve_left ji)
            ((same j ji).trans callable)
          rw [hx] at pass' hb
          exact ⟨b, ⟨y, pass.trans pass', as'⟩, hb⟩
      · have ji : j ≠ i := fun h => Bool.noConfusion ((out (h ▸ List.mem_cons_self ..)).symm.trans (h ▸ call))
        obtain ⟨x, pass, hx⟩ := away j ji
        obtain ⟨b, pass', hb⟩ := others j fun hj =>
          (same j ji).trans (out (List.mem_cons_of_mem _ hj))
        rw [hx] at pass' hb
        exact ⟨b, pass.trans pass', hb⟩
      · have later : (l.filter fun j => ((c.stopHead i).head j).callable) =
            l.filter fun j => (c.head j).callable :=
          List.filter_congr fun j hj => same j fun h => new (h ▸ hj)
        rw [count, later, List.filter_cons, if_pos call, List.length_cons]
        omega

/-! ### HALT (R83) -/

variable (c) (i : Slot)

theorem halt_all : c.halt [0xFF#8] = .ok ((Slot.all.foldl (haltEach .command) (c, 0)).1,
    enc1 (Slot.all.foldl (haltEach .command) (c, 0)).2) := rfl

theorem slotByte_ne_all : slotByte i ≠ 0xFF#8 := by
  revert i
  decide

theorem halt_slot (on : (c.head i).activity ≠ .offline) : c.halt [slotByte i] =
    .ok ((haltEach .command (c, 0) i).1, enc1 (haltEach .command (c, 0) i).2) := by
  unfold halt
  dsimp only
  rw [if_neg (slotByte_ne_all i), slotOf_slotByte]
  dsimp only
  rw [if_neg ((Activity.isOffline_iff _).not.2 on)]

theorem halt_offline (off : (c.head i).activity = .offline) : c.halt [slotByte i] = .error .noHead := by
  unfold halt
  dsimp only
  rw [if_neg (slotByte_ne_all i), slotOf_slotByte]
  dsimp only
  rw [if_pos ((Activity.isOffline_iff _).2 off)]

theorem halt_range {b : Byte} (high : 8 ≤ b.toNat) (one : b.toNat ≤ 254) : c.halt [b] = .error .range := by
  have ne : b ≠ 0xFF#8 := fun h => by
    rw [h] at one
    exact absurd one (by decide)
  unfold halt
  dsimp only
  rw [if_neg ne, slotOf_none high]

end Sys2Proof.Machine.Cm8

namespace Sys2Proof

open Sys2Proof.Machine Sys2Proof.Machine.Cm8

/-- Settles O56. -/
theorem stopAllAndHaltCount : Obligations.StopAllAndHaltCount := by
  unfold Obligations.StopAllAndHaltCount
  refine ⟨?_, stopEach_eq, ?_, ?_⟩
  · intro s tag i ready c free d
    obtain ⟨stops, others, count⟩ := foldl_stopEach Slot.all nodup_slots c 0
    refine ⟨?_, fun j callable => ?_, fun j still => ?_, ?_, fun run => ?_, fun halted => ?_, fun off => ?_⟩
    · have row := s.verdict_accepts .stopAll tag [] (fun c => c.stopAll []) ready (d := d)
        (data := enc1 (Slot.all.foldl stopEach (c, 0)).2) rfl
      rw [count, Nat.zero_add] at row
      exact row
    · obtain ⟨b, ⟨x, pass, as⟩, hb⟩ := stops j (Slot.mem_all j) callable
      rw [show d.head j = _ from hb]
      refine ⟨rfl, rfl, ?_⟩
      have kept (still : (c.head j).activity.waiting = none) : StopsAs (c.head j).activity b :=
        pass.still still ▸ as
      cases act : (c.head j).activity with
      | waitZone w =>
        rcases pass with same | ⟨_, ⟨n, moves⟩ | idle⟩
        · rw [same, act] at as
          exact .inl as
        · rw [moves] at as
          refine .inr ?_
          by_cases stop : n.cls = .stop
          · exact ⟨n, ((if_pos stop).mp as : b = .moving n none), stop⟩
          · obtain ⟨m, hm, cls, _⟩ := (if_neg stop).mp as
            exact ⟨m, hm, cls⟩
        · refine .inl ?_
          rcases (Activity.isFree_iff x).1 idle with h | h <;> rw [h] at as <;> exact as
      | _ =>
        have own := kept (by rw [act]; rfl)
        rw [act] at own
        exact own
    · obtain ⟨b, pass, hb⟩ := others j fun _ => by
        show (c.head j).callable = false
        unfold Head.callable
        rw [Bool.and_assoc, show (!(c.head j).activity.isOffline && !(c.head j).activity.isHalted) = false
          from still, Bool.and_false]
      have waits : (c.head j).activity.waiting = none := by
        cases act : (c.head j).activity with
        | waitZone w =>
          have := (show (!(c.head j).activity.isOffline && !(c.head j).activity.isHalted) = false from still)
          rw [act] at this
          nomatch this
        | _ => rfl
      rw [show d.head j = _ from hb, pass.still waits]
    · obtain ⟨heads, count, _⟩ := foldl_turns (haltEach_passes .command) (haltEach_turns .command) Slot.all
        nodup_slots (c, 0)
      intro e
      refine ⟨?_, fun j => ?_⟩
      · have row := s.verdict_accepts .halt tag [0xFF#8] (fun c => c.halt [0xFF#8]) ready (halt_all c)
        rw [count.trans (Nat.zero_add _)] at row
        exact row
      · rw [show e.head j = _ from heads j]
        simp only [Slot.mem_all, true_and]
        show (if runs (c.head j) = true then haltedAs .command (c.head j) else c.head j).activity =
          if runs (c.head j) = true then _ else _
        split <;> rfl
    · have row := s.verdict_accepts .halt tag [slotByte i] (fun c => c.halt [slotByte i]) ready
        (halt_slot c i ((runs_iff _).1 run).1)
      rw [haltEach_halts .command (c, 0) i run] at row
      exact row
    · obtain ⟨w, hw⟩ := (Activity.isHalted_iff _).1 halted
      have row := s.verdict_accepts .halt tag [slotByte i] (fun c => c.halt [slotByte i]) ready
        (halt_slot c i (by rw [hw]; nofun))
      rw [haltEach_passes .command (c, 0) i (Bool.eq_false_iff.2 fun h => ((runs_iff _).1 h).2 w hw)] at row
      exact row
    · exact s.verdict_refuses .halt tag [slotByte i] (fun c => c.halt [slotByte i]) ready (halt_offline c i off)
  · intro c i cause d
    have turned := c.turned_enterHalted i cause
    rw [show d.head i = _ from turned.head]
    refine ⟨rfl, rfl, rfl, rfl, rfl, rfl, rfl, ?_, turned.holder_eq, turned.others, turned.arbiter_eq,
      turned.rest.1, turned.rest.2.1⟩
    refine turned.events.trans (congrArg (fun r => c.events.told c.clock.frame (r ++ _ ++ _)) ?_)
    cases (c.head i).activity with
    | moving m held =>
      cases held with
      | none => exact List.append_nil _
      | some x => rfl
    | _ => rfl
  · intro s tag b ready high one
    exact s.verdict_refuses .halt tag [b] (fun c => c.halt [b]) ready (halt_range _ high one)

end Sys2Proof
end

section
/-! PROOF. Profile arithmetic: clamping, rounding, least durations, the cubic between its ends, sweeps, and the
nearest range (R13, R15, R98 to R104). -/

namespace Sys2Proof.Machine

/-! ### Intervals -/

theorem Span.contains_iff (i : Span) (p : Int) : i.contains p = true ↔ i.lo ≤ p ∧ p ≤ i.hi :=
  decide_eq_true_iff

theorem Span.meets_iff (i j : Span) : i.meets j = true ↔ i.lo ≤ j.hi ∧ j.lo ≤ i.hi := decide_eq_true_iff

theorem Span.contains_clamp {i : Span} (h : i.lo ≤ i.hi) (p : Int) : i.contains (i.clamp p) = true := by
  rw [Span.contains_iff]
  unfold Span.clamp
  split
  · omega
  · split <;> omega

theorem Span.clamp_eq {i : Span} (h : i.lo ≤ i.hi) (p : Int) : i.clamp p = max i.lo (min i.hi p) := by
  unfold Span.clamp
  split
  · omega
  · split <;> omega

/-- A position inside the interval is left as it is. -/
theorem Span.clamp_of_contains {i : Span} {p : Int} (h : i.contains p = true) : i.clamp p = p := by
  rw [Span.contains_iff] at h
  unfold Span.clamp
  rw [if_neg (by omega), if_neg (by omega)]

/-! ### Rounding -/

theorem roundDiv_nonneg {n : Int} (h : 0 ≤ n) (d : Nat) : 0 ≤ roundDiv n d := by
  obtain ⟨m, rfl⟩ := Int.eq_ofNat_of_zero_le h
  rw [roundDiv_natCast]
  exact Int.natCast_nonneg _

theorem roundDiv_le_natCast {n : Int} {m : Nat} (h : n ≤ m) (d : Nat) : roundDiv n d ≤ roundDiv m d := by
  rcases lt_or_ge n 0 with neg | pos
  · have : roundDiv (-n) d ≥ 0 := roundDiv_nonneg (by omega) d
    rw [roundDiv_neg] at this
    have := roundDiv_nonneg (Int.natCast_nonneg m) d
    omega
  · obtain ⟨k, rfl⟩ := Int.eq_ofNat_of_zero_le pos
    rw [roundDiv_natCast, roundDiv_natCast]
    exact Int.ofNat_le.2 (Nat.div_le_div_right (by omega))

/-- Half a number, rounded away from zero, is at least half of it. -/
theorem le_two_mul_roundDiv_two {n : Int} (h : 0 ≤ n) : n ≤ 2 * roundDiv n 2 := by
  have near := roundDiv_nearest n (d := 2) (by omega)
  omega

/-! ### Least durations (R98, R103) -/

theorem foldl_max_le_iff {α : Type} (l : List α) (f : α → Nat) (d k : Nat) :
    l.foldl (fun d a => max d (f a)) d ≤ k ↔ d ≤ k ∧ ∀ a ∈ l, f a ≤ k := by
  induction l generalizing d with
  | nil => simp
  | cons a l ih =>
    rw [List.foldl_cons, ih, List.forall_mem_cons, max_le_iff, and_assoc]

theorem ceilDiv_le_iff {n d k : Nat} (hd : 1 ≤ d) : ceilDiv n d ≤ k ↔ n ≤ d * k := by
  unfold ceilDiv
  rw [← Nat.lt_succ_iff, Nat.div_lt_iff_lt_mul hd, Nat.succ_mul, Nat.mul_comm d k]
  omega

/-! ### The cubic between its ends (R100) -/

/-- What the numerator leaves of Δ · D³. -/
theorem numerator_left (delta v d k : Int) : delta * d ^ 3 - pathNumerator delta v d k =
    (d - k) ^ 2 * (delta * (d + 2 * k) - v * d * k) := by
  unfold pathNumerator
  ring

theorem numerator_nonneg {delta v d k : Int} (hdelta : 0 ≤ delta) (hv : 0 ≤ v) (hk : 0 ≤ k) (hkd : k ≤ d) :
    0 ≤ pathNumerator delta v d k := by
  have form : pathNumerator delta v d k = delta * (k ^ 2 * (3 * d - 2 * k)) + v * (d * k * (d - k) ^ 2) := by
    unfold pathNumerator
    ring
  rw [form]
  exact add_nonneg (mul_nonneg hdelta (displacementCoeff_bounds hk hkd).1)
    (mul_nonneg hv (velocityCoeff_bounds hk hkd).1)

/-- With an initial velocity of at most three times the mean velocity the cubic does not overshoot. -/
theorem numerator_le {delta v d k : Int} (hdelta : 0 ≤ delta) (hk : 0 ≤ k) (hkd : k ≤ d)
    (slow : v * d ≤ 3 * delta) : pathNumerator delta v d k ≤ delta * d ^ 3 := by
  have rest : 0 ≤ delta * (d + 2 * k) - v * d * k := by
    have := mul_le_mul_of_nonneg_right slow hk
    have := mul_nonneg hdelta (Int.sub_nonneg.2 hkd)
    nlinarith
  have := mul_nonneg (sq_nonneg (d - k)) rest
  rw [← numerator_left] at this
  omega

theorem numerator_neg (delta v d k : Int) : pathNumerator (-delta) (-v) d k = -pathNumerator delta v d k := by
  unfold pathNumerator
  ring

/-- The path of the mirrored move is the mirrored path. -/
theorem pathValue_neg (p v t : Int) (d k : Nat) : pathValue (-p) (-v) (-t) d k = -pathValue p v t d k := by
  unfold pathValue
  rw [show -t - -p = -(t - p) by ring, numerator_neg, roundDiv_neg]
  ring

theorem pathValue_end (p v t : Int) {d : Nat} (hd : 0 < d) : pathValue p v t d d = t := by
  unfold pathValue
  rw [roundDiv_pathNumerator_end _ _ hd]
  ring

/-- Ahead: a move with velocity and displacement forwards stays ahead of its start. -/
theorem le_pathValue {p v t : Int} {d k : Nat} (ahead : p ≤ t) (hv : 0 ≤ v) (hk : k ≤ d) :
    p ≤ pathValue p v t d k := by
  have := roundDiv_nonneg (numerator_nonneg (Int.sub_nonneg.2 ahead) hv (Int.natCast_nonneg k)
    (Int.ofNat_le.2 hk)) (d ^ 3)
  unfold pathValue
  omega

/-- One that is slow enough stays behind its target. -/
theorem pathValue_le {p v t : Int} {d k : Nat} (ahead : p ≤ t) (hd : 0 < d) (hk : k ≤ d)
    (slow : v * d ≤ 3 * (t - p)) : pathValue p v t d k ≤ t := by
  obtain ⟨delta, hdelta⟩ := Int.eq_ofNat_of_zero_le (Int.sub_nonneg.2 ahead)
  have bound := numerator_le (Int.sub_nonneg.2 ahead) (Int.natCast_nonneg k) (Int.ofNat_le.2 hk) slow
  have most : pathNumerator (t - p) v d k ≤ ((delta * d ^ 3 : Nat) : Int) := by
    rw [hdelta] at bound ⊢
    exact_mod_cast bound
  have rounded := roundDiv_le_natCast most (d ^ 3)
  rw [Nat.cast_mul, roundDiv_mul_self _ (pow_pos hd 3)] at rounded
  unfold pathValue
  omega

/-! ### A stop's path (R103, R104) -/

/-- What a stop move's target has so that its path does not pass it: the target is not behind, and the stop is
slow enough, or one tick long, or its target is the end of the working interval. -/
def StopsBy (w : Span) (p v t : Int) (d : Nat) : Prop :=
  w.contains t = true ∧
    (0 < v → p ≤ t ∧ (v * d ≤ 3 * (t - p) ∨ d = 1 ∨ t = w.hi)) ∧
    (v < 0 → t ≤ p ∧ (-v * d ≤ 3 * (p - t) ∨ d = 1 ∨ t = w.lo)) ∧ (v = 0 → t = p)

theorem stop_forward {w : Span} {p v t : Int} {d k : Nat} (start : w.contains p = true) (first : 1 ≤ k)
    (last : k ≤ d) (hv : 0 ≤ v) (ahead : p ≤ t)
    (stops : v * d ≤ 3 * (t - p) ∨ d = 1 ∨ t = w.hi) :
    p ≤ w.clamp (pathValue p v t d k) ∧ w.clamp (pathValue p v t d k) ≤ t := by
  have low := le_pathValue ahead hv last
  have high : pathValue p v t d k ≤ t ∨ t = w.hi := by
    rcases stops with slow | one | edge
    · exact .inl (pathValue_le ahead (by omega) last slow)
    · obtain rfl : k = d := by omega
      exact .inl (pathValue_end p v t (by omega)).le
    · exact .inr edge
  rw [Span.contains_iff] at start
  unfold Span.clamp
  split
  · omega
  · split
    · omega
    · rcases high with h | h <;> omega

/-- The clamp of the mirrored interval is the mirrored clamp. -/
theorem clamp_neg {w : Span} (h : w.lo ≤ w.hi) (p : Int) : (⟨-w.hi, -w.lo⟩ : Span).clamp (-p) = -w.clamp p := by
  rw [Span.clamp_eq h, Span.clamp_eq (by dsimp only; omega)]
  dsimp only
  omega

theorem stop_between {w : Span} {p v t : Int} {d k : Nat} (start : w.contains p = true) (first : 1 ≤ k)
    (last : k ≤ d) (stops : StopsBy w p v t d) :
    min p t ≤ w.clamp (pathValue p v t d k) ∧ w.clamp (pathValue p v t d k) ≤ max p t := by
  obtain ⟨inside, forward, backward, still⟩ := stops
  rcases lt_trichotomy v 0 with neg | zero | pos
  · obtain ⟨behind, how⟩ := backward neg
    have sp := (Span.contains_iff ..).1 start
    have st := (Span.contains_iff ..).1 inside
    have mirror := stop_forward (w := ⟨-w.hi, -w.lo⟩) (p := -p) (v := -v) (t := -t) (d := d)
      ((Span.contains_iff ..).2 (by dsimp only; omega)) first last (by omega) (by omega) (by
        rcases how with slow | one | edge
        · exact .inl (by rw [show 3 * (-t - -p) = 3 * (p - t) by ring]; exact slow)
        · exact .inr (.inl one)
        · exact .inr (.inr (by rw [edge])))
    rw [pathValue_neg, clamp_neg (by omega)] at mirror
    omega
  · have both := stop_forward start first last (v := v) (by omega) (still zero).ge
      (.inl (by rw [zero, still zero]; simp))
    have := still zero
    omega
  · obtain ⟨ahead, how⟩ := forward pos
    have both := stop_forward start first last pos.le ahead how
    omega

/-! ### Sweeps (R102) -/

/-- An interval with the start and the first n points holds their sweep. -/
theorem sweepSpan_within {q : Nat → Int} {p lo hi : Int} (start : lo ≤ p ∧ p ≤ hi) (n : Nat)
    (points : ∀ k, 1 ≤ k → k ≤ n → lo ≤ q k ∧ q k ≤ hi) :
    lo ≤ (sweepSpan q p n).lo ∧ (sweepSpan q p n).hi ≤ hi := by
  induction n with
  | zero => exact start
  | succ n ih =>
    have before := ih fun k h1 h2 => points k h1 (Nat.le_succ_of_le h2)
    have now := points (n + 1) (Nat.succ_le_succ (Nat.zero_le n)) le_rfl
    show lo ≤ min (sweepSpan q p n).lo (q (n + 1)) ∧ max (sweepSpan q p n).hi (q (n + 1)) ≤ hi
    omega

/-! ### The nearest range (R104, R107) -/

namespace Cm8

theorem nearest_eq_none_iff (v : Int) (l : List ZoneEntry) : nearest v l = none ↔ l = [] := by
  cases l with
  | nil => exact iff_of_true rfl rfl
  | cons e l =>
    refine iff_of_false (fun h => ?_) nofun
    unfold nearest at h
    split at h
    · nomatch h
    · split at h <;> split at h <;> nomatch h

/-- The nearest range is one of the list, and none of the list begins before it. -/
theorem nearest_eq_some {v : Int} {l : List ZoneEntry} {e : ZoneEntry} (h : nearest v l = some e) :
    e ∈ l ∧ ∀ f ∈ l, (0 < v → e.range.lo ≤ f.range.lo) ∧ (¬ 0 < v → f.range.hi ≤ e.range.hi) := by
  induction l generalizing e with
  | nil => nomatch h
  | cons x l ih =>
    unfold nearest at h
    split at h
    · rename_i none
      obtain rfl := Option.some.inj h
      rw [(nearest_eq_none_iff v l).1 none]
      simp
    · rename_i y near
      obtain ⟨mem, least⟩ := ih near
      have pick : e = x ∧ ((0 < v → x.range.lo ≤ y.range.lo) ∧ (¬ 0 < v → y.range.hi ≤ x.range.hi)) ∨
          e = y ∧ ((0 < v → y.range.lo ≤ x.range.lo) ∧ (¬ 0 < v → x.range.hi ≤ y.range.hi)) := by
        split at h <;> split at h <;> obtain rfl := Option.some.inj h <;> simp <;> omega
      rcases pick with ⟨rfl, far⟩ | ⟨rfl, far⟩
      · refine ⟨List.mem_cons_self .., fun f hf => ?_⟩
        rcases List.mem_cons.1 hf with rfl | hf
        · exact ⟨fun _ => le_rfl, fun _ => le_rfl⟩
        · have := least f hf
          exact ⟨fun pos => (far.1 pos).trans (this.1 pos), fun neg => (this.2 neg).trans (far.2 neg)⟩
      · refine ⟨List.mem_cons_of_mem _ mem, fun f hf => ?_⟩
        rcases List.mem_cons.1 hf with rfl | hf
        · exact far
        · exact least f hf

end Cm8

end Sys2Proof.Machine
end

section
/-! PROOF. Stop moves: duration, targets, and the floor that they keep off (O55). -/

namespace Sys2Proof.Machine.Cm8

variable (c : Cm8) (i : Slot) (h : Head) (st : Start)

/-! ### The duration (R103) -/

theorem stopDuration_le_iff (amax : ∀ a, 1 ≤ (h.axes.get a).amax) (k : Nat) : stopDuration h st ≤ k ↔
    4095 ≤ k ∨ (1 ≤ k ∧ ∀ a, h.configured a = true →
      (st.v0.get a).natAbs ≤ (h.axes.get a).amax * k) := by
  unfold stopDuration
  rw [min_le_iff, foldl_max_le_iff]
  refine or_congr Iff.rfl (and_congr_right fun _ => forall_congr' fun a => ?_)
  rw [Head.mem_axisList, ceilDiv_le_iff (amax a)]

theorem stopDuration_bounds : 1 ≤ stopDuration h st ∧ stopDuration h st ≤ 4095 := by
  refine ⟨le_min (by decide) ?_, min_le_left _ _⟩
  exact ((foldl_max_le_iff _ _ 1 _).1 le_rfl).1

/-! ### The range that blocks a stop (R104) -/

/-- A range of a zone of another head that meets the stop interval of a moving TRAVEL. -/
def Blocks (t : Int) (e : ZoneEntry) : Prop :=
  (c.head i).hasTravel = true ∧ st.v0.get .travel ≠ 0 ∧ e ∈ c.entriesOf i ∧
    c.heldByOther i e.zone = true ∧
    e.range.meets ⟨min (st.p0.get .travel) t, max (st.p0.get .travel) t⟩ = true

/-- One blocking range begins no later than another, in the direction of the stop. -/
def Before (v : Int) (e f : ZoneEntry) : Prop :=
  (0 < v → e.range.lo ≤ f.range.lo) ∧ (v < 0 → f.range.hi ≤ e.range.hi)

theorem stopBlocker_moving (t : Int)
    (moves : (c.head i).hasTravel = true ∧ st.v0.get .travel ≠ 0) : c.stopBlocker i st t =
      nearest (st.v0.get .travel) ((c.entriesOf i).filter fun e =>
        c.heldByOther i e.zone && e.range.meets (between (st.p0.get .travel) t)) := by
  refine if_pos ?_
  rw [Bool.and_eq_true, decide_eq_true_iff]
  exact moves

theorem mem_blocking (t : Int) (moves : (c.head i).hasTravel = true ∧ st.v0.get .travel ≠ 0)
    (e : ZoneEntry) : e ∈ ((c.entriesOf i).filter fun e =>
      c.heldByOther i e.zone && e.range.meets (between (st.p0.get .travel) t)) ↔ c.Blocks i st t e := by
  rw [List.mem_filter, Bool.and_eq_true]
  exact ⟨fun k => ⟨moves.1, moves.2, k⟩, fun k => k.2.2⟩

theorem stopBlocker_none {t : Int} (h : c.stopBlocker i st t = none) (e : ZoneEntry) :
    ¬ c.Blocks i st t e := by
  intro b
  rw [stopBlocker_moving c i st t ⟨b.1, b.2.1⟩, nearest_eq_none_iff] at h
  have := (mem_blocking c i st t ⟨b.1, b.2.1⟩ e).2 b
  rw [h] at this
  exact List.not_mem_nil this

theorem stopBlocker_some {t : Int} {e : ZoneEntry} (h : c.stopBlocker i st t = some e) :
    c.Blocks i st t e ∧ ∀ f, c.Blocks i st t f → Before (st.v0.get .travel) e f := by
  by_cases moves : (c.head i).hasTravel = true ∧ st.v0.get .travel ≠ 0
  · rw [stopBlocker_moving c i st t moves] at h
    obtain ⟨mem, least⟩ := nearest_eq_some h
    refine ⟨(mem_blocking c i st t moves e).1 mem, fun f hf => ?_⟩
    have := least f ((mem_blocking c i st t moves f).2 hf)
    exact ⟨this.1, fun neg => this.2 (by omega)⟩
  · unfold stopBlocker at h
    rw [if_neg (by rw [Bool.and_eq_true, decide_eq_true_iff]; exact moves)] at h
    nomatch h

/-! ### The shape of a stop (R103, R104) -/

/-- The duration and the targets before the examination of R104. -/
def fullStop : Nat × PerAxis Int :=
  (stopDuration (c.head i) st, .gen (stopTarget (c.head i) st (stopDuration (c.head i) st)))

/-- The TRAVEL target of a blocked stop, and the distance to it. -/
def stopAt (e : ZoneEntry) : Int := lastBefore (st.v0.get .travel) e.range

def stopDist (e : ZoneEntry) : Nat := (stopAt st e - st.p0.get .travel).natAbs

theorem stopShape_free (free : c.stopBlocker i st ((c.fullStop i st).2.get .travel) = none) :
    c.stopShape i st = c.fullStop i st := by
  unfold stopShape
  dsimp only
  rw [show c.stopBlocker i st ((PerAxis.gen (stopTarget (c.head i) st
    (stopDuration (c.head i) st))).get .travel) = none from free]
  rfl

theorem stopShape_blocked {e : ZoneEntry}
    (blocked : c.stopBlocker i st ((c.fullStop i st).2.get .travel) = some e) : c.stopShape i st =
      if (st.v0.get .travel).natAbs * (c.fullStop i st).1 ≤ 3 * stopDist st e then
        ((c.fullStop i st).1, (c.fullStop i st).2.set .travel (stopAt st e))
      else (max 1 (3 * stopDist st e / (st.v0.get .travel).natAbs),
        (PerAxis.gen (stopTarget (c.head i) st
          (max 1 (3 * stopDist st e / (st.v0.get .travel).natAbs)))).set .travel (stopAt st e)) := by
  unfold stopShape
  dsimp only
  rw [show c.stopBlocker i st ((PerAxis.gen (stopTarget (c.head i) st
    (stopDuration (c.head i) st))).get .travel) = some e from blocked]
  rfl

/-- A stop has its full targets and duration, or it is blocked by the nearest range: its TRAVEL target is then
the last count before it, its duration slow enough for it, and its other targets are of that duration. -/
theorem stopShape_cases :
    (c.stopShape i st = c.fullStop i st ∧ ∀ e, ¬ c.Blocks i st ((c.fullStop i st).2.get .travel) e) ∨
    ∃ e, c.Blocks i st ((c.fullStop i st).2.get .travel) e ∧
      (∀ f, c.Blocks i st ((c.fullStop i st).2.get .travel) f → Before (st.v0.get .travel) e f) ∧
      (c.stopShape i st).2 =
        (PerAxis.gen (stopTarget (c.head i) st (c.stopShape i st).1)).set .travel (stopAt st e) ∧
      ((st.v0.get .travel).natAbs * (c.fullStop i st).1 ≤ 3 * stopDist st e →
        (c.stopShape i st).1 = (c.fullStop i st).1) ∧
      (3 * stopDist st e < (st.v0.get .travel).natAbs * (c.fullStop i st).1 →
        (c.stopShape i st).1 = max 1 (3 * stopDist st e / (st.v0.get .travel).natAbs)) := by
  cases blocker : c.stopBlocker i st ((c.fullStop i st).2.get .travel) with
  | none => exact .inl ⟨c.stopShape_free i st blocker, c.stopBlocker_none i st blocker⟩
  | some e =>
    obtain ⟨blocks, least⟩ := c.stopBlocker_some i st blocker
    refine .inr ⟨e, blocks, least, ?_⟩
    rw [c.stopShape_blocked i st blocker]
    split
    · exact ⟨rfl, fun _ => rfl, fun long => absurd long (by omega)⟩
    · exact ⟨rfl, fun short => absurd short (by omega), fun _ => rfl⟩

theorem stopShape_duration : 1 ≤ (c.stopShape i st).1 ∧ (c.stopShape i st).1 ≤ 4095 := by
  have full := stopDuration_bounds (c.head i) st
  rcases c.stopShape_cases i st with ⟨same, _⟩ | ⟨e, blocks, _, _, slow, fast⟩
  · rw [same]
    exact full
  · have moving : 0 < (st.v0.get .travel).natAbs := Int.natAbs_pos.2 blocks.2.1
    rcases Nat.lt_or_ge (3 * stopDist st e) ((st.v0.get .travel).natAbs * (c.fullStop i st).1) with long | short
    · rw [fast long]
      have : 3 * stopDist st e / (st.v0.get .travel).natAbs < (c.fullStop i st).1 :=
        (Nat.div_lt_iff_lt_mul moving).2 (by rw [Nat.mul_comm (c.fullStop i st).1]; exact long)
      have : (c.fullStop i st).1 ≤ 4095 := full.2
      omega
    · rw [slow short]
      exact full

theorem stopTarget_configured {a : Axis} (configured : h.configured a = true) (d : Nat) :
    stopTarget h st d a = (h.working a).clamp (Head.freeTarget st d a) := if_pos configured

/-- Where a blocked stop ends: not behind its start, and short of its full target. -/
theorem stopAt_between {t : Int} {e : ZoneEntry} (blocks : c.Blocks i st t e)
    (clear : e.range.contains (st.p0.get .travel) = false)
    (forward : (0 < st.v0.get .travel → st.p0.get .travel ≤ t) ∧
      (st.v0.get .travel < 0 → t ≤ st.p0.get .travel)) :
    (0 < st.v0.get .travel → st.p0.get .travel ≤ stopAt st e ∧ stopAt st e < t ∧
      stopAt st e = e.range.lo - 1) ∧
    (st.v0.get .travel < 0 → t < stopAt st e ∧ stopAt st e ≤ st.p0.get .travel ∧
      stopAt st e = e.range.hi + 1) := by
  obtain ⟨_, moves, _, _, meets⟩ := blocks
  rw [Span.meets_iff] at meets
  rw [← Bool.not_eq_true, Span.contains_iff] at clear
  dsimp only at meets
  unfold stopAt lastBefore
  refine ⟨fun pos => ?_, fun neg => ?_⟩
  · have := forward.1 pos
    rw [if_pos pos]
    omega
  · have := forward.2 neg
    rw [if_neg (by omega)]
    omega

/-- The full target of TRAVEL lies in the direction of the stop, slow enough or at the end of the working
interval. -/
theorem fullStop_stopsBy (travel : h.configured .travel = true)
    (start : (h.working .travel).contains (st.p0.get .travel) = true) (d : Nat) :
    StopsBy (h.working .travel) (st.p0.get .travel) (st.v0.get .travel)
      (stopTarget h st d .travel) d := by
  have inside := (Span.contains_iff ..).1 start
  rw [stopTarget_configured h st travel]
  have held : (h.working .travel).contains ((h.working .travel).clamp (Head.freeTarget st d .travel)) = true :=
    Span.contains_clamp (by omega) _
  unfold Head.freeTarget
  unfold Head.freeTarget at held
  rw [Span.clamp_eq (by omega)] at held ⊢
  refine ⟨held, fun pos => ?_, fun neg => ?_, fun zero => ?_⟩
  · have far := le_two_mul_roundDiv_two (mul_nonneg pos.le (Int.natCast_nonneg d))
    have := roundDiv_nonneg (mul_nonneg pos.le (Int.natCast_nonneg d)) 2
    omega
  · have nonneg : 0 ≤ -st.v0.get .travel * (d : Int) := mul_nonneg (by omega) (Int.natCast_nonneg d)
    have far := le_two_mul_roundDiv_two nonneg
    have := roundDiv_nonneg nonneg 2
    rw [neg_mul, roundDiv_neg] at far this
    rw [neg_mul]
    omega
  · rw [zero, zero_mul, roundDiv_zero]
    omega

/-- A shortened stop is slow enough, or one tick long. -/
theorem shortened_slow {v n d : Nat} (hd : d = max 1 (n / v)) : v * d ≤ n ∨ d = 1 := by
  have : n / v * v ≤ n := Nat.div_mul_le_self n v
  rcases Nat.lt_or_ge (n / v) 1 with zero | one
  · exact .inr (by omega)
  · refine .inl ?_
    rw [hd, max_eq_right one, Nat.mul_comm]
    exact this

section
variable {c i st} (travel : (c.head i).configured .travel = true)
  (start : ((c.head i).working .travel).contains (st.p0.get .travel) = true)
  (clear : ∀ e ∈ c.entriesOf i, c.heldByOther i e.zone = true → e.range.contains (st.p0.get .travel) = false)
include travel start clear

/-- The TRAVEL target of a stop is one that its path does not pass. -/
theorem stopShape_stopsBy : StopsBy ((c.head i).working .travel) (st.p0.get .travel) (st.v0.get .travel)
    ((c.stopShape i st).2.get .travel) (c.stopShape i st).1 := by
  have full := fullStop_stopsBy (c.head i) st travel start (c.fullStop i st).1
  have target : (c.fullStop i st).2.get .travel = stopTarget (c.head i) st (c.fullStop i st).1 .travel :=
    PerAxis.get_gen ..
  rcases c.stopShape_cases i st with ⟨same, _⟩ | ⟨e, blocks, _, shape, slow, fast⟩
  · rw [same, target]
    exact full
  · have moves := blocks.2.1
    rw [target] at blocks
    have mine := clear e blocks.2.2.1 blocks.2.2.2.1
    have at_ := c.stopAt_between i st blocks mine
      ⟨fun pos => (full.2.1 pos).1, fun neg => (full.2.2.1 neg).1⟩
    have inside := (Span.contains_iff ..).1 start
    have end_ := (Span.contains_iff ..).1 full.1
    have speed : (st.v0.get .travel).natAbs * (c.stopShape i st).1 ≤ 3 * stopDist st e ∨
        (c.stopShape i st).1 = 1 := by
      rcases Nat.lt_or_ge (3 * stopDist st e) ((st.v0.get .travel).natAbs * (c.fullStop i st).1)
        with long | short
      · exact shortened_slow (fast long)
      · exact .inl (by rw [slow short]; exact short)
    have distance : stopDist st e = (stopAt st e - st.p0.get .travel).natAbs := rfl
    rw [shape, PerAxis.get_set, if_pos rfl]
    refine ⟨(Span.contains_iff ..).2 ?_, fun pos => ⟨(at_.1 pos).1, ?_⟩, fun neg => ⟨(at_.2 neg).2.1, ?_⟩,
      fun zero => absurd zero moves⟩
    · rcases lt_or_gt_of_ne moves with neg | pos
      · have := at_.2 neg
        omega
      · have := at_.1 pos
        omega
    · have ahead := at_.1 pos
      rcases speed with slow | one
      · refine .inl ?_
        have : (((st.v0.get .travel).natAbs * (c.stopShape i st).1 : Nat) : Int) ≤ 3 * stopDist st e := by
          exact_mod_cast slow
        rw [Nat.cast_mul, show ((st.v0.get .travel).natAbs : Int) = st.v0.get .travel by omega] at this
        omega
      · exact .inr (.inl one)
    · have behind := at_.2 neg
      rcases speed with slow | one
      · refine .inl ?_
        have : (((st.v0.get .travel).natAbs * (c.stopShape i st).1 : Nat) : Int) ≤ 3 * stopDist st e := by
          exact_mod_cast slow
        rw [Nat.cast_mul, show ((st.v0.get .travel).natAbs : Int) = -st.v0.get .travel by omega] at this
        omega
      · exact .inr (.inl one)

/-- The stop interval enters no range of a zone that another head holds (R104). -/
theorem stopShape_clear (e : ZoneEntry) (mine : e ∈ c.entriesOf i) (held : c.heldByOther i e.zone = true) :
    e.range.meets ⟨min (st.p0.get .travel) ((c.stopShape i st).2.get .travel),
      max (st.p0.get .travel) ((c.stopShape i st).2.get .travel)⟩ = false := by
  have stops := stopShape_stopsBy travel start clear
  have apart := clear e mine held
  rw [← Bool.not_eq_true, Span.contains_iff] at apart
  rw [← Bool.not_eq_true, Span.meets_iff]
  dsimp only
  intro meets
  rcases eq_or_ne (st.v0.get .travel) 0 with zero | moves
  · have := stops.2.2.2 zero
    omega
  · rcases c.stopShape_cases i st with ⟨same, none⟩ | ⟨b, blocks, first, shape, _, _⟩
    · rw [same] at meets
      exact none e ⟨travel, moves, mine, held, (Span.meets_iff ..).2 meets⟩
    · have full := fullStop_stopsBy (c.head i) st travel start (c.fullStop i st).1
      rw [← show (c.fullStop i st).2.get .travel = stopTarget (c.head i) st (c.fullStop i st).1 .travel from
        PerAxis.get_gen ..] at full
      have at_ := c.stopAt_between i st blocks (clear b blocks.2.2.1 blocks.2.2.2.1)
        ⟨fun pos => (full.2.1 pos).1, fun neg => (full.2.2.1 neg).1⟩
      rw [shape, PerAxis.get_set, if_pos rfl] at meets
      have later : c.Blocks i st ((c.fullStop i st).2.get .travel) e → Before (st.v0.get .travel) b e := first e
      rcases lt_or_gt_of_ne moves with neg | pos
      · have here := at_.2 neg
        have := (later ⟨travel, moves, mine, held, (Span.meets_iff ..).2 (by dsimp only; omega)⟩).2 neg
        omega
      · have here := at_.1 pos
        have := (later ⟨travel, moves, mine, held, (Span.meets_iff ..).2 (by dsimp only; omega)⟩).1 pos
        omega

end

end Sys2Proof.Machine.Cm8
end

section
/-! PROOF. Taking over a head, and STOP (O55). -/

namespace Sys2Proof.Machine.Cm8

variable (c : Cm8) (i : Slot)

theorem mem_mappedZones (p : ZoneEntry → Bool) (z : Zone) : (c.mappedZones i p).getLsbD z.val = true ↔
    (c.head i).hasTravel = true ∧ ∃ e ∈ c.entriesOf i, e.zone = z ∧ p e = true := by
  unfold mappedZones
  split
  · rename_i travel
    rw [ZoneSet.getLsbD_ofPred]
    simp [travel]
  · rename_i none
    exact iff_of_false (by simp) fun h => none h.1

theorem mem_sweepZones (m : Move) (z : Zone) : (c.sweepZones i m).getLsbD z.val = true ↔
    (c.head i).hasTravel = true ∧ ∃ e ∈ c.entriesOf i, e.zone = z ∧
      e.range.meets ((c.head i).sweep m) = true := by
  unfold sweepZones neededZones
  split
  · exact mem_mappedZones ..
  · rename_i none
    exact iff_of_false (by simp) fun h => none h.1

/-! ### Taking over a head at once (R116, R117) -/

/-- A passing of grants after the recomputation of a head that does not wait leaves its record. -/
theorem head_recompute_settle {c : Cm8} {i : Slot} (still : (c.head i).activity.waiting = none) :
    (c.recompute i).settle.head i = c.head i := by
  rw [(passFrame_settle _).head_eq (by rw [head_recompute]; exact still), head_recompute]

theorem others_recompute_settle {c : Cm8} {i j : Slot} (still : (c.head j).activity.waiting = none) :
    (c.recompute i).settle.head j = c.head j := by
  rw [(passFrame_settle _).head_eq (by rw [head_recompute]; exact still), head_recompute]

/-- The part with a move on the head and its free zones the head's, before the passes of its start. -/
def taken (m : Move) (held : Option Held) : Cm8 := (c.giveFree i m.zones).setActivity i (.moving m held)

theorem takeOver_eq (m : Move) (held : Option Held) :
    c.takeOver i m held = ((c.taken i m held).recompute i).settle := rfl

theorem turned_taken (m : Move) (held : Option Held) :
    c.Turned (c.taken i m held) i { c.head i with activity := .moving m held } m.zones [] := by
  have given := c.turned_giveFree i m.zones
  exact (given.transTaken (turned_setActivity ..)).headAs (by rw [given.head])

theorem head_takeOver (m : Move) (held : Option Held) :
    (c.takeOver i m held).head i = { c.head i with activity := .moving m held } := by
  have head := (c.turned_taken i m held).head
  rw [takeOver_eq, head_recompute_settle (by rw [head]; rfl), head]

theorem others_takeOver (m : Move) (held : Option Held) {j : Slot} (ne : j ≠ i)
    (still : (c.head j).activity.waiting = none) : (c.takeOver i m held).head j = c.head j := by
  have other := (c.turned_taken i m held).others j ne
  rw [takeOver_eq, others_recompute_settle (by rw [other]; exact still), other]

/-- The zones of a move that can be had at once are the head's once it has taken over. -/
theorem takeOver_holds {c : Cm8} {i : Slot} {m : Move} (held : Option Held)
    (free : ∀ z : Zone, m.zones.getLsbD z.val = true → c.holder z = none ∨ c.holder z = some i) :
    (c.takeOver i m held).HoldsAll i m.zones := by
  have turned := c.turned_taken i m held
  rw [takeOver_eq]
  refine (passFrame_settle _).holdsAll (by rw [head_recompute, turned.head]; rfl) fun z hz => ?_
  have kept : ((c.taken i m held).moveZones i).getLsbD z.val = true := by
    unfold moveZones
    rw [turned.head]
    cases held with
    | none => exact hz
    | some x =>
      show (m.zones ||| x.zones).getLsbD z.val = true
      rw [BitVec.getLsbD_or, hz, Bool.true_or]
  refine holder_recompute_keeps _ _ _ kept ?_
  rw [turned.holders]
  rcases free z hz with none | mine
  · rw [if_pos ⟨hz, none⟩]
  · rw [mine, if_neg nofun]

/-! ### The stop move (R103 to R105) -/

/-- The sweep of a stop move lies between its start and its target. -/
theorem sweep_planStop (m : Move) (stops : StopsBy ((c.head i).working .travel)
    (((c.head i).blendStart m).p0.get .travel) (((c.head i).blendStart m).v0.get .travel)
      ((c.planStop i m).target.get .travel) (c.planStop i m).d)
    (start : ((c.head i).working .travel).contains (((c.head i).blendStart m).p0.get .travel) = true) :
    min (((c.head i).blendStart m).p0.get .travel) ((c.planStop i m).target.get .travel) ≤
      ((c.head i).sweep (c.planStop i m)).lo ∧
    ((c.head i).sweep (c.planStop i m)).hi ≤
      max (((c.head i).blendStart m).p0.get .travel) ((c.planStop i m).target.get .travel) :=
  sweepSpan_within ⟨min_le_left _ _, le_max_left _ _⟩ _ fun _ first last =>
    stop_between start first last stops

/-- A free-axis target is p0 + v0 · D / 2 to the nearest count, ties away from zero (R99, R103). -/
theorem freeTarget_nearest (st : Start) (d : Nat) (a : Axis) :
    let u := st.v0.get a * d
    let q := 2 * (Head.freeTarget st d a - st.p0.get a)
    (u - q).natAbs ≤ 1 ∧ ((u - q).natAbs = 1 → u.natAbs < q.natAbs) := by
  have near := roundDiv_nearest (st.v0.get a * d) (d := 2) (by omega)
  unfold Head.freeTarget
  dsimp only
  omega

/-! ### The row of STOP (R78) -/

theorem stop_callable (callable : (c.head i).callable = true) : c.stop [slotByte i] =
    .ok (c.stopHead i, enc1 ((c.stopHead i).head i).activity.code) := by
  obtain ⟨linked, run⟩ := (callable_iff _).1 callable
  obtain ⟨off, halted⟩ := (runs_iff _).1 run
  unfold stop
  dsimp only
  rw [slotOf_slotByte]
  dsimp only
  rw [if_neg, if_neg]
  · rw [Activity.isHalted_iff]
    exact fun ⟨w, hw⟩ => halted w hw
  · rw [Bool.or_eq_true, Bool.not_eq_true', ← Bool.not_eq_true, Head.isLinked_iff, Activity.isOffline_iff]
    exact fun h => h.elim (· linked) off

theorem stop_noHead (h : (c.head i).link.state ≠ .linked ∨ (c.head i).activity = .offline) :
    c.stop [slotByte i] = .error .noHead := by
  unfold stop
  dsimp only
  rw [slotOf_slotByte]
  refine if_pos ?_
  rw [Bool.or_eq_true, Bool.not_eq_true', ← Bool.not_eq_true, Head.isLinked_iff, Activity.isOffline_iff]
  exact h

theorem stop_halted (linked : (c.head i).link.state = .linked) {w : HaltCause}
    (h : (c.head i).activity = .halted w) : c.stop [slotByte i] = .error .halted := by
  unfold stop
  dsimp only
  rw [slotOf_slotByte]
  dsimp only
  rw [if_neg, if_pos]
  · exact (Activity.isHalted_iff _).2 ⟨w, h⟩
  · rw [Bool.or_eq_true, Bool.not_eq_true', ← Bool.not_eq_true, Head.isLinked_iff, Activity.isOffline_iff, h]
    exact fun h => h.elim (· linked) nofun

theorem stop_range {b : Byte} (high : 8 ≤ b.toNat) : c.stop [b] = .error .range := by
  unfold stop
  dsimp only
  rw [slotOf_none high]

end Sys2Proof.Machine.Cm8

namespace Sys2Proof

open Sys2Proof.Machine Sys2Proof.Machine.Cm8

/-- Settles O55. -/
theorem stopActsByState : Obligations.StopActsByState := by
  unfold Obligations.StopActsByState
  refine ⟨?_, ?_, ?_, ?_⟩
  · intro s tag i ready callable d
    obtain ⟨off, halted⟩ := (runs_iff _).1 ((callable_iff _).1 callable).2
    obtain ⟨⟨b, as, head⟩, _⟩ := s.part.stopHead_heads i ((callable_iff _).1 callable).2
    have own : d.head i = { s.part.head i with activity := b, queue := [] } := head
    refine ⟨s.verdict_accepts .stop tag _ (fun c => c.stop _) ready (stop_callable _ i callable),
      by rw [own], fun free => ?_, fun w waits => ?_, fun m held moves stop => ?_,
      fun m held moves run => ?_, fun j jogs => ?_, by rw [own], ?_⟩
    · rw [own]
      rcases (Activity.isFree_iff _).1 free with h | h <;> rw [h] at as <;> exact as
    · rw [waits] at as
      rw [own]
      exact as
    · rw [moves] at as
      rw [own]
      exact (if_pos stop).mp as
    · rw [moves] at as
      rw [own]
      obtain ⟨n, hn, cls, source, tag', _⟩ := (if_neg run).mp as
      exact ⟨n, hn, cls, source, tag'⟩
    · rw [jogs] at as
      rw [own]
      exact as
    · intro c h ended
      cases act : h.activity with
      | offline => exact absurd act off
      | halted w => exact absurd act (halted w)
      | idle => exact c.stopHead_free i (by rw [show (c.head i).activity = _ from act]; rfl)
      | waitCue => exact c.stopHead_free i (by rw [show (c.head i).activity = _ from act]; rfl)
      | waitZone w => exact c.stopHead_waiting i act
      | moving m held =>
        show if m.cls = .stop then _ else _
        by_cases stop : m.cls = .stop
        · rw [if_pos stop]
          exact c.stopHead_stopping i act stop
        · rw [if_neg stop]
          exact c.stopHead_moving i act stop
      | jogging j => exact c.stopHead_jogging i act
  · intro c i m h st n fits start clear
    have duration := c.stopShape_duration i st
    have bounds (travel : h.configured .travel = true) :=
      stopShape_stopsBy (c := c) (i := i) (st := st) travel (start .travel travel) clear
    have apart (travel : h.hasTravel = true) (e : ZoneEntry) (mine : e ∈ c.entriesOf i)
        (held : c.heldByOther i e.zone = true) : e.range.meets (h.sweep n) = false := by
      have between := stopShape_clear (c := c) (i := i) (st := st) travel (start .travel travel) clear e mine held
      have sweep := c.sweep_planStop i m (bounds travel) (start .travel travel)
      rw [← Bool.not_eq_true, Span.meets_iff] at between ⊢
      dsimp only at between
      intro meets
      have low := sweep.1
      have high := sweep.2
      exact between ⟨meets.1.trans high, low.trans meets.2⟩
    have free : ∀ z : Zone, n.zones.getLsbD z.val = true → c.holder z = none ∨ c.holder z = some i := by
      intro z hz
      obtain ⟨travel, e, mine, rfl, meets⟩ := (mem_sweepZones ..).1 hz
      by_contra other
      refine Bool.noConfusion ((apart travel e mine ?_).symm.trans meets)
      unfold heldByOther
      cases holds : c.holder e.zone with
      | none => exact absurd (.inl holds) other
      | some o => exact decide_eq_true fun same => other (.inr (holds.trans (congrArg some same)))
    refine ⟨rfl, rfl, rfl, rfl, duration.1, duration.2, fun a configured => ?_, apart,
      fun unheld amax => ?_, ?_, takeOver_holds _ free⟩
    · by_cases travel : a = .travel
      · subst travel
        exact (bounds configured).1
      · have target : ∃ d, n.target.get a = stopTarget h st d a := by
          show ∃ d, (c.stopShape i st).2.get a = _
          rcases c.stopShape_cases i st with ⟨same, _⟩ | ⟨e, _, _, shape, _⟩
          · exact ⟨_, by rw [same]; exact PerAxis.get_gen ..⟩
          · exact ⟨_, by rw [shape, PerAxis.get_set, if_neg travel]; exact PerAxis.get_gen ..⟩
        obtain ⟨d, target⟩ := target
        rw [target, stopTarget_configured h st configured]
        have inside := (Span.contains_iff ..).1 (start a configured)
        exact Span.contains_clamp (by omega) _
    · have unblocked : n.d = stopDuration h st := by
        rcases c.stopShape_cases i st with ⟨same, _⟩ | ⟨e, blocks, _⟩
        · exact congrArg Prod.fst same
        · exact Bool.noConfusion ((unheld e blocks.2.2.1).symm.trans blocks.2.2.2.1)
      rw [unblocked]
      refine ⟨?_, fun k one short enough => ?_⟩
      · rcases (stopDuration_le_iff h st amax _).1 le_rfl with most | least
        · exact .inl (le_antisymm (stopDuration_bounds h st).2 most)
        · exact .inr least.2
      · exact absurd ((stopDuration_le_iff h st amax k).2 (.inr ⟨one, enough⟩)) (Nat.not_le.2 short)
    · show ((c.takeOver i (c.planStop i m) none).head i).activity = _
      rw [head_takeOver]
  · intro c i m amax h st n fits straight v p
    have straight_target (d : Nat) (a : Axis) (configured : h.configured a = true) :
        straight d a (stopTarget h st d a) := by
      have near := freeTarget_nearest st d a
      exact ⟨Head.freeTarget st d a, near.1, near.2, stopTarget_configured h st configured d⟩
    refine ⟨fun a out => ?_, (c.fullStop i st).1, (c.fullStop i st).2, (stopDuration_bounds h st).1,
      (stopDuration_bounds h st).2, ?_, fun k one short enough => ?_, fun a configured => ?_, ?_⟩
    · show (c.stopShape i st).2.get a = _
      rcases c.stopShape_cases i st with ⟨same, _⟩ | ⟨e, blocks, _, shape, _⟩
      · rw [same]
        exact (PerAxis.get_gen ..).trans (if_neg (Bool.eq_false_iff.1 out))
      · rw [shape, PerAxis.get_set, if_neg, PerAxis.get_gen]
        · exact if_neg (Bool.eq_false_iff.1 out)
        · exact fun travel => Bool.noConfusion (out.symm.trans (travel.symm ▸ (show h.configured .travel = true from blocks.1)))
    · rcases (stopDuration_le_iff h st amax _).1 le_rfl with most | least
      · exact .inl (le_antisymm (stopDuration_bounds h st).2 most)
      · exact .inr least.2
    · exact absurd ((stopDuration_le_iff h st amax k).2 (.inr ⟨one, enough⟩)) (Nat.not_le.2 short)
    · rw [show (c.fullStop i st).2.get a = _ from PerAxis.get_gen ..]
      exact straight_target _ a configured
    · intro blocks
      refine ⟨fun none => ?_, fun e blocked least => ?_⟩
      · rcases c.stopShape_cases i st with ⟨same, _⟩ | ⟨e, blocked, _⟩
        · exact ⟨congrArg Prod.fst same, fun a configured => by
            show (c.stopShape i st).2.get a = _
            rw [same]⟩
        · exact absurd blocked (none e)
      · intro stop dist
        rcases c.stopShape_cases i st with ⟨_, none⟩ | ⟨b, blocks', first, shape, slow, fast⟩
        · exact absurd blocked (none e)
        · have same : stopAt st b = stop := by
            have there := least b blocks'
            have back := first e blocked
            show lastBefore v b.range = if 0 < v then e.range.lo - 1 else e.range.hi + 1
            unfold lastBefore
            rcases lt_or_gt_of_ne blocked.2.1 with neg | pos
            · have low := there.2 neg
              have high := back.2 neg
              rw [if_neg (by omega), if_neg (by omega)]
              omega
            · have low := there.1 pos
              have high := back.1 pos
              rw [if_pos pos, if_pos pos]
              omega
          have away : stopDist st b = dist := by
            unfold stopDist
            rw [same]
          have rest (a : Axis) (other : a ≠ .travel) : n.target.get a = stopTarget h st n.d a := by
            show (c.stopShape i st).2.get a = _
            rw [shape, PerAxis.get_set, if_neg other]
            exact PerAxis.get_gen ..
          rw [away] at slow fast
          refine ⟨?_, fun enough => ⟨slow enough, fun a other configured => ?_⟩,
            fun long => ⟨fast long, fun a other configured => ?_⟩⟩
          · show (c.stopShape i st).2.get .travel = _
            rw [shape, PerAxis.get_set, if_pos rfl, same]
          · rw [rest a other, show n.d = _ from slow enough]
            exact (PerAxis.get_gen ..).symm
          · rw [rest a other]
            exact straight_target _ a configured
  · intro s tag ready
    refine ⟨fun b high => s.verdict_refuses .stop tag _ (fun c => c.stop _) ready (stop_range _ high),
      fun i => ⟨fun h => s.verdict_refuses .stop tag _ (fun c => c.stop _) ready (stop_noHead _ i h),
        fun linked ⟨w, hw⟩ => s.verdict_refuses .stop tag _ (fun c => c.stop _) ready
          (stop_halted _ i linked hw)⟩⟩

end Sys2Proof
end

section
/-! PROOF. JOG's list, the ramp, the claims of a jog step and its end (R86 to R88, R106, R107, R118). -/

namespace Sys2Proof.Machine

/-! ### The list and the row of JOG (R86) -/

theorem jogList_eq_some_iff (mask : AxisMask) (ps : List (Byte × Int)) (l : List (Axis × Int)) :
    jogList mask ps = some l ↔ ps = rawPairs l ∧ l.length ≤ 6 ∧ (l.map fun t => t.1.num).Pairwise (· < ·) ∧
      ∀ t ∈ l, mask.getLsbD t.1.num = true ∧ -65535 ≤ t.2 ∧ t.2 ≤ 65535 := by
  unfold jogList
  constructor
  · intro h
    split at h
    · rename_i short
      obtain ⟨list, values⟩ := (Option.filter_eq_some_iff).1 h
      obtain ⟨rfl, rising, inMask⟩ := (axisList_eq_some_iff ..).1 list
      rw [length_rawPairs] at short
      exact ⟨rfl, short, rising, fun t ht => ⟨inMask t ht, (withinInt_iff ..).1 (List.all_eq_true.1 values t ht)⟩⟩
    · nomatch h
  · rintro ⟨rfl, short, rising, fits⟩
    rw [if_pos (by rw [length_rawPairs]; exact short), Option.filter_eq_some_iff]
    exact ⟨(axisList_eq_some_iff ..).2 ⟨rfl, rising, fun t ht => (fits t ht).1⟩,
      List.all_eq_true.2 fun t ht => (withinInt_iff ..).2 (fits t ht).2⟩

/-- The list checks of JOG pass exactly the lists in range (R20, R86). -/
theorem jogList_isSome_iff (mask : AxisMask) (ps : List (Byte × Int)) : (∃ l, jogList mask ps = some l) ↔
    ListFits mask ps ∧ ∀ t ∈ ps, -65535 ≤ t.2 ∧ t.2 ≤ 65535 := by
  constructor
  · rintro ⟨l, list⟩
    obtain ⟨rfl, short, rising, fits⟩ := (jogList_eq_some_iff ..).1 list
    refine ⟨⟨by rw [length_rawPairs]; exact short, ?_, fun t ht => ?_⟩, fun t ht => ?_⟩
    · simpa [rawPairs, Function.comp_def] using rising
    · obtain ⟨u, hu, rfl⟩ := List.mem_map.1 ht
      exact ⟨u.1, rfl, (fits u hu).1⟩
    · obtain ⟨u, hu, rfl⟩ := List.mem_map.1 ht
      exact (fits u hu).2
  · rintro ⟨fits, values⟩
    obtain ⟨l, rfl⟩ := exists_rawPairs fun t ht => by
      obtain ⟨a, ha, _⟩ := fits.configured t ht
      rw [ha, toNat_axisByte]
      cases a <;> decide
    refine ⟨l, (jogList_eq_some_iff ..).2 ⟨rfl, by simpa using fits.count, ?_, fun t ht => ?_⟩⟩
    · simpa [rawPairs, Function.comp_def] using fits.rising
    · have mem : (axisByte t.1, t.2) ∈ rawPairs l := List.mem_map_of_mem ht
      obtain ⟨a, ha, inMask⟩ := fits.configured _ mem
      have same : t.1.num = a.num := by simpa using congrArg BitVec.toNat ha
      exact ⟨same ▸ inMask, values _ mem⟩

namespace Cm8

variable (c : Cm8) (i : Slot)

theorem jog_listed {n : Byte} {rest : List Byte} {ps : List (Byte × Int)} {l : List (Axis × Int)}
    (read : counted n (axisPairs rest) = some ps) (list : jogList (c.head i).map.mask ps = some l) :
    c.jog (slotByte i :: n :: rest) = c.jogHead i l := by
  unfold jog
  dsimp only
  rw [read]
  dsimp only
  rw [slotOf_slotByte]
  dsimp only
  rw [list]

theorem jog_unlisted {n : Byte} {rest : List Byte} {ps : List (Byte × Int)}
    (read : counted n (axisPairs rest) = some ps) (list : ∀ l, jogList (c.head i).map.mask ps ≠ some l) :
    c.jog (slotByte i :: n :: rest) = .error .range := by
  unfold jog
  dsimp only
  rw [read]
  dsimp only
  rw [slotOf_slotByte]
  dsimp only
  rw [Option.eq_none_iff_forall_ne_some.2 list]

theorem jog_range {b n : Byte} {rest : List Byte} {ps : List (Byte × Int)}
    (read : counted n (axisPairs rest) = some ps) (high : 8 ≤ b.toNat) :
    c.jog (b :: n :: rest) = .error .range := by
  unfold jog
  dsimp only
  rw [read]
  dsimp only
  rw [slotOf_none high]

theorem jogHead_noHead (l : List (Axis × Int))
    (h : (c.head i).link.state ≠ .linked ∨ (c.head i).activity = .offline) :
    c.jogHead i l = .error .noHead := by
  unfold jogHead
  dsimp only
  by_cases linked : (c.head i).isLinked = true
  · rw [linked, h.resolve_left (not_not.2 ((Head.isLinked_iff _).1 linked))]
    rfl
  · rw [Bool.eq_false_iff.2 linked]
    rfl

variable {c i}

/-- What a JOG finds on a LINKED head (R86). -/
theorem jogHead_linked (l : List (Axis × Int)) (linked : (c.head i).link.state = .linked) :
    (∀ w, (c.head i).activity = .halted w → c.jogHead i l = .error .halted) ∧
    ((c.head i).queue = [] → (c.head i).activity = .idle →
      c.jogHead i l = .ok (c.setActivity i (.jogging ⟨commandedOf l, .const 0, 0⟩), [])) ∧
    ((c.head i).queue = [] → ∀ j, (c.head i).activity = .jogging j →
      c.jogHead i l = .ok (c.setActivity i (.jogging ⟨commandedOf l, j.velocity, 0⟩), [])) := by
  unfold jogHead
  dsimp only
  rw [(Head.isLinked_iff _).2 linked]
  refine ⟨fun w h => ?_, fun empty h => ?_, fun empty j h => ?_⟩
  · rw [h]
    rfl
  · rw [h, empty]
    rfl
  · rw [h, empty]
    rfl

theorem jogHead_busy (l : List (Axis × Int)) (linked : (c.head i).link.state = .linked)
    (busy : (c.head i).activity = .waitCue ∨ (∃ w, (c.head i).activity = .waitZone w) ∨
      (∃ m held, (c.head i).activity = .moving m held) ∨
      (((c.head i).activity = .idle ∨ ∃ j, (c.head i).activity = .jogging j) ∧ (c.head i).queue ≠ [])) :
    c.jogHead i l = .error .busy := by
  unfold jogHead
  dsimp only
  rw [(Head.isLinked_iff _).2 linked]
  rcases busy with h | ⟨w, h⟩ | ⟨m, held, h⟩ | ⟨h | ⟨j, h⟩, waits⟩
  · rw [h]
    rfl
  · rw [h]
    rfl
  · rw [h]
    rfl
  · rw [h]
    exact if_neg fun empty => waits (List.isEmpty_iff.1 empty)
  · rw [h]
    exact if_neg fun empty => waits (List.isEmpty_iff.1 empty)

end Cm8

/-! ### The step of one axis (R106 steps 1 to 4) -/

theorem rampJog_cases (e : AxisEntry) (commanded velocity : Int) :
    let goal : Int := max (-(min e.jogLimit e.vmax : Int)) (min (min e.jogLimit e.vmax : Int) commanded)
    ((goal - velocity).natAbs ≤ e.amax → rampJog e commanded velocity = goal) ∧
    ((e.amax : Int) < goal - velocity → rampJog e commanded velocity = velocity + e.amax) ∧
    ((e.amax : Int) < velocity - goal → rampJog e commanded velocity = velocity - e.amax) := by
  unfold rampJog AxisEntry.jogSpeed
  dsimp only
  generalize max (-(min (e.jogLimit : Int) e.vmax)) _ = goal
  refine ⟨fun near => if_pos near, fun up => ?_, fun down => ?_⟩
  · rw [if_neg (by omega), if_pos (by omega)]
  · rw [if_neg (by omega), if_neg (by omega)]

namespace Cm8

/-! ### The claims of the TRAVEL step (R107, R118) -/

namespace Turned

variable {c d e : Cm8} {i : Slot} {h h' : Head} {zs zs' : ZoneSet}
  {r r' : List (Option Slot × Option Byte × Event)}

/-- After an operation that takes zones for the head, another one. -/
theorem transBoth (p : c.Turned d i h zs r) (q : d.Turned e i h' zs' r') :
    c.Turned e i h' (zs ||| zs') (r ++ r') where
  events := by rw [q.events, p.events, p.rest.1, EventUnit.told_append]
  head := q.head
  others j n := (q.others j n).trans (p.others j n)
  holders z := by
    rw [q.holders, p.holders, BitVec.getLsbD_or]
    by_cases none : c.holder z = none
    · rw [none]
      cases zs.getLsbD z.val <;> simp
    · simp [none]
  arbiter := ⟨q.arbiter.1.trans p.arbiter.1, q.arbiter.2.1.trans p.arbiter.2.1,
    q.arbiter.2.2.trans p.arbiter.2.2⟩
  pairs n := (q.pairs n).trans (p.pairs n)
  rest := ⟨q.rest.1.trans p.rest.1, q.rest.2.1.trans p.rest.2.1, q.rest.2.2.1.trans p.rest.2.2.1,
    q.rest.2.2.2.1.trans p.rest.2.2.2.1, q.rest.2.2.2.2.trans p.rest.2.2.2.2⟩

/-- A head that holds a zone keeps it. -/
theorem holds (p : c.Turned d i h zs r) {z : Zone} {j : Slot} (mine : c.holder z = some j) :
    d.holder z = some j := by
  rw [p.holders, mine, if_neg nofun]

theorem entriesOf_eq (p : c.Turned d i h zs r) (j : Slot) : d.entriesOf j = c.entriesOf j := by
  unfold entriesOf
  rw [p.rest.2.2.2.1]

theorem wanted_eq (p : c.Turned d i (c.head i) zs r) (z : Zone) : d.wanted z = c.wanted z := by
  have same (j : Slot) : d.head j = c.head j := by
    by_cases e : j = i
    · rw [e, p.head]
    · exact p.others j e
  unfold wanted waitingOf
  simp only [same]

end Turned

/-- How many zones no head holds. -/
def freeZones (c : Cm8) : Nat := (Finset.univ.filter fun z : Zone => c.holder z = none).card

theorem freeZones_le (c : Cm8) : c.freeZones ≤ 16 := (Finset.card_filter_le ..).trans (by simp)

/-- A claim of a free zone leaves fewer free zones. -/
theorem freeZones_giveFree {c : Cm8} {z : Zone} (i : Slot) (free : c.holder z = none) :
    (c.giveFree i (1#16 <<< z.val)).freeZones < c.freeZones := by
  refine Finset.card_lt_card ((Finset.ssubset_iff_of_subset fun y hy => ?_).2 ⟨z, by simpa using free, ?_⟩)
  · rw [Finset.mem_filter] at hy ⊢
    refine ⟨hy.1, ?_⟩
    have still := hy.2
    rw [holder_giveFree] at still
    split at still
    · nomatch still
    · exact still
  · rw [Finset.mem_filter, holder_giveFree, if_pos ⟨by rw [ZoneSet.one_bit]; simp, free⟩]
    exact fun h => nomatch h.2

/-- The zone may be claimed by the step of slot `i` from `p` to `q` (R118): free, needed by no waiting
head, and one of its ranges met. -/
def Claimable (c : Cm8) (i : Slot) (p q : Int) (z : Zone) : Prop :=
  c.holder z = none ∧ c.wanted z = false ∧
    ∃ e ∈ c.entriesOf i, e.zone = z ∧ e.range.meets (between p q) = true

variable {c : Cm8} {i : Slot} {p q : Int}

theorem jogMayClaim_iff (z : Zone) : c.jogMayClaim z = true ↔ c.holder z = none ∧ c.wanted z = false := by
  unfold jogMayClaim isFree
  simp

/-- An entry in the way of the step whose zone the head does not hold. -/
def InWay (c : Cm8) (i : Slot) (p q : Int) (e : ZoneEntry) : Prop :=
  e ∈ c.entriesOf i ∧ c.holder e.zone ≠ some i ∧ e.range.meets (between p q) = true

theorem mem_obstacles (e : ZoneEntry) :
    (e ∈ (c.entriesOf i).filter fun e => !c.holdsZone i e.zone && e.range.meets (between p q)) ↔
      c.InWay i p q e := by
  unfold InWay holdsZone
  rw [List.mem_filter]
  simp

theorem jogObstacle_none (h : c.jogObstacle i p q = none) (e : ZoneEntry) : ¬ c.InWay i p q e := fun way =>
  List.not_mem_nil ((nearest_eq_none_iff _ _).1 h ▸ (mem_obstacles e).2 way)

theorem jogObstacle_some {e : ZoneEntry} (h : c.jogObstacle i p q = some e) : c.InWay i p q e ∧
    ∀ f, c.InWay i p q f →
      (0 < q - p → e.range.lo ≤ f.range.lo) ∧ (¬ 0 < q - p → f.range.hi ≤ e.range.hi) := by
  obtain ⟨mem, first⟩ := nearest_eq_some h
  exact ⟨(mem_obstacles e).1 mem, fun f way => first f ((mem_obstacles f).2 way)⟩

/-- How the examination of a TRAVEL step ends (R107): no range that the head does not hold lies in the way,
or the step stops before the first such range, which cannot be claimed. -/
def Examined (d : Cm8) (i : Slot) (p q : Int) (stop : Option Int) : Prop :=
  (stop = none ∧ ∀ e, ¬ d.InWay i p q e) ∨
  ∃ e, stop = some (lastBefore (q - p) e.range) ∧ d.InWay i p q e ∧
    (d.holder e.zone ≠ none ∨ d.wanted e.zone = true) ∧
    ∀ f, d.InWay i p q f →
      (0 < q - p → e.range.lo ≤ f.range.lo) ∧ (¬ 0 < q - p → f.range.hi ≤ e.range.hi)

/-- The rounds of the examination take zones that may be claimed and end as R107 says, when there are more
of them than free zones. -/
theorem jogTravel_examines (n : Nat) (c : Cm8) (enough : c.freeZones < n) :
    (∃ zs, c.Turned (jogTravel i p q n c).1 i (c.head i) zs [] ∧
      ∀ z : Zone, zs.getLsbD z.val = true → c.Claimable i p q z) ∧
    (jogTravel i p q n c).1.Examined i p q (jogTravel i p q n c).2 := by
  induction n generalizing c with
  | zero => exact absurd enough (Nat.not_lt_zero _)
  | succ n ih =>
    have unchanged : ∃ zs, c.Turned c i (c.head i) zs [] ∧
        ∀ z : Zone, zs.getLsbD z.val = true → c.Claimable i p q z :=
      ⟨0#16, .refl c i, fun z hz => by simp at hz⟩
    unfold jogTravel
    split
    · rename_i none
      exact ⟨unchanged, .inl ⟨rfl, jogObstacle_none none⟩⟩
    · rename_i e first
      obtain ⟨way, least⟩ := jogObstacle_some first
      split
      · rename_i may
        obtain ⟨free, unwanted⟩ := (jogMayClaim_iff _).1 may
        have given := c.turned_giveFree i (1#16 <<< e.zone.val)
        obtain ⟨⟨zs, turned, claims⟩, examined⟩ := ih (c.giveFree i (1#16 <<< e.zone.val))
          (by have := freeZones_giveFree i free; omega)
        refine ⟨⟨_, (given.transBoth turned).headAs given.head, fun z hz => ?_⟩, examined⟩
        rw [BitVec.getLsbD_or, Bool.or_eq_true, ZoneSet.one_bit, decide_eq_true_iff] at hz
        rcases hz with rfl | later
        · exact ⟨free, unwanted, e, way.1, rfl, way.2.2⟩
        · obtain ⟨none, unwanted, f, mine, zone, meets⟩ := claims z later
          rw [given.entriesOf_eq] at mine
          rw [given.wanted_eq] at unwanted
          refine ⟨?_, unwanted, f, mine, zone, meets⟩
          rw [given.holders] at none
          split at none
          · nomatch none
          · exact none
      · rename_i cannot
        refine ⟨unchanged, .inr ⟨e, rfl, way, ?_, least⟩⟩
        rw [jogMayClaim_iff, not_and_or, Bool.not_eq_false] at cannot
        exact cannot

/-- What a TRAVEL step claims and where it ends (R88, R107). -/
theorem jogClaim_examines (c : Cm8) (i : Slot) (p q : Int) :
    (∃ zs, c.Turned (c.jogClaim i p q).1 i (c.head i) zs [] ∧
      ∀ z : Zone, zs.getLsbD z.val = true → (c.head i).hasTravel = true ∧ c.Claimable i p q z) ∧
    (((c.head i).hasTravel = true ∧ p ≠ q ∧
        (c.jogClaim i p q).1.Examined i p q (c.jogClaim i p q).2) ∨
      (((c.head i).hasTravel = false ∨ p = q) ∧ c.jogClaim i p q = (c, none))) := by
  unfold jogClaim
  split
  · rename_i steps
    rw [Bool.and_eq_true, decide_eq_true_iff] at steps
    obtain ⟨⟨zs, turned, claims⟩, examined⟩ := jogTravel_examines (i := i) (p := p) (q := q) 17 c
      (Nat.lt_succ_of_le c.freeZones_le)
    exact ⟨⟨zs, turned, fun z hz => ⟨steps.1, claims z hz⟩⟩, .inl ⟨steps.1, steps.2, examined⟩⟩
  · rename_i rests
    refine ⟨⟨0#16, .refl c i, fun z hz => by simp at hz⟩, .inr ⟨?_, rfl⟩⟩
    rw [Bool.and_eq_true, decide_eq_true_iff, not_and_or, Bool.not_eq_true, not_not] at rests
    exact rests

end Cm8

end Sys2Proof.Machine
end

section
/-! PROOF. JOG and the jog step (O54). -/

namespace Sys2Proof.Machine

/-- Position and velocity of an axis after a jog step that no range stops (R106). -/
def jogNext (h : Head) (j : Jog) (a : Axis) : Int × Int :=
  if h.configured a then jogAxis h j a else (h.setpoint.get a, j.velocity.get a)

theorem jogNext_configured {h : Head} {a : Axis} (j : Jog) (configured : h.configured a = true) :
    jogNext h j a = jogAxis h j a := if_pos configured

theorem jogNext_absent {h : Head} {a : Axis} (j : Jog) (absent : h.configured a = false) :
    jogNext h j a = (h.setpoint.get a, j.velocity.get a) := if_neg (Bool.eq_false_iff.1 absent)

namespace Cm8

variable (c : Cm8) (i : Slot) (j : Jog)

/-- The examination of the TRAVEL step of a jog. -/
def jogClaimed : Cm8 × Option Int :=
  c.jogClaim i ((c.head i).setpoint.get .travel) (jogNext (c.head i) j .travel).1

/-- Position and velocity of an axis after a jog step that a range may stop (R106 step 5, R107). -/
def jogEnd (h : Head) (j : Jog) (stop : Option Int) (a : Axis) : Int × Int :=
  match a, stop with
  | .travel, some stop => (stop, 0)
  | a, _ => jogNext h j a

theorem jogEnd_goes {h : Head} {j : Jog} {stop : Option Int} {a : Axis} (goes : a ≠ .travel ∨ stop = none) :
    jogEnd h j stop a = jogNext h j a := by
  rcases goes with other | rfl
  · cases a with
    | travel => exact absurd rfl other
    | _ => rfl
  · cases a <;> rfl

/-- The record of a head after a jog step. -/
def jogHeadAfter : Head :=
  { c.head i with
    previous := .gen fun a =>
      if (c.head i).configured a then (c.head i).setpoint.get a else (c.head i).previous.get a
    setpoint := .gen fun a => (jogEnd (c.head i) j (c.jogClaimed i j).2 a).1 }

theorem jogStep_eq : c.jogStep i j = ((c.jogClaimed i j).1.onHead i fun h =>
      { h with
        previous := .gen fun a => if h.configured a then h.setpoint.get a else h.previous.get a,
        setpoint := .gen fun a => (jogEnd (c.head i) j (c.jogClaimed i j).2 a).1 },
    { j with velocity := .gen fun a => (jogEnd (c.head i) j (c.jogClaimed i j).2 a).2 }) := rfl

/-- What a jog step does to the part: the head's setpoints, the zones that it claims, nothing else. -/
theorem turned_jogStep : ∃ zs, c.Turned (c.jogStep i j).1 i (c.jogHeadAfter i j) zs [] ∧
    ∀ z : Zone, zs.getLsbD z.val = true → (c.head i).hasTravel = true ∧
      c.Claimable i ((c.head i).setpoint.get .travel) (jogNext (c.head i) j .travel).1 z := by
  obtain ⟨zs, turned, claims⟩ := (c.jogClaim_examines i ((c.head i).setpoint.get .travel)
    (jogNext (c.head i) j .travel).1).1
  refine ⟨zs, ?_, claims⟩
  have claimed : c.Turned (c.jogClaimed i j).1 i (c.head i) zs [] := turned
  rw [jogStep_eq]
  dsimp only
  refine Turned.headAs (claimed.transTaken (turned_onHead ..)) ?_
  rw [claimed.head]
  rfl

theorem head_jogStep : (c.jogStep i j).1.head i = c.jogHeadAfter i j := by
  obtain ⟨zs, turned, _⟩ := c.turned_jogStep i j
  exact turned.head

theorem jogStep_previous (a : Axis) : ((c.jogStep i j).1.head i).previous.get a =
    if (c.head i).configured a = true then (c.head i).setpoint.get a else (c.head i).previous.get a := by
  rw [head_jogStep]
  exact PerAxis.get_gen ..

theorem jogStep_get (a : Axis) :
    ((c.jogStep i j).1.head i).setpoint.get a = (jogEnd (c.head i) j (c.jogClaimed i j).2 a).1 ∧
      (c.jogStep i j).2.velocity.get a = (jogEnd (c.head i) j (c.jogClaimed i j).2 a).2 := by
  rw [head_jogStep]
  exact ⟨PerAxis.get_gen .., PerAxis.get_gen ..⟩

/-- An axis that no range stops makes its step. -/
theorem jogStep_axis {a : Axis} (goes : a ≠ .travel ∨ (c.jogClaimed i j).2 = none) :
    ((c.jogStep i j).1.head i).setpoint.get a = (jogNext (c.head i) j a).1 ∧
      (c.jogStep i j).2.velocity.get a = (jogNext (c.head i) j a).2 := by
  rw [← jogEnd_goes goes]
  exact c.jogStep_get i j a

/-- A range that cannot be claimed stops TRAVEL. -/
theorem jogStep_stopped {stop : Int} (stops : (c.jogClaimed i j).2 = some stop) :
    ((c.jogStep i j).1.head i).setpoint.get .travel = stop ∧
      (c.jogStep i j).2.velocity.get .travel = 0 := by
  have ends := c.jogStep_get i j .travel
  rw [stops] at ends
  exact ends

theorem holder_jogStep (z : Zone) : (c.jogStep i j).1.holder z = (c.jogClaimed i j).1.holder z := by
  rw [jogStep_eq, holder_onHead]

/-- An axis that is not configured stays. -/
theorem jogStep_absent {a : Axis} (absent : (c.head i).configured a = false) :
    ((c.jogStep i j).1.head i).setpoint.get a = (c.head i).setpoint.get a ∧
      (c.jogStep i j).2.velocity.get a = j.velocity.get a := by
  have step := c.jogStep_axis i j (a := a) (by
    refine or_iff_not_imp_left.2 fun travel => ?_
    rw [not_not.1 travel] at absent
    unfold jogClaimed jogClaim Head.hasTravel
    rw [absent]
    rfl)
  rw [jogNext_absent j absent] at step
  exact step

/-- TRAVEL makes its step, or stops before the first range in its way that it cannot claim (R107). -/
theorem jogStep_travel (travel : (c.head i).hasTravel = true) :
    let p := (c.head i).setpoint.get .travel
    let q := (jogAxis (c.head i) j .travel).1
    let r := c.jogStep i j
    let t := (r.1.head i).setpoint.get .travel
    (t = q ∧ r.2.velocity.get .travel = (jogAxis (c.head i) j .travel).2 ∧
        (p = q ∨ ∀ e, ¬ r.1.InWay i p q e)) ∨
      (r.2.velocity.get .travel = 0 ∧ ∃ e, r.1.InWay i p q e ∧
        (c.holder e.zone ≠ none ∨ c.wanted e.zone = true) ∧ t = lastBefore (q - p) e.range ∧
        ∀ f, r.1.InWay i p q f →
          (0 < q - p → e.range.lo ≤ f.range.lo) ∧ (¬ 0 < q - p → f.range.hi ≤ e.range.hi)) := by
  intro p q r t
  have next : jogNext (c.head i) j .travel = jogAxis (c.head i) j .travel := jogNext_configured j travel
  obtain ⟨⟨zs, turned, _⟩, ends⟩ := c.jogClaim_examines i p q
  have claimed : c.jogClaimed i j = c.jogClaim i p q := by
    unfold jogClaimed
    rw [next]
  have holders (z : Zone) : r.1.holder z = (c.jogClaim i p q).1.holder z := by
    rw [← claimed]
    exact c.holder_jogStep i j z
  have entries : r.1.entriesOf i = (c.jogClaim i p q).1.entriesOf i := by
    obtain ⟨zs', stepped, _⟩ := c.turned_jogStep i j
    rw [stepped.entriesOf_eq, turned.entriesOf_eq]
  have way (e : ZoneEntry) : r.1.InWay i p q e ↔ (c.jogClaim i p q).1.InWay i p q e := by
    unfold InWay
    rw [holders, entries]
  rcases ends with ⟨_, _, ⟨none, clear⟩ | ⟨e, stop, there, cannot, first⟩⟩ | ⟨rests, same⟩
  · have step := c.jogStep_axis i j (a := .travel) (.inr (by rw [claimed, none]))
    rw [next] at step
    exact .inl ⟨step.1, step.2, .inr fun e h => clear e ((way e).1 h)⟩
  · have step := c.jogStep_stopped i j (by rw [claimed, stop])
    refine .inr ⟨step.2, e, (way e).2 there, ?_, step.1, fun f h => first f ((way f).1 h)⟩
    rw [turned.wanted_eq] at cannot
    refine cannot.imp_left fun held => ?_
    intro free
    rw [turned.holders] at held
    split at held
    · rename_i taken
      exact there.2.1 (by rw [turned.holders, if_pos taken])
    · exact held free
  · have step := c.jogStep_axis i j (a := .travel) (.inr (by rw [claimed, same]))
    rw [next] at step
    exact .inl ⟨step.1, step.2, .inl (rests.resolve_left (Bool.eq_false_iff.not_left.2 travel))⟩

/-- The end of a jog (R87): the head is free and its holdings are its resident zones. -/
theorem restFree_eq {c : Cm8} {i : Slot} :
    c.restFree i = ((c.setActivity i (freeActivity c.clock.frame (c.head i).queue)).recompute i).settle := rfl

theorem head_restFree (c : Cm8) (i : Slot) : (c.restFree i).head i =
    { c.head i with activity := freeActivity c.clock.frame (c.head i).queue } := by
  have own := (c.turned_setActivity i (freeActivity c.clock.frame (c.head i).queue)).head
  rw [restFree_eq, head_recompute_settle (by rw [own]; exact waiting_freeActivity ..), own]

/-- A head set free keeps exactly its resident zones (R115). -/
theorem holder_restFree (c : Cm8) (i : Slot) (z : Zone) : (c.restFree i).holder z = some i ↔
    c.holder z = some i ∧ (c.residentZones i).getLsbD z.val = true := by
  have freed := c.turned_setActivity i (freeActivity c.clock.frame (c.head i).queue)
  have free := freeActivity_isFree c.clock.frame (c.head i).queue
  rw [restFree_eq, (passFrame_settle _).holder i z
    (by rw [head_recompute, freed.head]; exact waiting_freeActivity ..), holder_recompute, freed.head,
    moveZones_free, BitVec.or_zero, residentZones_congr freed.rest.2.2.2.1 (by rw [freed.head]) (by rw [freed.head]),
    freed.holder_eq]
  · have running : (freeActivity c.clock.frame (c.head i).queue).isHalted = false := by
      rcases (Activity.isFree_iff _).1 free with h | h <;> rw [h] <;> rfl
    rw [running]
    by_cases mine : c.holder z = some i
    · cases (c.residentZones i).getLsbD z.val <;> simp [mine]
    · simp [mine]
  · rw [freed.head]
    rcases (Activity.isFree_iff _).1 free with h | h <;> exact h ▸ rfl

theorem Jog.still_iff (h : Head) (j : Jog) : Jog.still h j = true ↔
    ∀ a, h.configured a = true → j.commanded.get a = 0 ∧ j.velocity.get a = 0 := by
  unfold Jog.still
  rw [List.all_eq_true]
  simp only [Head.mem_axisList, Bool.and_eq_true, decide_eq_true_iff]

end Cm8

end Sys2Proof.Machine

namespace Sys2Proof

open Sys2Proof.Machine Sys2Proof.Machine.Cm8

/-- Settles O54. -/
theorem jogRunsOnRefresh : Obligations.JogRunsOnRefresh := by
  unfold Obligations.JogRunsOnRefresh
  refine ⟨?_, ?_, ?_, ?_, fun _ => rfl, ?_, ?_, ?_⟩
  · intro s tag i l ready short rising fits linked empty commanded row
    have list := (jogList_eq_some_iff (s.part.head i).map.mask (rawPairs l) l).2 ⟨rfl, short, rising, fits⟩
    have read := counted_pairBytes (by omega : l.length < 256) fun t ht => by
      have value := (fits t ht).2
      simp only [fitsPosition, decide_eq_true_iff]
      omega
    have same : commandedOf l = commanded := by
      refine congrArg PerAxis.gen (funext fun a => ?_)
      cases l.find? fun t => t.1 = a <;> rfl
    obtain ⟨_, idle, jogs⟩ := jogHead_linked l linked
    rw [same] at idle jogs
    exact ⟨fun h => s.verdict_accepts .jog tag _ (fun c => c.jog _) ready
        ((jog_listed s.part i read list).trans (idle empty h)),
      fun j h => s.verdict_accepts .jog tag _ (fun c => c.jog _) ready
        ((jog_listed s.part i read list).trans (jogs empty j h))⟩
  · intro s i j ws work jogs eleven c r
    have due : s.part.refreshDue i = true := (refreshDue_iff ..).2 ⟨j, jogs, eleven⟩
    have row : s.part.takeEvent (.motion i) (fun c => c.refreshDue i) =
        (c.jogTick i j).advance.chooseIdle := by
      rw [takeEvent_due _ work rfl nofun due]
      exact congrArg (fun d : Cm8 => d.advance.chooseIdle) (motionStep_jogging _ i jogs)
    refine ⟨_, rfl, ?_, fun running => ?_⟩
    · show { s with part := s.part.takeEvent (.motion i) _ } = _
      rw [row]
    · have refreshed : j.refreshed = ⟨.const 0, j.velocity, 12⟩ := by
        unfold Jog.refreshed
        rw [eleven]
        rfl
      unfold jogTick
      rw [refreshed]
      exact if_neg (Bool.eq_false_iff.1 running)
  · intro h j a e limit goal v
    refine ⟨(rampJog_cases ..).1, (rampJog_cases ..).2.1, (rampJog_cases ..).2.2, rfl, ?_, ?_⟩
    · exact fun inside => if_pos inside
    · exact fun out => if_neg out
  · intro c i j h r t p q
    obtain ⟨zs, turned, claims⟩ := c.turned_jogStep i j
    refine ⟨fun a configured => ⟨?_, fun other => ?_⟩, fun travel free => ?_, fun a absent => ⟨?_, ?_, ?_⟩,
      fun still z => ?_, rfl, rfl, ?_, turned.others, ?_, turned.rest.2.2.2.2, turned.arbiter.2.2⟩
    · exact (c.jogStep_previous i j a).trans (if_pos configured)
    · have step := c.jogStep_axis i j (.inl other)
      rw [jogNext_configured j configured] at step
      exact step
    · rcases c.jogStep_travel i j travel with ⟨pos, vel, _⟩ | ⟨_, e, way, cannot, _⟩
      · exact ⟨pos, vel⟩
      · rw [InWay, turned.entriesOf_eq] at way
        obtain ⟨none, unwanted⟩ := free e way.1 (fun mine => way.2.1 (turned.holds mine)) way.2.2
        exact absurd cannot (by simp [none, unwanted])
    · exact (c.jogStep_absent i j absent).1
    · exact (c.jogStep_previous i j a).trans (if_neg (Bool.eq_false_iff.1 absent))
    · exact (c.jogStep_absent i j absent).2
    · show (c.jogStep i j).1.holder z = _
      rw [turned.holders, if_neg]
      exact fun taken => Bool.noConfusion (still.symm.trans (claims z taken.1).1)
    · show (c.jogStep i j).1.head i = { h with
        setpoint := ((c.jogStep i j).1.head i).setpoint, previous := ((c.jogStep i j).1.head i).previous }
      rw [head_jogStep]
      rfl
    · exact turned.events.trans (EventUnit.told_nil ..)
  · intro c i j travel p q r t stands
    obtain ⟨zs, turned, claims⟩ := c.turned_jogStep i j
    rw [jogNext_configured j travel] at claims
    have unheld {e : ZoneEntry} (mine : e ∈ c.entriesOf i) (other : r.1.holder e.zone ≠ some i) :
        ¬ (e.range.lo ≤ p ∧ p ≤ e.range.hi) := fun inside =>
      other (turned.holds (stands e mine ((Span.contains_iff ..).2 inside)))
    have way {e : ZoneEntry} (mine : e ∈ c.entriesOf i) (other : r.1.holder e.zone ≠ some i)
        (meets : e.range.meets (between p q) = true) : r.1.InWay i p q e :=
      ⟨by rw [turned.entriesOf_eq]; exact mine, other, meets⟩
    refine ⟨fun e mine other => ?_, fun z => ?_, ?_⟩
    · have apart := unheld mine other
      rw [← Bool.not_eq_true, Span.meets_iff]
      dsimp only
      rcases c.jogStep_travel i j travel with ⟨pos, _, rests | clear⟩ | ⟨_, f, ⟨fmine, fother, fmeets⟩, _, stop, first⟩
      · rw [show t = p from pos.trans rests.symm]
        omega
      · have free : ¬ e.range.meets (between p q) = true := fun meets => clear e (way mine other meets)
        rw [Span.meets_iff, between] at free
        rw [show t = q from pos]
        exact free
      · have stop' : t = lastBefore (q - p) f.range := stop
        rw [turned.entriesOf_eq] at fmine
        have fapart := unheld fmine fother
        have fway : f.range.lo ≤ max p q ∧ min p q ≤ f.range.hi := (Span.meets_iff ..).1 fmeets
        have near (meets : e.range.lo ≤ max p q ∧ min p q ≤ e.range.hi) :=
          first e (way mine other ((Span.meets_iff ..).2 meets))
        unfold lastBefore at stop'
        split at stop'
        · rename_i up
          have last := fun meets => (near meets).1 up
          omega
        · rename_i down
          have last := fun meets => (near meets).2 down
          omega
    · rw [turned.holders]
      split
      · rename_i taken
        obtain ⟨_, free, unwanted, e, mine, zone, meets⟩ := claims z taken.1
        exact .inr ⟨free, unwanted, rfl, e, mine, zone, meets⟩
      · exact .inl rfl
    · rcases c.jogStep_travel i j travel with ⟨pos, vel, _⟩ | ⟨vel, e, ⟨mine, other, _⟩, cannot, stop, _⟩
      · exact .inl ⟨pos, vel⟩
      · rw [turned.entriesOf_eq] at mine
        exact .inr ⟨vel, e, mine, other, cannot, stop⟩
  · intro c i j r d
    obtain ⟨zs, turned, _⟩ := c.turned_jogStep i j.refreshed
    refine ⟨fun still => ?_, fun ⟨a, configured, runs⟩ => ?_⟩
    · have freed : d = r.1.restFree i := if_pos ((Jog.still_iff ..).2 still)
      have clock : r.1.clock = c.clock := turned.rest.1
      have queue : (r.1.head i).queue = (c.head i).queue := by rw [turned.head]; rfl
      refine ⟨?_, ?_, ?_, fun z => ?_⟩ <;> rw [freed]
      · rw [restFree_eq, clock, queue]
      · rw [head_restFree, clock, queue]
      · rw [head_restFree]
      · exact holder_restFree ..
    · show c.jogTick i j = _
      unfold jogTick
      dsimp only
      rw [if_neg]
      rw [Jog.still_iff]
      exact fun all => runs.elim (· (all a configured).1) (· (all a configured).2)
  · intro s tag b n ps ready count values refused
    have read := counted_rawPairBytes count values
    have refuse {why : Reason} (h : s.part.jog (b :: n :: rawPairBytes ps) = .error why) :
        refused why := s.verdict_refuses .jog tag _ (fun c => c.jog _) ready h
    refine ⟨fun high => refuse (jog_range _ read high), ?_⟩
    rintro i rfl h fits
    have listed (ok : fits) {why : Reason} (turns : ∀ l, s.part.jogHead i l = .error why) : refused why := by
      obtain ⟨l, list⟩ := (jogList_isSome_iff ..).2 ok
      exact refuse ((jog_listed _ i read list).trans (turns l))
    exact ⟨fun unfit => refuse (jog_unlisted _ i read fun l list => unfit ((jogList_isSome_iff ..).1 ⟨l, list⟩)),
      fun ok none => listed ok fun l => jogHead_noHead _ i l none,
      fun ok linked => ⟨fun w hw => listed ok fun l => (jogHead_linked l linked).1 w hw,
        fun busy => listed ok fun l => jogHead_busy l linked busy⟩⟩

end Sys2Proof
end

section
/-! PROOF. Planning: the least duration, targets, sweep zones and flags, and the on-air policy (O53). -/

namespace Sys2Proof.Machine

/-! ### The least duration (R98) -/

/-- The bits below `b` climb to the last value at which a rising test fails. -/
theorem descend_spec (ok : Nat → Bool) (b x : Nat) (fails : ok x = false) :
    ∃ r, descend ok b x = x + r ∧ r < 2 ^ b ∧ ok (x + r) = false ∧ (r + 1 = 2 ^ b ∨ ok (x + r + 1) = true) := by
  induction b generalizing x with
  | zero => exact ⟨0, rfl, by decide, fails, .inl rfl⟩
  | succ b ih =>
    unfold descend
    have double : 2 ^ (b + 1) = 2 ^ b + 2 ^ b := by omega
    split
    · rename_i met
      obtain ⟨r, eq, small, still, last⟩ := ih x fails
      refine ⟨r, eq, by omega, still, .inr ?_⟩
      rcases last with top | next
      · rw [show x + r + 1 = x + 2 ^ b by omega]
        exact met
      · exact next
    · rename_i unmet
      obtain ⟨r, eq, small, still, last⟩ := ih (x + 2 ^ b) (Bool.eq_false_iff.2 unmet)
      refine ⟨2 ^ b + r, by omega, by omega, by rwa [← Nat.add_assoc], ?_⟩
      rcases last with top | next
      · exact .inl (by omega)
      · exact .inr (by rwa [← Nat.add_assoc])

/-- For a test that is false at 0 and stays true once it is true, the least D is at most `k` exactly when the
test holds at `k`. -/
theorem leastD_le_iff {ok : Nat → Bool} (start : ok 0 = false)
    (rising : ∀ m n, m ≤ n → ok m = true → ok n = true) {k : Nat} (small : k ≤ 8191) :
    leastD ok ≤ k ↔ ok k = true := by
  obtain ⟨r, eq, bound, fails, last⟩ := descend_spec ok 13 0 start
  rw [Nat.zero_add] at eq fails last
  unfold leastD
  rw [eq]
  constructor
  · intro le
    exact rising _ _ le (last.resolve_left (by omega))
  · intro holds
    by_contra below
    exact Bool.noConfusion (fails.symm.trans (rising k r (by omega) holds))

theorem axisBound_le_iff {e : AxisEntry} (vmax : 1 ≤ e.vmax) (amax : 1 ≤ e.amax) (named : Bool)
    (delta v0 : Int) {k : Nat} (small : k ≤ 4095) : axisBound e named delta v0 ≤ k ↔
      (named = true → delta ≠ 0 →
        3 * delta.natAbs ≤ 2 * e.vmax * k ∧ 6 * delta.natAbs ≤ e.amax * k * k) ∧
      (v0 ≠ 0 → 4 * v0.natAbs ≤ e.amax * k) := by
  unfold axisBound
  dsimp only
  have slow : (if v0 ≠ 0 then ceilDiv (4 * v0.natAbs) e.amax else 0) ≤ k ↔
      (v0 ≠ 0 → 4 * v0.natAbs ≤ e.amax * k) := by
    by_cases still : v0 = 0
    · simp [still]
    · rw [if_pos still, ceilDiv_le_iff amax]
      exact ⟨fun h _ => h, fun h => h still⟩
  rw [max_le_iff, max_le_iff, slow, ← and_assoc]
  refine and_congr_left fun _ => ?_
  by_cases asked : named = true ∧ delta ≠ 0
  · have on : (named && decide (delta ≠ 0)) = true := by simpa using asked
    have far : 0 < delta.natAbs := Int.natAbs_pos.2 asked.2
    rw [if_pos on, if_pos on, ceilDiv_le_iff (by omega), leastD_le_iff ?_ ?_ (by omega), decide_eq_true_iff]
    · exact ⟨fun h _ _ => h, fun h => h asked.1 asked.2⟩
    · rw [decide_eq_false_iff_not]
      omega
    · intro m n le met
      rw [decide_eq_true_iff] at met ⊢
      exact met.trans (Nat.mul_le_mul (Nat.mul_le_mul_left _ le) le)
  · have off : ¬ (named && decide (delta ≠ 0)) = true := by simpa using asked
    rw [if_neg off, if_neg off]
    exact iff_of_true ⟨Nat.zero_le _, Nat.zero_le _⟩ fun a b => absurd ⟨a, b⟩ asked

theorem chooseD_le_iff (h : Head) (minimum : Nat) (st : Start) (ask : Ask) (k : Nat) :
    h.chooseD minimum st ask ≤ k ↔ ask.requested ≤ k ∧ (h.tally = true → minimum ≤ k) ∧
      ∀ a, h.configured a = true → h.bound st ask a ≤ k := by
  unfold Head.chooseD
  rw [foldl_max_le_iff, max_le_iff, and_assoc]
  refine and_congr_right fun _ => and_congr ?_ (forall_congr' fun a => by rw [Head.mem_axisList])
  cases h.tally <;> simp

theorem bound_le_iff {h : Head} {a : Axis} (vmax : 1 ≤ (h.axes.get a).vmax) (amax : 1 ≤ (h.axes.get a).amax)
    (st : Start) (ask : Ask) {k : Nat} (small : k ≤ 4095) : h.bound st ask a ≤ k ↔
      (∀ p, ask.named.get a = some p → (h.working a).clamp p - st.p0.get a ≠ 0 →
        3 * ((h.working a).clamp p - st.p0.get a).natAbs ≤ 2 * (h.axes.get a).vmax * k ∧
          6 * ((h.working a).clamp p - st.p0.get a).natAbs ≤ (h.axes.get a).amax * k * k) ∧
      (st.v0.get a ≠ 0 → 4 * (st.v0.get a).natAbs ≤ (h.axes.get a).amax * k) := by
  unfold Head.bound
  cases named : ask.named.get a with
  | none =>
    rw [axisBound_le_iff vmax amax _ _ _ small]
    exact and_congr_left fun _ => iff_of_true nofun nofun
  | some p =>
    rw [axisBound_le_iff vmax amax _ _ _ small]
    refine and_congr_left fun _ => ⟨fun h q same => ?_, fun h _ => h p rfl⟩
    obtain rfl := Option.some.inj same
    exact h rfl

/-! ### The sweep (R102) -/

/-- The sweep is the smallest interval that holds its points. -/
theorem sweepSpan_spec (q : Nat → Int) (p : Int) (n : Nat) :
    let points (k : Nat) : Int := if k = 0 then p else q k
    (∀ k, k ≤ n → (sweepSpan q p n).lo ≤ points k ∧ points k ≤ (sweepSpan q p n).hi) ∧
      (∃ k, k ≤ n ∧ points k = (sweepSpan q p n).lo) ∧ ∃ k, k ≤ n ∧ points k = (sweepSpan q p n).hi := by
  intro points
  induction n with
  | zero =>
    refine ⟨fun k le => ?_, ⟨0, le_rfl, rfl⟩, ⟨0, le_rfl, rfl⟩⟩
    obtain rfl := Nat.le_zero.1 le
    exact ⟨le_rfl, le_rfl⟩
  | succ n ih =>
    obtain ⟨holds, ⟨k, hk, low⟩, l, hl, high⟩ := ih
    have last : points (n + 1) = q (n + 1) := if_neg (Nat.succ_ne_zero n)
    refine ⟨fun m le => ?_, ?_, ?_⟩
    · show min _ _ ≤ _ ∧ _ ≤ max _ _
      rcases Nat.lt_or_eq_of_le le with less | rfl
      · have inside := holds m (Nat.le_of_lt_succ less)
        exact ⟨(min_le_left _ _).trans inside.1, inside.2.trans (le_max_left _ _)⟩
      · rw [last]
        exact ⟨min_le_right _ _, le_max_right _ _⟩
    · show ∃ m, _ ∧ _ = min _ _
      rcases min_choice (sweepSpan q p n).lo (q (n + 1)) with least | least <;> rw [least]
      · exact ⟨k, Nat.le_succ_of_le hk, low⟩
      · exact ⟨n + 1, le_rfl, last⟩
    · show ∃ m, _ ∧ _ = max _ _
      rcases max_choice (sweepSpan q p n).hi (q (n + 1)) with most | most <;> rw [most]
      · exact ⟨l, Nat.le_succ_of_le hl, high⟩
      · exact ⟨n + 1, le_rfl, last⟩

namespace Cm8

variable (c : Cm8) (i : Slot)

theorem mem_entriesOf (e : ZoneEntry) :
    e ∈ c.entriesOf i ↔ ∃ n : Fin 32, c.zonemap[n] = some e ∧ e.slot = i := by
  unfold entriesOf
  rw [List.mem_filterMap]
  constructor
  · rintro ⟨x, mem, kept⟩
    rw [Option.filter_eq_some_iff, decide_eq_true_iff] at kept
    obtain ⟨n, small, rfl⟩ := Vector.mem_iff_getElem.1 (Vector.mem_toList_iff.1 mem)
    exact ⟨⟨n, small⟩, kept⟩
  · rintro ⟨n, there, own⟩
    refine ⟨some e, Vector.mem_toList_iff.2 (Vector.mem_iff_getElem.2 ⟨n.val, n.isLt, there⟩), ?_⟩
    rw [Option.filter_eq_some_iff, decide_eq_true_iff]
    exact ⟨rfl, own⟩

/-! ### The planned move (R94) -/

/-- The move that steps 3 to 8 of a planning make (R94). -/
def planned (st : Start) (ask : Ask) : Move :=
  let m := (c.head i).draft st ask ((c.head i).chooseD c.policy.minimum st ask)
  { m with zones := c.sweepZones i m }

theorem plan_limit {st : Start} {ask : Ask} (long : 4095 < (c.head i).chooseD c.policy.minimum st ask) :
    c.plan i st ask = none := if_pos long

theorem plan_eq {st : Start} {ask : Ask} (short : (c.head i).chooseD c.policy.minimum st ask ≤ 4095) :
    c.plan i st ask = some (c.planned i st ask) := if_neg (Nat.not_lt.2 short)

theorem plan_eq_some_iff (st : Start) (ask : Ask) (m : Move) : c.plan i st ask = some m ↔
    (c.head i).chooseD c.policy.minimum st ask ≤ 4095 ∧ m = c.planned i st ask := by
  rcases Nat.lt_or_ge 4095 ((c.head i).chooseD c.policy.minimum st ask) with long | short
  · rw [plan_limit c i long]
    exact iff_of_false nofun fun h => absurd h.1 (Nat.not_le.2 long)
  · rw [plan_eq c i short, Option.some_inj, eq_comm]
    exact ⟨fun h => ⟨short, h⟩, fun h => h.2⟩

theorem planned_bounds (st : Start) (ask : Ask) : ask.requested ≤ (c.planned i st ask).d ∧
    ((c.head i).tally = true → c.policy.minimum ≤ (c.planned i st ask).d) := by
  have least := (chooseD_le_iff (c.head i) c.policy.minimum st ask _).1 le_rfl
  exact ⟨least.1, least.2.1⟩

theorem planned_target (st : Start) (ask : Ask) (a : Axis) : (c.planned i st ask).target.get a =
    if (c.head i).configured a = true then ((c.head i).working a).clamp
      (Head.rawTarget st ask (c.planned i st ask).d a) else st.p0.get a := PerAxis.get_gen ..

theorem planned_clamped (st : Start) (ask : Ask) : (c.planned i st ask).flags.clamped = true ↔
    ∃ a, (c.head i).configured a = true ∧ (c.planned i st ask).target.get a ≠
      Head.rawTarget st ask (c.planned i st ask).d a := by
  show ((c.head i).axisList.any fun a => decide _) = true ↔ _
  rw [List.any_eq_true]
  refine exists_congr fun a => ?_
  rw [Head.mem_axisList, decide_eq_true_iff, planned_target]
  refine and_congr_right fun configured => ?_
  rw [if_pos configured]
  rfl

theorem planned_stretched (st : Start) (ask : Ask) : (c.planned i st ask).flags.stretched = true ↔
    ask.requested < (c.planned i st ask).d := decide_eq_true_iff

theorem rawTarget_named {st : Start} {ask : Ask} {a : Axis} {p : Int} (named : ask.named.get a = some p)
    (d : Nat) : Head.rawTarget st ask d a = p := by
  unfold Head.rawTarget
  rw [named]
  rfl

theorem rawTarget_free {st : Start} {ask : Ask} {a : Axis} (free : ask.named.get a = none) (d : Nat) :
    Head.rawTarget st ask d a = Head.freeTarget st d a := by
  unfold Head.rawTarget
  rw [free]
  rfl

/-! ### Sources and the on-air policy (R25, R74, R97) -/

/-- The on-air policy touches SWIFT moves of on-air heads alone. -/
theorem apply_other {p : Policy} {tally : Bool} {q : Profile} (other : ¬ (q = .swift ∧ tally = true)) :
    p.apply tally q = some (q, false) := by
  unfold Policy.apply
  cases q
  · cases tally <;> rfl
  · cases tally
    · rfl
    · exact absurd ⟨rfl, rfl⟩ other

theorem apply_soften {p : Policy} (soften : p.onAir = .soften) : p.apply true .swift = some (.ease, true) := by
  unfold Policy.apply
  rw [soften]

theorem apply_block {p : Policy} (block : p.onAir = .block) : p.apply true .swift = none := by
  unfold Policy.apply
  rw [block]

variable {c i}
variable {st : Start} {cls : MoveClass} {src : Source} {duration : Option Nat} {profile : Option Profile}
  {tag : Byte} {r : Reading}

theorem planSource_unread (h : (c.head i).read src duration profile = none) :
    c.planSource i st cls src duration profile tag = .error .noShot := by
  unfold planSource
  dsimp only
  rw [h]

theorem planSource_blocked (h : (c.head i).read src duration profile = some r)
    (block : c.policy.apply (c.head i).tally r.profile = none) :
    c.planSource i st cls src duration profile tag = .error .onAir := by
  unfold planSource
  dsimp only
  rw [h]
  dsimp only
  rw [block]

variable {p : Profile} {soft : Bool}

/-- What a planning asks of a source that is read, once the policy stands (R25, R97). -/
def askOf (h : Head) (cls : MoveClass) (tag : Byte) (r : Reading) (p : Profile) (soft : Bool) : Ask :=
  ⟨cls, some r.name, some tag, some p, requestFor p r.requested, h.targetSet r.targets, soft⟩

theorem planSource_limit (h : (c.head i).read src duration profile = some r)
    (stands : c.policy.apply (c.head i).tally r.profile = some (p, soft))
    (none : c.plan i st (askOf (c.head i) cls tag r p soft) = none) :
    c.planSource i st cls src duration profile tag = .error .limit := by
  unfold askOf at none
  unfold planSource
  dsimp only
  rw [h]
  dsimp only
  rw [stands]
  dsimp only
  rw [none]

theorem planSource_ok (h : (c.head i).read src duration profile = some r)
    (stands : c.policy.apply (c.head i).tally r.profile = some (p, soft)) {m : Move}
    (made : c.plan i st (askOf (c.head i) cls tag r p soft) = some m) :
    c.planSource i st cls src duration profile tag = .ok ⟨m, requestFor p r.requested, r.requested⟩ := by
  unfold askOf at made
  unfold planSource
  dsimp only
  rw [h]
  dsimp only
  rw [stands]
  dsimp only
  rw [made]

/-- The profile that stands for a reading, and whether it was softened (R74). -/
theorem apply_cases (p : Policy) (tally : Bool) (q : Profile) :
    (q = .swift ∧ tally = true ∧ p.onAir = .block ∧ p.apply tally q = none) ∨
    (q = .swift ∧ tally = true ∧ p.onAir = .soften ∧ p.apply tally q = some (.ease, true)) ∨
    (¬ (q = .swift ∧ tally = true) ∧ p.apply tally q = some (q, false)) := by
  by_cases swift : q = .swift ∧ tally = true
  · obtain ⟨rfl, rfl⟩ := swift
    cases policy : p.onAir with
    | block => exact .inl ⟨rfl, rfl, rfl, apply_block policy⟩
    | soften => exact .inr (.inl ⟨rfl, rfl, rfl, apply_soften policy⟩)
  · exact .inr (.inr ⟨swift, apply_other swift⟩)

/-- A planning that succeeds has read its source, and its move is what R94 makes of it. -/
theorem planSource_eq_ok {x : Planned} (ok : c.planSource i st cls src duration profile tag = .ok x)
    (h : (c.head i).read src duration profile = some r) : ∃ p soft,
      c.policy.apply (c.head i).tally r.profile = some (p, soft) ∧
      (c.head i).chooseD c.policy.minimum st (askOf (c.head i) cls tag r p soft) ≤ 4095 ∧
      x = ⟨c.planned i st (askOf (c.head i) cls tag r p soft), requestFor p r.requested, r.requested⟩ := by
  cases stands : c.policy.apply (c.head i).tally r.profile with
  | none => exact nomatch (planSource_blocked h stands).symm.trans ok
  | some q =>
    obtain ⟨p, soft⟩ := q
    cases made : c.plan i st (askOf (c.head i) cls tag r p soft) with
    | none => exact nomatch (planSource_limit h stands made).symm.trans ok
    | some m =>
      obtain ⟨short, rfl⟩ := (plan_eq_some_iff ..).1 made
      exact ⟨p, soft, rfl, short, (Except.ok.inj ((planSource_ok h stands made).symm.trans ok)).symm⟩

end Cm8

end Sys2Proof.Machine
end

section
/-! PROOF. Softening on a tally rise, and planning (O53). -/

namespace Sys2Proof.Machine.Cm8

/-! ### Softening (R76, R77) -/

section
variable {c : Cm8} {i : Slot} {m : Move} {held : Option Held} (moves : (c.head i).activity = .moving m held)
include moves

theorem softenStep_slow (other : m.profile ≠ some .swift) : c.softenStep i = c := by
  unfold softenStep
  rw [moves]
  exact if_neg other

theorem softenStep_limit (swift : m.profile = some .swift) (none : c.planSoften i m = none) :
    c.softenStep i = c.softenFails i m held .limit := by
  unfold softenStep
  rw [moves]
  dsimp only
  rw [if_pos swift, none]

theorem softenStep_free (swift : m.profile = some .swift) {n : Move} (made : c.planSoften i m = some n)
    (free : c.obtainable i n.zones = true) :
    c.softenStep i = (c.takeOver i n held).post (some i) n.tag (.moveSoftened n.d) := by
  unfold softenStep
  rw [moves]
  dsimp only
  rw [if_pos swift, made]
  exact if_pos free

theorem softenStep_busy (swift : m.profile = some .swift) {n : Move} (made : c.planSoften i m = some n)
    (busy : c.obtainable i n.zones = false) : c.softenStep i = c.softenFails i m held .zoneBusy := by
  unfold softenStep
  rw [moves]
  dsimp only
  rw [if_pos swift, made]
  exact if_neg (Bool.eq_false_iff.1 busy)

end

/-- The stop move of a failed softening takes over the head (R77, R105). -/
theorem turned_softenFails (c : Cm8) (i : Slot) (m : Move) (held : Option Held) (why : DropReason) :
    ∃ e : Cm8, c.Turned e i { c.head i with activity := .moving (c.planStop i m) none }
      (c.planStop i m).zones (moveRecords i m why ++ heldRecords i held .superseded) ∧
        c.softenFails i m held why = (e.recompute i).settle := by
  have dropped := (c.turned_dropMove i m why).trans (turned_dropHeld _ i held .superseded)
  have head : ((c.dropMove i m why).dropHeld? i held .superseded).head i = c.head i := by
    rw [(turned_dropHeld ..).head, head_dropMove]
  have plan : ((c.dropMove i m why).dropHeld? i held .superseded).planStop i m = c.planStop i m :=
    planStop_congr dropped.rest.2.2.2.1 dropped.holder_eq ⟨_, _, head⟩ m
  have given := dropped.trans (turned_giveFree _ i (c.planStop i m).zones)
  have begun := given.transTaken (turned_setActivity _ i (.moving (c.planStop i m) none))
  rw [given.head, head] at begun
  refine ⟨_, begun.records (by simp), ?_⟩
  unfold softenFails beginStop takeOver
  rw [plan]

/-- Softening a head changes no other head that does not wait. -/
theorem others_softenStep {c : Cm8} {i j : Slot} {m : Move} {held : Option Held}
    (moves : (c.head i).activity = .moving m held) (still : (c.head j).activity.waiting = none) (ne : j ≠ i) :
    (c.softenStep i).head j = c.head j := by
  have failed (why : DropReason) : (c.softenFails i m held why).head j = c.head j := by
    obtain ⟨e, turned, eq⟩ := c.turned_softenFails i m held why
    have other := turned.others j ne
    rw [eq, others_recompute_settle (by rw [other]; exact still), other]
  by_cases swift : m.profile = some .swift
  · cases made : c.planSoften i m with
    | none => rw [softenStep_limit moves swift made, failed]
    | some n =>
      cases free : c.obtainable i n.zones with
      | false => rw [softenStep_busy moves swift made free, failed]
      | true =>
        rw [softenStep_free moves swift made free, head_post]
        exact c.others_takeOver i n held ne still
  · rw [softenStep_slow moves swift]

/-- What the planning of a softening asks (R76). -/
def softenAsk (c : Cm8) (i : Slot) (m : Move) : Ask :=
  ⟨m.cls, m.source, m.tag, some .ease, max (m.d - m.k) c.policy.minimum, c.nameAll i m.target, true⟩

theorem planSoften_eq (c : Cm8) (i : Slot) (m : Move) : c.planSoften i m =
    (c.plan i ((c.head i).blendStart m) (c.softenAsk i m)).map fun n =>
      { n with flags := { n.flags with late := m.flags.late } } := rfl

theorem planSoften_eq_some {c : Cm8} {i : Slot} {m n : Move} (made : c.planSoften i m = some n) :
    (c.head i).chooseD c.policy.minimum ((c.head i).blendStart m) (c.softenAsk i m) ≤ 4095 ∧
    n = { c.planned i ((c.head i).blendStart m) (c.softenAsk i m) with
      flags := { (c.planned i ((c.head i).blendStart m) (c.softenAsk i m)).flags with
        late := m.flags.late } } := by
  rw [planSoften_eq] at made
  obtain ⟨p, plan, rfl⟩ := Option.map_eq_some_iff.1 made
  obtain ⟨short, rfl⟩ := (plan_eq_some_iff ..).1 plan
  exact ⟨short, rfl⟩

theorem nameAll_configured {c : Cm8} {i : Slot} {a : Axis} (t : PerAxis Int)
    (configured : (c.head i).configured a = true) : (c.nameAll i t).get a = some (t.get a) :=
  (PerAxis.get_gen ..).trans (if_pos configured)

/-! ### Resumption (R73) -/

/-- A planned resumption is a planning from rest of what R73 asks. -/
theorem planResume_eq_ok {c : Cm8} {i : Slot} {x : Held} {p : Planned} (ok : c.planResume i x = .ok p) :
    ∃ q soft, c.policy.apply (c.head i).tally (x.profile.getD .ease) = some (q, soft) ∧
      (c.head i).chooseD c.policy.minimum (c.head i).restStart ⟨.planned, x.source, x.tag, some q,
        requestFor q x.remaining, c.nameAll i x.target, soft⟩ ≤ 4095 ∧
      p = ⟨c.planned i (c.head i).restStart ⟨.planned, x.source, x.tag, some q,
        requestFor q x.remaining, c.nameAll i x.target, soft⟩, requestFor q x.remaining, x.remaining⟩ := by
  unfold planResume at ok
  dsimp only at ok
  split at ok
  · nomatch ok
  · rename_i q soft stands
    split at ok
    · nomatch ok
    · rename_i m made
      obtain ⟨short, rfl⟩ := (plan_eq_some_iff ..).1 made
      exact ⟨q, soft, stands, short, (Except.ok.inj ok).symm⟩

end Sys2Proof.Machine.Cm8

namespace Sys2Proof

open Sys2Proof.Machine Sys2Proof.Machine.Cm8

/-- Settles O53. -/
theorem durationIsLeast : Obligations.DurationIsLeast := by
  unfold Obligations.DurationIsLeast
  refine ⟨?_, ?_, ?_, ?_, ?_⟩
  · intro h minimum k st ask limits small
    rw [chooseD_le_iff]
    refine and_congr_right fun _ => and_congr_right fun _ => forall₂_congr fun a _ => ?_
    exact bound_le_iff (limits a).1 (limits a).2 st ask small
  · intro c i st ask h d
    refine ⟨fun long => plan_limit c i long, fun short => ?_⟩
    have sweep := sweepSpan_spec (fun k => h.pathPoint (c.planned i st ask) k .travel) (st.p0.get .travel) d
    refine ⟨c.planned i st ask, .gen (Head.rawTarget st ask d), h.sweep (c.planned i st ask),
      plan_eq c i short, rfl, rfl, rfl, rfl, rfl, rfl, rfl, rfl, fun a configured => ⟨?_, ?_, ?_⟩,
      fun a absent => ?_, ?_, planned_stretched c i st ask, rfl, rfl, sweep.1, sweep.2.1, sweep.2.2,
      fun z => ?_⟩
    · intro p named
      rw [PerAxis.get_gen, rawTarget_named named]
    · intro free
      rw [PerAxis.get_gen, rawTarget_free free]
      exact freeTarget_nearest st d a
    · rw [planned_target, PerAxis.get_gen]
      exact if_pos configured
    · rw [planned_target]
      exact if_neg (Bool.eq_false_iff.1 absent)
    · rw [planned_clamped]
      refine exists_congr fun a => and_congr_right fun _ => ?_
      rw [PerAxis.get_gen]
      rfl
    · rw [show (c.planned i st ask).zones = c.sweepZones i (c.planned i st ask) from rfl, mem_sweepZones]
      refine and_congr_right fun _ => ⟨?_, ?_⟩
      · rintro ⟨e, mine, zone, meets⟩
        obtain ⟨n, there, own⟩ := (mem_entriesOf ..).1 mine
        exact ⟨n, e, there, own, zone, (Span.meets_iff ..).1 meets⟩
      · rintro ⟨n, e, there, own, zone, meets⟩
        exact ⟨e, (mem_entriesOf ..).2 ⟨n, there, own⟩, zone, (Span.meets_iff ..).2 meets⟩
  · intro c i st cls duration profile tag h
    refine ⟨fun n invalid => ?_, fun n v valid => ?_, fun ts => rfl, ?_, fun m => rfl, ?_⟩
    · refine planSource_unread ?_
      show (h.shots[n].map _) = none
      rw [invalid]
      rfl
    · show (h.shots[n].map _) = _
      rw [valid]
      rfl
    · intro src r read soft allowed q requested made
      have stands : c.policy.apply h.tally r.profile = some (q, soft) := by
        by_cases swift : r.profile = .swift ∧ h.tally = true
        · have on : soft = true := decide_eq_true swift
          rw [swift.1, swift.2, apply_soften (allowed on), show q = .ease from if_pos on, on]
        · have off : soft = false := decide_eq_false swift
          rw [apply_other swift, show q = r.profile from if_neg (Bool.eq_false_iff.1 off), off]
      exact ⟨fun none => planSource_limit read stands none, fun m some => planSource_ok read stands some⟩
    · intro x p ok
      obtain ⟨q, soft, stands, short, rfl⟩ := planResume_eq_ok ok
      exact plan_eq c i short
  · intro c i st cls src duration profile tag r read h plan swift
    refine ⟨fun on block => ?_, fun p ok => ?_⟩
    · refine planSource_blocked read ?_
      rw [show (c.head i).tally = true from on.2, show r.profile = .swift from on.1]
      exact apply_block block
    · obtain ⟨q, soft, stands, short, rfl⟩ := planSource_eq_ok ok read
      have bounds := c.planned_bounds i st (askOf (c.head i) cls tag r q soft)
      refine ⟨rfl, rfl, rfl, rfl, ?_, ?_, bounds.1, bounds.2, short, planned_stretched ..⟩
      · intro on
        rcases apply_cases c.policy (c.head i).tally r.profile with ⟨_, _, _, none⟩ | ⟨_, _, _, eased⟩ | ⟨other, _⟩
        · exact nomatch none.symm.trans stands
        · obtain ⟨rfl, rfl⟩ := Prod.mk.inj (Option.some.inj (eased.symm.trans stands))
          exact ⟨rfl, rfl, rfl⟩
        · exact absurd on other
      · intro off
        obtain ⟨rfl, rfl⟩ := Prod.mk.inj (Option.some.inj ((apply_other off).symm.trans stands))
        exact ⟨rfl, rfl, rfl⟩
  · intro c i m held moves h stopped
    refine ⟨softenStep_slow moves, fun swift => ⟨softenStep_limit moves swift, fun n made => ?_⟩,
      c.turned_softenFails i m held, fun j still ne => others_softenStep moves still ne⟩
    obtain ⟨short, shape⟩ := planSoften_eq_some made
    have bounds := c.planned_bounds i (h.blendStart m) (c.softenAsk i m)
    have asked := max_le_iff.1 bounds.1
    have target (a : Axis) (configured : h.configured a = true) :
        n.target.get a = (h.working a).clamp (m.target.get a) := by
      rw [shape]
      refine (c.planned_target i (h.blendStart m) (c.softenAsk i m) a).trans ((if_pos configured).trans ?_)
      rw [rawTarget_named (nameAll_configured m.target configured)]
    refine ⟨by rw [shape]; rfl, by rw [shape]; rfl, by rw [shape]; rfl, by rw [shape]; rfl, by rw [shape]; rfl,
      by rw [shape]; rfl, by rw [shape]; rfl, target, by rw [shape]; exact asked.1,
      by rw [shape]; exact asked.2, by rw [shape]; exact short, by rw [shape]; rfl, by rw [shape],
      fun free => ?_, fun busy => softenStep_busy moves swift made ((obtainable_false_iff ..).2 busy)⟩
    have takes := softenStep_free moves swift made ((obtainable_iff ..).2 free)
    refine ⟨takes, ⟨_, c.turned_taken i n held, rfl⟩, ?_, ?_⟩
    · rw [takes, head_post, head_takeOver]
    · rw [takes]
      exact fun z hz => (holder_post ..).trans (takeOver_holds held free z hz)

end Sys2Proof
end

section
/-! PROOF. What a request for zones does (R119): the pass, the start or the wait, and what it leaves. -/

namespace Sys2Proof.Machine.Cm8

variable (c : Cm8) (i : Slot)

/-! ### What passes and requests leave of every head -/

/-- Every head of `d` is the head of `c` with some activity. -/
structure SameHeads (c d : Cm8) : Prop where
  head : ∀ j, ∃ a, d.head j = { c.head j with activity := a }

namespace SameHeads

variable {c d e : Cm8}

theorem refl (c : Cm8) : c.SameHeads c := ⟨fun _ => ⟨_, rfl⟩⟩

theorem trans (h : c.SameHeads d) (k : d.SameHeads e) : c.SameHeads e where
  head j := by
    obtain ⟨a, ha⟩ := h.head j
    obtain ⟨b, hb⟩ := k.head j
    exact ⟨b, by rw [hb, ha]⟩

theorem of_pass (h : PassFrame c d) : c.SameHeads d := ⟨fun j => ⟨_, h.head j⟩⟩

theorem of_eq (h : ∀ j, d.head j = c.head j) : c.SameHeads d := ⟨fun j => ⟨_, h j⟩⟩

theorem setActivity (c : Cm8) (i : Slot) (a : Activity) : c.SameHeads (c.setActivity i a) where
  head j := by
    by_cases same : j = i
    · exact ⟨a, by rw [same]; exact (turned_setActivity c i a).head⟩
    · exact ⟨_, (turned_setActivity c i a).others j same⟩

theorem foldl {f : Cm8 → Slot → Cm8} (step : ∀ (c : Cm8) j, c.SameHeads (f c j)) (l : List Slot) (c : Cm8) :
    c.SameHeads (l.foldl f c) := by
  induction l generalizing c with
  | nil => exact refl c
  | cons j l ih => exact (step c j).trans (ih _)

end SameHeads

theorem sameHeads_makeActive (m : Move) : c.SameHeads (c.makeActive i m) :=
  SameHeads.trans (d := c.skipMotion i) (.of_eq fun _ => rfl) (.setActivity ..)

theorem sameHeads_recompute : c.SameHeads (c.recompute i) := .of_eq fun _ => head_recompute ..

theorem sameHeads_startMove (m : Move) (cue : Option (BitVec 32)) : c.SameHeads (c.startMove i m cue) :=
  ((c.sameHeads_makeActive i _).trans (.of_pass (passFrame_post ..))).trans (sameHeads_recompute ..)

theorem sameHeads_answerRequest : c.SameHeads (c.answerRequest i) := by
  unfold answerRequest
  split
  · exact .refl c
  · exact c.sameHeads_startMove i _ _

theorem sameHeads_handOver (r : Option Slot) (j : Slot) : c.SameHeads (handOver r c j) := by
  unfold handOver
  split
  · exact c.sameHeads_answerRequest j
  · exact .of_pass (passFrame_handGrant c j)

theorem sameHeads_handOverUntold (m : Move) (j : Slot) : c.SameHeads (handOverUntold i m c j) := by
  unfold handOverUntold
  split
  · exact (c.sameHeads_makeActive j m).trans (sameHeads_recompute ..)
  · exact .of_pass (passFrame_handGrant c j)

theorem sameHeads_beginWait (w : Waiting) : c.SameHeads (c.beginWait i w) :=
  (SameHeads.of_pass (passFrame_post ..)).trans (sameHeads_recompute ..)

theorem sameHeads_settle : c.SameHeads c.settle := .of_pass (passFrame_settle c)

/-- A request changes nothing of a head but what it does. -/
theorem sameHeads_request (p : Planned) (cue : Option (BitVec 32)) (back : QueueEntry) :
    c.SameHeads (c.request i p cue back) := by
  unfold request
  split
  · exact (c.sameHeads_startMove i _ _).trans (sameHeads_settle _)
  · have passed := ((SameHeads.setActivity c i (.waitZone (c.asWaiting i p cue back))).trans
      (.of_pass (passFrame_judgePass _))).trans (.foldl (fun c j => c.sameHeads_handOver (some i) j)
        (c.setActivity i (.waitZone (c.asWaiting i p cue back))).judgePass.2 _)
    dsimp only
    split
    · exact passed.trans (sameHeads_settle _)
    · exact (passed.trans (sameHeads_beginWait ..)).trans (sameHeads_settle _)

theorem sameHeads_waitTold (w : Waiting) : c.SameHeads (c.waitTold i w) := by
  unfold waitTold
  dsimp only
  split
  · exact ((c.sameHeads_recompute i).trans (sameHeads_settle _)).trans (.of_pass (passFrame_post ..))
  · exact (c.sameHeads_beginWait i w).trans (sameHeads_settle _)

theorem sameHeads_requestTold (p : Planned) (back : QueueEntry) : c.SameHeads (c.requestTold i p back) := by
  unfold requestTold
  dsimp only
  split
  · exact (((c.sameHeads_makeActive i _).trans (sameHeads_recompute ..)).trans (sameHeads_settle _)).trans
      (.of_pass (passFrame_post ..))
  · have passed := ((SameHeads.setActivity c i (.waitZone (c.asWaiting i p none back))).trans
      (.of_pass (passFrame_judgePass _))).trans
        (.foldl (fun c j => c.sameHeads_handOverUntold i
          { p.move with flags := { p.move.flags with late := false } } j)
            (c.setActivity i (.waitZone (c.asWaiting i p none back))).judgePass.2 _)
    split
    · exact (passed.trans (sameHeads_settle _)).trans (.of_pass (passFrame_post ..))
    · exact passed.trans (sameHeads_waitTold ..)

/-! ### The grants of a pass (R124) -/

theorem judge_grants (a : Cm8 × ZoneSet × List Slot) (j : Slot) :
    (judge a j).2.2 = a.2.2 ∨ (judge a j).2.2 = a.2.2 ++ [j] := by
  unfold judge
  dsimp only
  split
  · exact .inl rfl
  · split
    · exact .inr rfl
    · exact .inl rfl

/-- Grants are candidates in the order of the candidates. -/
theorem foldl_judge_grants (l : List Slot) (a : Cm8 × ZoneSet × List Slot) :
    ∃ g, (l.foldl judge a).2.2 = a.2.2 ++ g ∧ g.Sublist l := by
  induction l generalizing a with
  | nil => exact ⟨[], (List.append_nil _).symm, .refl _⟩
  | cons j l ih =>
    obtain ⟨g, eq, sub⟩ := ih (judge a j)
    rw [List.foldl_cons, eq]
    rcases judge_grants a j with same | more
    · exact ⟨g, by rw [same], sub.cons j⟩
    · exact ⟨j :: g, by rw [more, List.append_assoc]; rfl, sub.cons_cons j⟩

/-- A pass grants a head at most once. -/
theorem nodup_grants : c.judgePass.2.Nodup := by
  rw [judgePass_grants]
  obtain ⟨g, eq, sub⟩ := foldl_judge_grants c.candidates
    ({ c with arbiter := { c.arbiter with released := false } }, 0#16, [])
  unfold judgements
  rw [eq]
  refine sub.nodup (c.pairwise_candidates.imp ?_)
  rintro x y order rfl
  rcases order with ⟨on, off⟩ | ⟨_, less⟩
  · exact Bool.noConfusion (on.symm.trans off)
  · exact lt_irrefl _ less

/-- A head that a pass grants holds every zone that it needs (R124). -/
theorem grant_holds {w : Waiting} (waits : (c.head i).activity = .waitZone w) (granted : i ∈ c.judgePass.2) :
    c.judgePass.1.HoldsAll i w.move.zones := by
  have judged (l : List Slot) (a : Cm8 × ZoneSet × List Slot) (same : (a.1.head i).activity = .waitZone w)
      (held : i ∈ a.2.2 → a.1.HoldsAll i w.move.zones) :
      i ∈ (l.foldl judge a).2.2 → (l.foldl judge a).1.HoldsAll i w.move.zones := by
    induction l generalizing a with
    | nil => exact held
    | cons j l ih =>
      rw [List.foldl_cons]
      refine ih _ (by rw [head_judge]; exact same) ?_
      unfold judge
      dsimp only
      split
      · exact held
      · rename_i v has
        split
        · rename_i ok
          intro mem z hz
          rcases List.mem_append.1 mem with before | last
          · exact holder_giveFree_of_some _ _ _ (held before z hz)
          · obtain rfl := List.mem_singleton.1 last
            rw [activity_of_waitingOf _ has] at same
            obtain rfl := Activity.waitZone.inj same
            have may := mayHave_all.1 ok z hz
            rcases may with mine | free
            · exact holder_giveFree_of_some _ _ _ mine
            · rw [holder_giveFree, if_pos ⟨hz, free.1⟩]
        · exact held
  intro z hz
  rw [holder_judgePass]
  refine judged c.candidates _ waits (fun none => absurd none List.not_mem_nil) ?_ z hz
  rw [judgePass_grants] at granted
  exact granted

/-! ### The hand-over of one grant -/

theorem apart_handGrant : Apart c (c.handGrant i) i := by
  unfold handGrant
  split
  · exact .refl i c
  · dsimp only
    split
    · exact (apart_post i c ..).trans (apart_startMove i _ _ _)
    · exact (apart_post i c ..).trans ((apart_dropMove i ..).trans
        ((apart_onHead i _ _).trans (apart_recompute i _)))

/-- The hand-over of a grant leaves the head waiting no longer, and the clock alone. -/
theorem clock_handGrant : (c.handGrant i).clock = c.clock := (passFrame_handGrant c i).clock

/-! ### The start of the requester (R119) -/

variable {c i}

/-- The head waits with the zones of its move granted. -/
def Awarded (c : Cm8) (i : Slot) (w : Waiting) (f : BitVec 32) : Prop :=
  (c.head i).activity = .waitZone w ∧ c.HoldsAll i w.move.zones ∧ c.clock.frame = f

/-- The head runs a move that holds its zones. -/
def Runs (c : Cm8) (i : Slot) (m : Move) : Prop :=
  (c.head i).activity = .moving m none ∧ c.HoldsAll i m.zones

theorem Runs.apart {d : Cm8} {m : Move} {j : Slot} (h : c.Runs i m) (k : Apart c d j) (ne : i ≠ j) : d.Runs i m :=
  ⟨(k.others i ne).1.trans h.1, fun z hz => (k.others i ne).2 z (h.2 z hz)⟩

theorem Awarded.handGrant {w : Waiting} {f : BitVec 32} {j : Slot} (h : c.Awarded i w f) (ne : i ≠ j) :
    (c.handGrant j).Awarded i w f := by
  obtain ⟨waits, holds, frame⟩ := h
  have k := (c.apart_handGrant j).others i ne
  exact ⟨k.1.trans waits, fun z hz => k.2 z (holds z hz), by rw [clock_handGrant]; exact frame⟩

theorem Runs.settle {m : Move} (h : c.Runs i m) : c.settle.Runs i m := by
  have still : (c.head i).activity.waiting = none := by
    rw [h.1]
    rfl
  exact ⟨((passFrame_settle c).still i still).trans h.1, (passFrame_settle c).holdsAll still h.2⟩

theorem Runs.post {m : Move} (h : c.Runs i m) (s : Option Slot) (t : Option Byte) (e : Event) :
    (c.post s t e).Runs i m :=
  ⟨by rw [head_post]; exact h.1, fun z hz => (holder_post ..).trans (h.2 z hz)⟩

/-- A move that becomes active with its zones held keeps them in the recomputation of its start. -/
theorem runs_makeActive {m : Move} (zones : c.HoldsAll i m.zones) : ((c.makeActive i m).recompute i).Runs i m := by
  have active : ((c.makeActive i m).head i).activity = .moving m none := by
    rw [show (c.makeActive i m).head i = _ from (turned_setActivity (c.skipMotion i) i _).head]
  refine ⟨by rw [head_recompute, active], fun z hz => holder_recompute_keeps _ _ _ ?_ (zones z hz)⟩
  unfold moveZones
  rw [active]
  exact hz

/-- Once the hand-overs of its pass come to the requester, its move runs. -/
theorem foldl_starts {step : Cm8 → Slot → Cm8} {w : Waiting} {f : BitVec 32} {m : Move}
    (starts : ∀ a : Cm8, a.Awarded i w f → (step a i).Runs i m)
    (again : ∀ a : Cm8, a.Runs i m → (step a i).Runs i m)
    (others : ∀ (a : Cm8) j, j ≠ i → step a j = a.handGrant j) (l : List Slot) (c : Cm8) :
    (c.Awarded i w f → i ∈ l → (l.foldl step c).Runs i m) ∧ (c.Runs i m → (l.foldl step c).Runs i m) := by
  induction l generalizing c with
  | nil => exact ⟨fun _ none => absurd none List.not_mem_nil, fun h => h⟩
  | cons j l ih =>
    rw [List.foldl_cons]
    by_cases same : j = i
    · subst same
      exact ⟨fun h _ => (ih _).2 (starts c h), fun h => (ih _).2 (again c h)⟩
    · rw [others c j same]
      exact ⟨fun h mem => (ih _).1 (h.handGrant (Ne.symm same)) ((List.mem_cons.1 mem).resolve_left (Ne.symm same)),
        fun h => (ih _).2 (h.apart (c.apart_handGrant j) (Ne.symm same))⟩

/-- Hand-overs to others leave the requester's wait alone. -/
theorem foldl_waits {w : Waiting} (l : List Slot) (c : Cm8) (absent : i ∉ l)
    (waits : (c.head i).activity = .waitZone w) : ((l.foldl handGrant c).head i).activity = .waitZone w := by
  induction l generalizing c with
  | nil => exact waits
  | cons j l ih =>
    rw [List.mem_cons, not_or] at absent
    obtain ⟨ne, rest⟩ := absent
    exact ih _ rest (((c.apart_handGrant j).others i ne).1.trans waits)

end Sys2Proof.Machine.Cm8
end

section
/-! PROOF. The rounds of a request for zones, told one by one (R55, R119). -/

namespace Sys2Proof.Machine.Cm8

/-! ### LATE and the waiting move -/

theorem lateBy_some (f y : BitVec 32) : lateBy f (some y) = decide (f ≠ y) := decide_eq_decide.2 ne_comm

variable {c : Cm8} {i : Slot}

/-- A move as it starts at the present frame (R54). -/
def startedAs (c : Cm8) (m : Move) (cue : Option (BitVec 32)) : Move :=
  { m with flags := { m.flags with late := lateBy c.frame cue } }

/-- The part in which the head waits with the move of a request, before the pass. -/
def waitingFor (c : Cm8) (i : Slot) (p : Planned) (cue : Option (BitVec 32)) (back : QueueEntry) : Cm8 :=
  c.setActivity i (.waitZone (c.asWaiting i p cue back))

theorem asWaiting_eq (p : Planned) (cue : Option (BitVec 32)) (back : QueueEntry) :
    c.asWaiting i p cue back = ⟨p.move, cue, p.requested, p.easeRequest, back, 0, decide (.timer i ∈ c.work)⟩ := by
  unfold asWaiting timerOutstanding
  rw [List.contains_eq_mem]

variable {p : Planned} {cue : Option (BitVec 32)} {back : QueueEntry}

theorem waitingFor_waits : ((c.waitingFor i p cue back).head i).activity =
    .waitZone (c.asWaiting i p cue back) := by
  rw [show (c.waitingFor i p cue back).head i = _ from (turned_setActivity ..).head]

/-- After the pass of a request the head waits still; granted, it holds its zones. -/
theorem judged_waits : ((c.waitingFor i p cue back).judgePass.1.head i).activity =
    .waitZone (c.asWaiting i p cue back) := by
  rw [head_judgePass, waitingFor_waits]

theorem judged_awarded (granted : i ∈ (c.waitingFor i p cue back).judgePass.2) :
    (c.waitingFor i p cue back).judgePass.1.Awarded i (c.asWaiting i p cue back) c.clock.frame :=
  ⟨judged_waits, grant_holds _ i waitingFor_waits granted, by
    rw [(passFrame_judgePass _).clock]
    rfl⟩

/-! ### A request (R119) -/

theorem request_free (free : p.move.zones = 0#16) : c.request i p cue back = ((((c.makeActive i
      (c.startedAs p.move cue)).postStarted i (c.startedAs p.move cue)).recompute i)).settle := if_pos free

theorem request_needs (needs : p.move.zones ≠ 0#16) : c.request i p cue back =
    (if (c.waitingFor i p cue back).judgePass.2.contains i then
      (c.waitingFor i p cue back).judgePass.2.foldl (handOver (some i)) (c.waitingFor i p cue back).judgePass.1
    else ((c.waitingFor i p cue back).judgePass.2.foldl (handOver (some i))
      (c.waitingFor i p cue back).judgePass.1).beginWait i (c.asWaiting i p cue back)).settle := if_neg needs

theorem requestTold_needs (needs : p.move.zones ≠ 0#16) : c.requestTold i p back =
    if (c.waitingFor i p none back).judgePass.2.contains i then
      (((c.waitingFor i p none back).judgePass.2.foldl (handOverUntold i (c.startedAs p.move none))
        (c.waitingFor i p none back).judgePass.1).settle).postStarted i (c.startedAs p.move none)
    else ((c.waitingFor i p none back).judgePass.2.foldl (handOverUntold i (c.startedAs p.move none))
      (c.waitingFor i p none back).judgePass.1).waitTold i (c.asWaiting i p none back) := if_neg needs

/-- One hand-over of a request's pass: the requester's start, told, or another head's grant. -/
def requestStep (i : Slot) (m : Move) (a : Cm8) (j : Slot) : Cm8 :=
  if j = i then ((a.makeActive i m).postStarted i m).recompute i else a.handGrant j

/-- The same with the requester's record left for later. -/
def requestStepUntold (i : Slot) (m : Move) (a : Cm8) (j : Slot) : Cm8 :=
  if j = i then (a.makeActive i m).recompute i else a.handGrant j

theorem runs_told {m : Move} (zones : c.HoldsAll i m.zones) :
    (((c.makeActive i m).postStarted i m).recompute i).Runs i m := by
  have active : (((c.makeActive i m).postStarted i m).head i).activity = .moving m none := by
    rw [show ((c.makeActive i m).postStarted i m).head i = (c.makeActive i m).head i from head_post ..,
      show (c.makeActive i m).head i = _ from (turned_setActivity (c.skipMotion i) i _).head]
  refine ⟨by rw [head_recompute, active], fun z hz => holder_recompute_keeps _ _ _ ?_
    ((holder_post ..).trans (zones z hz))⟩
  unfold moveZones
  rw [active]
  exact hz

/-- The hand-overs of the pass, written out: each grant comes once. -/
theorem foldl_handOver_requester {w : Waiting} {f : BitVec 32} (l : List Slot) (c : Cm8) (once : l.Nodup)
    (waits : i ∈ l → (c.head i).activity = .waitZone w) (frame : c.clock.frame = f) :
    l.foldl (handOver (some i)) c = l.foldl (requestStep i
      { w.move with flags := { w.move.flags with late := lateBy f w.cue } }) c := by
  induction l generalizing c with
  | nil => rfl
  | cons j l ih =>
    obtain ⟨fresh, once⟩ := List.nodup_cons.1 once
    rw [List.foldl_cons, List.foldl_cons]
    by_cases same : j = i
    · subst same
      have waiting := waits (List.mem_cons_self ..)
      have step : handOver (some j) c j = requestStep j
          { w.move with flags := { w.move.flags with late := lateBy f w.cue } } c j := by
        unfold handOver requestStep answerRequest waitingOf
        rw [if_pos rfl, if_pos rfl, waiting, ← frame]
        rfl
      rw [step]
      refine ih _ once (fun mem => absurd mem fresh) ?_
      unfold requestStep
      rw [if_pos rfl]
      rw [clock_recompute]
      unfold postStarted
      rw [clock_post]
      exact frame
    · have left : handOver (some i) c j = c.handGrant j := if_neg fun e => same (Option.some.inj e).symm
      have right : requestStep i { w.move with flags := { w.move.flags with late := lateBy f w.cue } } c j =
          c.handGrant j := if_neg same
      rw [left, right]
      refine ih _ once (fun mem => ?_) (by rw [clock_handGrant]; exact frame)
      exact ((c.apart_handGrant j).others i (Ne.symm same)).1.trans (waits (List.mem_cons_of_mem _ mem))

theorem foldl_handOver_absent (l : List Slot) (c : Cm8) (absent : i ∉ l) :
    l.foldl (handOver (some i)) c = l.foldl handGrant c := by
  induction l generalizing c with
  | nil => rfl
  | cons j l ih =>
    rw [List.mem_cons, not_or] at absent
    have left : handOver (some i) c j = c.handGrant j := if_neg fun e => absent.1 (Option.some.inj e)
    rw [List.foldl_cons, List.foldl_cons, ih _ absent.2, left]

/-- A request that its own pass grants: the move runs with its zones, told as it starts. -/
theorem request_granted (needs : p.move.zones ≠ 0#16) (granted : i ∈ (c.waitingFor i p cue back).judgePass.2) :
    c.request i p cue back = ((c.waitingFor i p cue back).judgePass.2.foldl
      (requestStep i (c.startedAs p.move cue)) (c.waitingFor i p cue back).judgePass.1).settle ∧
    (c.request i p cue back).Runs i (c.startedAs p.move cue) := by
  have eq : c.request i p cue back = ((c.waitingFor i p cue back).judgePass.2.foldl
      (requestStep i (c.startedAs p.move cue)) (c.waitingFor i p cue back).judgePass.1).settle := by
    rw [request_needs needs, if_pos (List.contains_iff_mem.2 granted),
      foldl_handOver_requester _ _ (nodup_grants _) (fun _ => judged_waits) (judged_awarded granted).2.2]
    rfl
  refine ⟨eq, eq ▸ Runs.settle ?_⟩
  refine (foldl_starts (fun a h => ?_) (fun a h => ?_) (fun a j ne => if_neg ne) _ _).1
    (judged_awarded granted) granted
  · rw [if_pos rfl]
    exact runs_told h.2.1
  · rw [if_pos rfl]
    exact runs_told h.2

/-- A request that waits. -/
theorem request_waits (needs : p.move.zones ≠ 0#16) (refused : i ∉ (c.waitingFor i p cue back).judgePass.2) :
    c.request i p cue back = (((((c.waitingFor i p cue back).judgePass.2.foldl handGrant
      (c.waitingFor i p cue back).judgePass.1).beginWait i (c.asWaiting i p cue back)))).settle := by
  rw [request_needs needs, if_neg fun h => refused (List.contains_iff_mem.1 h), foldl_handOver_absent _ _ refused]

theorem others_wait (refused : i ∉ (c.waitingFor i p cue back).judgePass.2) :
    (((c.waitingFor i p cue back).judgePass.2.foldl handGrant
      (c.waitingFor i p cue back).judgePass.1).head i).activity = .waitZone (c.asWaiting i p cue back) :=
  foldl_waits _ _ refused judged_waits

/-! ### The request of a REPLACE (R55) -/

theorem requestTold_free (free : p.move.zones = 0#16) : c.requestTold i p back = (((c.makeActive i
      (c.startedAs p.move none)).recompute i).settle).postStarted i (c.startedAs p.move none) := if_pos free

theorem foldl_untold (m : Move) (l : List Slot) (c : Cm8) :
    l.foldl (handOverUntold i m) c = l.foldl (requestStepUntold i m) c := by
  have same : handOverUntold i m = requestStepUntold i m := by
    funext a j
    unfold handOverUntold requestStepUntold
    by_cases own : i = j
    · rw [if_pos own, if_pos own.symm, own]
    · rw [if_neg own, if_neg (Ne.symm own)]
  rw [same]

theorem foldl_untold_absent (m : Move) (l : List Slot) (c : Cm8) (absent : i ∉ l) :
    l.foldl (handOverUntold i m) c = l.foldl handGrant c := by
  induction l generalizing c with
  | nil => rfl
  | cons j l ih =>
    rw [List.mem_cons, not_or] at absent
    have left : handOverUntold i m c j = c.handGrant j := if_neg absent.1
    rw [List.foldl_cons, List.foldl_cons, ih _ absent.2, left]

theorem requestTold_granted (needs : p.move.zones ≠ 0#16)
    (granted : i ∈ (c.waitingFor i p none back).judgePass.2) :
    c.requestTold i p back = (((c.waitingFor i p none back).judgePass.2.foldl
      (requestStepUntold i (c.startedAs p.move none)) (c.waitingFor i p none back).judgePass.1).settle).postStarted i
        (c.startedAs p.move none) ∧
    (c.requestTold i p back).Runs i (c.startedAs p.move none) := by
  have eq : c.requestTold i p back = (((c.waitingFor i p none back).judgePass.2.foldl
      (requestStepUntold i (c.startedAs p.move none)) (c.waitingFor i p none back).judgePass.1).settle).postStarted i
        (c.startedAs p.move none) := by
    rw [requestTold_needs needs, if_pos (List.contains_iff_mem.2 granted), foldl_untold]
  refine ⟨eq, eq ▸ Runs.post (Runs.settle ?_) ..⟩
  refine (foldl_starts (fun a h => ?_) (fun a h => ?_) (fun a j ne => if_neg ne) _ _).1
    (judged_awarded granted) granted
  · rw [if_pos rfl]
    exact runs_makeActive h.2.1
  · rw [if_pos rfl]
    exact runs_makeActive h.2

theorem requestTold_waits (needs : p.move.zones ≠ 0#16)
    (refused : i ∉ (c.waitingFor i p none back).judgePass.2) :
    c.requestTold i p back = ((c.waitingFor i p none back).judgePass.2.foldl handGrant
      (c.waitingFor i p none back).judgePass.1).waitTold i (c.asWaiting i p none back) := by
  rw [requestTold_needs needs, if_neg fun h => refused (List.contains_iff_mem.1 h), foldl_untold_absent _ _ _ refused]

/-- Told after all, or before the pass that grants it (log entry 33). -/
theorem waitTold_cases {w : Waiting} (waits : (c.head i).activity = .waitZone w) :
    ((((c.recompute i).settle.head i).activity = .waitZone w) → c.waitTold i w =
      ((c.recompute i).settle).post (some i) w.move.tag (.zoneWait w.move.zones)) ∧
    ((((c.recompute i).settle.head i).activity ≠ .waitZone w) → c.waitTold i w = (c.beginWait i w).settle) := by
  unfold waitTold
  dsimp only
  refine ⟨fun still => if_pos ?_, fun gone => if_neg ?_⟩
  · unfold waitingOf
    rw [still]
    rfl
  · have after := (c.recompute i).afterPass_settle i
    rw [head_recompute, waits] at after
    unfold waitingOf
    rcases after with same | ⟨_, ⟨n, moves⟩ | free⟩
    · exact absurd same gone
    · rw [moves]
      nofun
    · rcases (Activity.isFree_iff _).1 free with h | h <;> rw [h] <;> nofun

end Sys2Proof.Machine.Cm8
end

section
/-! PROOF. The queue at a tick, and the ends of waits (O50, O60). -/

namespace Sys2Proof.Machine.Cm8

variable {c : Cm8} {i : Slot}

/-! ### A move that takes over the head (R55, R57) -/

/-- A taking-over with the records of what it displaces. -/
theorem overrideWith_taken (m : Move) : c.TakenOver (c.overrideWith i m) i m none (c.head i).queue
    (displacedRecords i (c.head i).activity) := by
  have displaced := c.turned_dropDisplaced i
  refine ⟨(c.dropDisplaced i).taken i m none, ?_, rfl⟩
  refine ((displaced.trans (turned_taken _ i m none)).records (List.append_nil _)).headAs ?_
  rw [displaced.head]

theorem head_overrideWith (m : Move) :
    (c.overrideWith i m).head i = { c.head i with activity := .moving m none } := by
  unfold overrideWith postStarted
  rw [head_post, head_takeOver, (c.turned_dropDisplaced i).head]

theorem overrideWith_holds {m : Move}
    (free : ∀ z : Zone, m.zones.getLsbD z.val = true → c.holder z = none ∨ c.holder z = some i) :
    (c.overrideWith i m).HoldsAll i m.zones := by
  have displaced := c.turned_dropDisplaced i
  have held := takeOver_holds (c := c.dropDisplaced i) (i := i) (m := m) none fun z hz => by
    rw [displaced.holder_eq]
    exact free z hz
  exact fun z hz => (holder_post ..).trans (held z hz)

/-! ### The head entry acts (R51 to R57) -/

theorem takeEntry_eq {e : QueueEntry} {rest : List QueueEntry} (queue : (c.head i).queue = e :: rest) :
    c.takeEntry i = c.setQueue i rest := by
  show c.onHead i (fun h => { h with queue := h.queue.drop 1 }) = c.onHead i fun h => { h with queue := rest }
  unfold onHead
  dsimp only
  rw [queue]
  rfl

theorem startEntry_ok {e : QueueEntry} {p : Planned}
    (made : (c.takeEntry i).planEntry i ((c.takeEntry i).head i).restStart e = .ok p) :
    c.startEntry i e = (c.takeEntry i).request i p e.cue { e with rule := .after, cue := none } := by
  unfold startEntry
  dsimp only
  rw [made]

theorem startEntry_error {e : QueueEntry} {why : DropReason}
    (failed : (c.takeEntry i).planEntry i ((c.takeEntry i).head i).restStart e = .error why) :
    c.startEntry i e = ((c.takeEntry i).dropEntry i e why).toFree i := by
  unfold startEntry
  dsimp only
  rw [failed]

theorem cuedReplace_error {e : QueueEntry} {why : DropReason}
    (failed : (c.takeEntry i).planEntry i ((c.takeEntry i).overStart i) e = .error why) :
    c.cuedReplace i e = ((c.takeEntry i).dropEntry i e why).refresh i := by
  unfold cuedReplace
  dsimp only
  rw [failed]

theorem cuedReplace_ok {e : QueueEntry} {p : Planned}
    (made : (c.takeEntry i).planEntry i ((c.takeEntry i).overStart i) e = .ok p) : c.cuedReplace i e =
      if (c.takeEntry i).obtainable i p.move.zones then
        (c.takeEntry i).overrideWith i (startedAs (c.takeEntry i) p.move e.cue)
      else ((c.takeEntry i).dropEntry i e .zoneBusy).refresh i := by
  unfold cuedReplace
  dsimp only
  rw [made]
  rfl

/-- A due head entry at the front of the work acts by its start rule. -/
theorem takeQueue_acts {e : QueueEntry} {ws : List Work} (work : c.work = .queue i :: ws)
    (moved : .motion i ∉ ws) (acts : c.actingEntry i = some e) :
    c.takeQueue e.rule i = (({ c with work := ws }.queueStep i).advance).chooseIdle := by
  refine takeQueue_front c i e.rule work moved ?_
  unfold actsBy
  rw [acts]
  simp

theorem queueStep_after {e : QueueEntry} (acts : c.actingEntry i = some e) (rule : e.rule = .after) :
    c.queueStep i = c.startEntry i e := by
  unfold queueStep
  rw [acts]
  dsimp only
  rw [rule]

theorem queueStep_cued {e : QueueEntry} (acts : c.actingEntry i = some e) (rule : e.rule = .cuedReplace) :
    c.queueStep i = c.cuedReplace i e := by
  unfold queueStep
  rw [acts]
  dsimp only
  rw [rule]

/-! ### Waits (R75, R120, R125) -/

theorem timerStep_timeout {w : Waiting} (waits : (c.head i).activity = .waitZone w) (fresh : w.fresh = false)
    (late : c.policy.waitTimeout ≤ w.timer + 1) :
    c.timerStep i = (c.dropMove i w.move .zoneTimeout).restFree i := by
  have waiting : c.waitingOf i = some w := by
    unfold waitingOf
    rw [waits]
    rfl
  unfold timerStep
  rw [waiting]
  dsimp only
  rw [if_neg (by rw [fresh]; exact Bool.false_ne_true), if_pos late]

/-- The part after ZONE_GRANTED is told. -/
def grantTold (c : Cm8) (i : Slot) (w : Waiting) : Cm8 :=
  c.post (some i) w.move.tag (.zoneGranted w.move.zones w.timer)

theorem handGrant_starts {w : Waiting} {m : Move} (waits : (c.head i).activity = .waitZone w)
    (check : (c.grantTold i w).grantCheck i w = some m) :
    c.handGrant i = (c.grantTold i w).startMove i m w.cue := by
  have waiting : c.waitingOf i = some w := by
    unfold waitingOf
    rw [waits]
    rfl
  unfold grantTold at check ⊢
  unfold handGrant
  rw [waiting]
  dsimp only
  rw [check]

theorem handGrant_blocked {w : Waiting} (waits : (c.head i).activity = .waitZone w)
    (check : (c.grantTold i w).grantCheck i w = none) :
    c.handGrant i = (((c.grantTold i w).dropMove i w.move .onAir).toFree i).recompute i := by
  have waiting : c.waitingOf i = some w := by
    unfold waitingOf
    rw [waits]
    rfl
  unfold grantTold at check ⊢
  unfold handGrant
  rw [waiting]
  dsimp only
  rw [check]

section
variable {w : Waiting}

theorem grantCheck_offAir (off : (c.head i).tally = false) : c.grantCheck i w = some w.move :=
  if_neg (Bool.eq_false_iff.1 off)

theorem grantCheck_block (on : (c.head i).tally = true) (swift : w.move.profile = some .swift)
    (block : c.policy.onAir = .block) : c.grantCheck i w = none := by
  unfold grantCheck
  rw [if_pos on, swift, block]

theorem grantCheck_soften (on : (c.head i).tally = true) (swift : w.move.profile = some .swift)
    (soften : c.policy.onAir = .soften) : c.grantCheck i w = some { w.move with
      profile := some .ease, d := max w.move.d (max c.policy.minimum w.easeRequest),
      flags := { w.move.flags with
        softened := true
        stretched := decide (w.easeRequest < max w.move.d (max c.policy.minimum w.easeRequest)) } } := by
  unfold grantCheck
  rw [if_pos on, swift, soften]

theorem grantCheck_slow (on : (c.head i).tally = true) (slow : w.move.profile ≠ some .swift) :
    c.grantCheck i w = some { w.move with
      d := max w.move.d c.policy.minimum,
      flags := { w.move.flags with
        stretched := decide (w.requested < max w.move.d c.policy.minimum) } } := by
  unfold grantCheck
  rw [if_pos on]
  split
  · rename_i swift _
    exact absurd swift slow
  · rename_i swift _
    exact absurd swift slow
  · rfl

end

/-- The pass of a tick taken ahead of motion and queue work (R128). -/
theorem passAhead_eq (pass : .pass ∈ c.work) (settled : .settle ∉ c.work)
    (owed : ∀ j, .timer j ∉ c.work ∧ .handover j ∉ c.work) :
    c.passAhead = { c with work := c.work.erase .pass }.runWork .pass := by
  have closed : c.closePass = c := by
    cases work : c.work with
    | nil => rw [work] at pass; nomatch pass
    | cons w ws =>
      refine c.closePass_of_front _ _ work (fun same => ?_) ?_
      · exact settled (by rw [work, same]; exact List.mem_cons_self ..)
      · cases w with
        | handover j => exact absurd (by rw [work]; exact List.mem_cons_self ..) (owed j).2
        | _ => rfl
  have timed (l : List Slot) : l.foldl afterTimer c = c := by
    induction l with
    | nil => rfl
    | cons j l ih =>
      have step : c.afterTimer j = c := if_neg fun h => (owed j).1 (List.contains_iff_mem.1 h)
      rw [List.foldl_cons, step, ih]
  unfold passAhead
  dsimp only
  rw [closed, timed, if_pos (List.contains_iff_mem.2 pass)]
  rfl

theorem zoneGranted_ahead {ws : List Work} (absent : .handover i ∉ c.work)
    (ahead : c.passAhead.work = .handover i :: ws) :
    c.zoneGranted i = (({ c.passAhead with work := ws }.handGrant i).advance).chooseIdle := by
  obtain ⟨n, hn⟩ := weight_pos (.handover i) ws
  unfold zoneGranted
  dsimp only
  rw [if_neg fun h => absent (List.contains_iff_mem.1 h)]
  generalize c.passAhead = d at ahead ⊢
  have handed : { d with work := ws }.runWork (.handover i) = { d with work := ws }.handGrant i := rfl
  rw [← handed]
  simp [ahead, hn, handUpTo, runFront]

end Sys2Proof.Machine.Cm8
end

section
/-! PROOF. QUEUE_ENTRY_START, CUED_REPLACE_ACTS, ZONE_WAIT_TIMEOUT and ZONE_GRANTED (O50, O60). -/

namespace Sys2Proof.Machine.Cm8

variable {c : Cm8} {i : Slot}

/-- ZONE_GRANTED with the start of the granted move, and what the head does then. -/
theorem handGrant_startMove {w : Waiting} {m : Move} (waits : (c.head i).activity = .waitZone w)
    (check : (c.grantTold i w).grantCheck i w = some m) :
    c.handGrant i = ((((c.grantTold i w).makeActive i
      (startedAs (c.grantTold i w) m w.cue)).postStarted i (startedAs (c.grantTold i w) m w.cue)).recompute i) ∧
    ((c.handGrant i).head i).activity = .moving (startedAs (c.grantTold i w) m w.cue) none := by
  have eq := handGrant_starts waits check
  refine ⟨eq, ?_⟩
  rw [eq]
  exact startMove_moves ..

theorem startedAs_told (w : Waiting) (m : Move) :
    startedAs (c.grantTold i w) m w.cue = startedAs c m w.cue := by
  unfold startedAs grantTold frame
  rw [clock_post]

theorem head_grantTold (w : Waiting) : (c.grantTold i w).head i = c.head i := head_post ..

theorem policy_grantTold (w : Waiting) : (c.grantTold i w).policy = c.policy := policy_post ..

end Sys2Proof.Machine.Cm8

namespace Sys2Proof

open Sys2Proof.Machine Sys2Proof.Machine.Cm8

/-- Settles O50. -/
theorem queueEntriesStart : Obligations.QueueEntriesStart := by
  unfold Obligations.QueueEntriesStart
  refine ⟨?_, ?_⟩
  · intro s i e rest ws work queue rule free due moved c
    have acts : s.part.actingEntry i = some e :=
      (actingEntry_eq_some ..).2 ⟨by rw [queue]; rfl, (cueReady_iff ..).2 due,
        free.imp_right fun h => .inl h⟩
    have taken : { s.part with work := ws }.takeEntry i = c := takeEntry_eq queue
    have row : s.part.takeQueue .after i = ({ s.part with work := ws }.startEntry i e).advance.chooseIdle := by
      rw [← rule, takeQueue_acts work moved acts]
      exact congrArg (fun d : Cm8 => d.advance.chooseIdle) (queueStep_after acts rule)
    refine ⟨fun p made => ?_, fun why failed => ?_⟩
    · show Host.Outcome.next { s with part := s.part.takeQueue .after i } = _
      rw [row, startEntry_ok (by rw [taken]; exact made), taken]
    · show Host.Outcome.next { s with part := s.part.takeQueue .after i } = _
      rw [row, startEntry_error (by rw [taken]; exact failed), taken]
      rfl
  · intro s i e rest cue ws work queue rule hcue come moved state c dropped
    have acts : s.part.actingEntry i = some e := by
      refine (actingEntry_eq_some ..).2 ⟨by rw [queue]; rfl, (cueReady_iff ..).2 fun x same => ?_, ?_⟩
      · rw [hcue] at same
        exact Option.some.inj same ▸ come
      · exact state.imp_right fun h => h.imp_right fun h => ⟨rule, h⟩
    have taken : { s.part with work := ws }.takeEntry i = c := takeEntry_eq queue
    have row : s.part.takeQueue .cuedReplace i = ({ s.part with work := ws }.cuedReplace i e).advance.chooseIdle := by
      rw [← rule, takeQueue_acts work moved acts]
      exact congrArg (fun d : Cm8 => d.advance.chooseIdle) (queueStep_cued acts rule)
    have step {d : Cm8} (eq : { s.part with work := ws }.cuedReplace i e = d) :
        exec (.cuedReplaceActs i) s = .next { s with part := d.advance.chooseIdle } := by
      show Host.Outcome.next { s with part := s.part.takeQueue .cuedReplace i } = _
      rw [row, eq]
    have head : c.head i = { s.part.head i with queue := rest } := (turned_setQueue ..).head
    refine ⟨fun p made => ⟨fun free => ?_, fun busy => ?_⟩, fun why failed => ?_⟩
    · intro m d
      have started : startedAs c p.move e.cue = m := by
        unfold startedAs
        rw [hcue, lateBy_some]
        rfl
      have takes : { s.part with work := ws }.cuedReplace i e = d := by
        rw [cuedReplace_ok (by rw [taken]; exact made), taken, if_pos ((obtainable_iff ..).2 free), started]
      have told := overrideWith_taken (c := c) (i := i) m
      rw [show (c.head i).queue = rest by rw [head]] at told
      exact ⟨step takes, by rw [head_overrideWith], overrideWith_holds free, told⟩
    · refine step ?_
      rw [cuedReplace_ok (by rw [taken]; exact made), taken,
        if_neg (Bool.eq_false_iff.1 ((obtainable_false_iff ..).2 busy))]
      rfl
    · refine step ?_
      rw [cuedReplace_error (by rw [taken]; exact failed), taken]
      rfl

/-- Settles O60. -/
theorem waitsEndByTimeoutOrGrant : Obligations.WaitsEndByTimeoutOrGrant := by
  unfold Obligations.WaitsEndByTimeoutOrGrant
  refine ⟨?_, ?_, ?_⟩
  · intro s i w ws work waits fresh late c d
    have due : s.part.timeoutDue i = true := (timeoutDue_iff ..).2 ⟨w, waits, fresh, late⟩
    have row : s.part.takeEvent (.timer i) (fun c => c.timeoutDue i) = d.advance.chooseIdle := by
      rw [takeEvent_due _ work rfl nofun due]
      exact congrArg (fun d : Cm8 => d.advance.chooseIdle) (timerStep_timeout (c := c) waits fresh late)
    have dropped := c.turned_dropMove i w.move .zoneTimeout
    refine ⟨?_, ?_, fun z => ?_, fun runs => if_neg runs⟩
    · show Host.Outcome.next { s with part := s.part.takeEvent (.timer i) _ } = _
      rw [row]
    · rw [head_restFree, dropped.rest.1, dropped.head]
    · rw [holder_restFree, dropped.holder_eq, residentZones_congr dropped.rest.2.2.2.1 (by rw [dropped.head])
        (by rw [dropped.head])]
  · intro s i w ws work waits c m
    have waiting : (c.head i).activity = .waitZone w := waits
    have late (n : Move) : startedAs (c.grantTold i w) n w.cue =
        { n with flags := { n.flags with late := lateBy c.clock.frame w.cue } } := startedAs_told w n
    have started : m = { w.move with flags := { w.move.flags with late := lateBy c.clock.frame w.cue } } := by
      refine congrArg (fun b => ({ w.move with flags := { w.move.flags with late := b } } : Move)) ?_
      cases w.cue with
      | none => rfl
      | some x => exact (lateBy_some ..).symm
    clear_value m
    subst started
    refine ⟨?_, fun off => ?_, fun on => ?_⟩
    · show Host.Outcome.next { s with part := s.part.zoneGranted i } = _
      rw [zoneGranted_front _ _ work]
      rfl
    · have handed := handGrant_startMove waiting (grantCheck_offAir (by rw [head_grantTold]; exact off))
      rw [late] at handed
      exact handed
    · intro told starts
      have on' : ((c.grantTold i w).head i).tally = true := by
        rw [head_grantTold]
        exact on
      refine ⟨fun swift block running => ?_, fun swift soften => ?_, fun slow => ?_⟩
      · have handed := handGrant_blocked waiting
          (grantCheck_block on' swift (by rw [policy_grantTold]; exact block))
        have dropped : (c.grantTold i w).dropMove i w.move .onAir =
          told.post (some i) w.move.tag (.moveDropped w.move.source .onAir) := if_neg running
        rw [dropped] at handed
        refine ⟨handed, ?_⟩
        have freed := ((c.turned_post i (some i) w.move.tag (.zoneGranted w.move.zones w.timer)).trans
          (turned_post _ i (some i) w.move.tag (.moveDropped w.move.source .onAir))).trans (turned_toFree _ i)
        rw [handed, head_recompute, freed.head, head_post, head_post, clock_post, clock_post]
      · intro d
        have handed := handGrant_startMove waiting
          (grantCheck_soften on' swift (by rw [policy_grantTold]; exact soften))
        rw [late, policy_grantTold] at handed
        exact handed
      · intro d
        have handed := handGrant_startMove waiting (grantCheck_slow on' slow)
        rw [late, policy_grantTold] at handed
        exact handed
  · intro s i rest pass settled owed c grants
    have ahead : s.part.passAhead = { c.judgePass.1 with
        work := .handover i :: (rest.map Work.handover ++ .settle :: c.work) } := by
      rw [passAhead_eq pass settled owed, runWork_pass, grants]
      rfl
    show Host.Outcome.next { s with part := s.part.zoneGranted i } = _
    rw [zoneGranted_ahead (owed i).2 (by rw [ahead]), ahead]

end Sys2Proof
end

section
/-! PROOF. The end of a move, and the resumption of a held one (O51). -/

namespace Sys2Proof.Machine

namespace Cm8

variable (c : Cm8) (i : Slot)

/-! ### Resumption (R73) -/

/-- A request that needs no zone starts its move. -/
theorem request_free_runs {c : Cm8} {i : Slot} {p : Planned} {cue : Option (BitVec 32)} {back : QueueEntry}
    (free : p.move.zones = 0#16) : (c.request i p cue back).Runs i (c.startedAs p.move cue) := by
  have zones : c.HoldsAll i (c.startedAs p.move cue).zones := by
    rw [show (c.startedAs p.move cue).zones = 0#16 from free]
    exact holdsAll_zero i c
  rw [request_free free]
  exact (runs_told zones).settle

theorem isHalted_freeActivity (f : BitVec 32) (q : List QueueEntry) : (freeActivity f q).isHalted = false := by
  rcases (Activity.isFree_iff _).1 (freeActivity_isFree f q) with h | h <;> rw [h] <;> rfl

theorem resume_error {x : Held} {why : DropReason} (failed : c.planResume i x = .error why) :
    c.resume i x = (c.dropHeld i x why).restFree i := by
  unfold resume
  rw [failed]

/-- The part after MOVE_RESUMED is told, the head free for the request. -/
def resumed (x : Held) (p : Planned) : Cm8 :=
  (c.onHead i fun h => { h with resumptions := (c.head i).resumptions + 1#16, activity := .idle }).post (some i)
    x.tag (.moveResumed x.source p.move.d p.move.flags ((c.head i).resumptions + 1#16))

theorem resume_ok {x : Held} {p : Planned} (ok : c.planResume i x = .ok p) : c.resume i x =
    (c.resumed i x p).request i p none ((c.resumed i x p).backOfHeld i x) := by
  unfold resume
  rw [ok]
  rfl

theorem head_resumed (x : Held) (p : Planned) : (c.resumed i x p).head i =
    { c.head i with resumptions := (c.head i).resumptions + 1#16, activity := .idle } := by
  unfold resumed
  rw [head_post]
  exact (turned_onHead ..).head

theorem backOfHeld_resumed (x : Held) (p : Planned) :
    (c.resumed i x p).backOfHeld i x = c.backOfHeld i x := by
  unfold backOfHeld
  rw [head_resumed]
  rfl

/-- A resumption leaves the setpoints that the tick has made. -/
theorem setpoint_resume (x : Held) : ((c.resume i x).head i).setpoint = (c.head i).setpoint ∧
    ((c.resume i x).head i).previous = (c.head i).previous := by
  cases plan : c.planResume i x with
  | error why =>
    rw [resume_error c i plan, head_restFree]
    unfold dropHeld
    rw [head_post]
    exact ⟨rfl, rfl⟩
  | ok p =>
    obtain ⟨a, same⟩ := ((c.resumed i x p).sameHeads_request i p none
      ((c.resumed i x p).backOfHeld i x)).head i
    rw [resume_ok c i plan, same, head_resumed]
    exact ⟨rfl, rfl⟩

/-! ### Completion (R68) -/

/-- A head's record with the setpoint of a tick of its move. -/
theorem setpoint_evaluate (h : Head) (m : Move) (a : Axis) :
    (h.evaluate m).setpoint.get a = (if h.configured a = true then h.pathPoint m m.k a else h.setpoint.get a) ∧
    (h.evaluate m).previous.get a = if h.configured a = true then h.setpoint.get a else h.previous.get a :=
  ⟨PerAxis.get_gen .., PerAxis.get_gen ..⟩

/-- The part with the setpoint of the tick made, and the move at its next tick. -/
def evaluated (m : Move) (held : Option Held) : Cm8 :=
  c.onHead i fun h => { h.evaluate { m with k := m.k + 1 } with activity := .moving { m with k := m.k + 1 } held }

theorem head_evaluated (m : Move) (held : Option Held) : (c.evaluated i m held).head i =
    { (c.head i).evaluate { m with k := m.k + 1 } with activity := .moving { m with k := m.k + 1 } held } :=
  (turned_onHead ..).head

theorem moveTick_runs {m : Move} (held : Option Held) (runs : m.k + 1 < m.d) :
    c.moveTick i m held = c.evaluated i m held := if_neg (Nat.not_le.2 runs)

theorem moveTick_ends {m : Move} (held : Option Held) (ends : m.d ≤ m.k + 1) : c.moveTick i m held =
    ((c.evaluated i m held).skipQueue i).complete i { m with k := m.k + 1 } held := if_pos ends

/-- The record of the end of a move; a stop move has none (R68, R80). -/
def doneRecords (i : Slot) (m : Move) : List (Option Slot × Option Byte × Event) :=
  if m.cls = .stop then [] else [(some i, m.tag, .moveDone m.source)]

/-- The part after the end of a move is told. -/
def doneTold (m : Move) : Cm8 := if m.cls = .stop then c else c.post (some i) m.tag (.moveDone m.source)

theorem turned_doneTold (m : Move) : c.Turned (c.doneTold i m) i (c.head i) 0#16 (doneRecords i m) := by
  unfold doneTold doneRecords
  split
  · exact .refl c i
  · exact turned_post ..

theorem complete_free (m : Move) : c.complete i m none = (c.doneTold i m).restFree i := rfl

theorem complete_held (m : Move) (x : Held) : c.complete i m (some x) = (c.doneTold i m).resume i x := rfl

theorem setpoint_complete (m : Move) (held : Option Held) :
    ((c.complete i m held).head i).setpoint = (c.head i).setpoint ∧
      ((c.complete i m held).head i).previous = (c.head i).previous := by
  have told := (c.turned_doneTold i m).head
  cases held with
  | none =>
    rw [complete_free, head_restFree, told]
    exact ⟨rfl, rfl⟩
  | some x =>
    rw [complete_held, (setpoint_resume ..).1, (setpoint_resume ..).2, told]
    exact ⟨rfl, rfl⟩

/-- Every tick of a move makes its setpoint, also the last one. -/
theorem setpoint_moveTick (m : Move) (held : Option Held) :
    ((c.moveTick i m held).head i).setpoint = ((c.head i).evaluate { m with k := m.k + 1 }).setpoint ∧
      ((c.moveTick i m held).head i).previous = ((c.head i).evaluate { m with k := m.k + 1 }).previous := by
  rcases Nat.lt_or_ge (m.k + 1) m.d with runs | ends
  · rw [moveTick_runs c i held runs, head_evaluated]
    exact ⟨rfl, rfl⟩
  · rw [moveTick_ends c i held ends, (setpoint_complete ..).1, (setpoint_complete ..).2]
    rw [show ((c.evaluated i m held).skipQueue i).head i = (c.evaluated i m held).head i from rfl, head_evaluated]
    exact ⟨rfl, rfl⟩

theorem motionStep_moving {m : Move} {held : Option Held} (moves : (c.head i).activity = .moving m held) :
    c.motionStep i = c.moveTick i m held := by
  unfold motionStep
  rw [moves]

end Cm8

end Sys2Proof.Machine

namespace Sys2Proof

open Sys2Proof.Machine Sys2Proof.Machine.Cm8

/-- Settles O51. -/
theorem moveCompletionEndsMove : Obligations.MoveCompletionEndsMove := by
  unfold Obligations.MoveCompletionEndsMove
  refine ⟨?_, ?_, ?_, ?_, ?_⟩
  · intro s i m held ws work moves ends
    have due : s.part.completionDue i = true := (completionDue_iff ..).2 ⟨m, held, moves, ends⟩
    have row : s.part.takeEvent (.motion i) (fun c => c.completionDue i) =
        ({ s.part with work := ws }.moveTick i m held).advance.chooseIdle := by
      rw [takeEvent_due _ work rfl nofun due]
      exact congrArg (fun d : Cm8 => d.advance.chooseIdle) (motionStep_moving _ i moves)
    refine ⟨?_, fun free => ?_⟩
    · show Host.Outcome.next { s with part := s.part.takeEvent (.motion i) _ } = _
      rw [row]
    · subst free
      intro c h d
      have made : d = ((c.evaluated i m none).doneTold i { m with k := m.k + 1 }).restFree i :=
        moveTick_ends _ i none ends
      have evaluated : c.Turned (c.evaluated i m none) i _ 0#16 [] := turned_onHead ..
      have told := evaluated.trans (turned_doneTold _ i { m with k := m.k + 1 })
      have clock : ((c.evaluated i m none).doneTold i { m with k := m.k + 1 }).clock = c.clock := told.rest.1
      have freed := ((told.trans (turned_toFree _ i)).records (List.append_nil _)).headAs
        (h' := { h with
          activity := freeActivity c.clock.frame h.queue
          previous := .gen fun a => if h.configured a then h.setpoint.get a else h.previous.get a
          setpoint := .gen fun a =>
            if h.configured a then h.pathPoint m (m.k + 1) a else h.setpoint.get a }) (by
        rw [clock, told.head, head_evaluated]
        rfl)
      have own := congrArg Head.activity freed.head
      dsimp only at own
      refine ⟨?_, _, freed, made, fun z => ?_, ?_⟩
      · rw [made, restFree_eq, head_recompute_settle]
        · exact own
        · exact (congrArg Activity.waiting own).trans (waiting_freeActivity ..)
      · rw [holder_recompute, own, isHalted_freeActivity, moveZones_free (own ▸ active_freeActivity ..),
          BitVec.or_zero, freed.holder_eq]
        simp
      · rw [released_recompute _ _ (own ▸ isHalted_freeActivity ..), moveZones_free (own ▸ active_freeActivity ..),
          BitVec.or_zero, freed.arbiter.2.2]
        simp only [freed.holder_eq]
  · intro c i m held moves last inside
    rw [motionStep_moving c i moves]
    obtain ⟨setpoint, previous⟩ := c.setpoint_moveTick i m held
    rw [setpoint, previous]
    refine ⟨fun a configured => ?_, fun a absent => ?_⟩
    · rw [(setpoint_evaluate ..).1, (setpoint_evaluate ..).2, if_pos configured, if_pos configured]
      refine ⟨?_, rfl⟩
      unfold Head.pathPoint
      dsimp only
      rw [last, pathValue_end _ _ _ (Nat.succ_pos _)]
      exact Span.clamp_of_contains (inside a configured)
    · rw [(setpoint_evaluate ..).1, if_neg (Bool.eq_false_iff.1 absent)]
  · intro c i m held a moves configured ordered
    rw [motionStep_moving c i moves, (c.setpoint_moveTick i m held).1, (setpoint_evaluate ..).1, if_pos configured]
    exact Span.contains_clamp ordered _
  · intro c i m x ends made
    exact moveTick_ends c i (some x) ends
  · intro c i x h swift
    refine ⟨fun on block => ?_, fun p ok => ?_, fun why failed => ?_⟩
    · unfold planResume
      dsimp only
      rw [show (c.head i).tally = true from on.2, show x.profile = some .swift from on.1, Option.getD_some,
        apply_block block]
    · obtain ⟨q, soft, stands, short, rfl⟩ := planResume_eq_ok ok
      have bounds := c.planned_bounds i (c.head i).restStart ⟨.planned, x.source, x.tag, some q,
        requestFor q x.remaining, c.nameAll i x.target, soft⟩
      have fast : swift ↔ x.profile.getD .ease = .swift ∧ h.tally = true := by
        refine and_congr_left fun _ => ?_
        cases x.profile <;> simp
      refine ⟨rfl, rfl, rfl, rfl, rfl, fun a => ?_, fun a configured => ?_, fun on => ?_, fun off => ?_, fun ease => ?_,
        bounds.2, short, ?_⟩
      · exact PerAxis.get_const ..
      · refine (planned_target ..).trans ((if_pos configured).trans ?_)
        rw [rawTarget_named (nameAll_configured x.target configured)]
      · rcases apply_cases c.policy (c.head i).tally (x.profile.getD .ease) with
          ⟨_, _, _, none⟩ | ⟨_, _, _, eased⟩ | ⟨other, _⟩
        · exact nomatch none.symm.trans stands
        · obtain ⟨rfl, rfl⟩ := Prod.mk.inj (Option.some.inj (eased.symm.trans stands))
          exact ⟨rfl, rfl⟩
        · exact absurd (fast.1 on) other
      · obtain ⟨rfl, rfl⟩ := Prod.mk.inj (Option.some.inj
          ((apply_other fun on => off (fast.2 on)).symm.trans stands))
        exact ⟨rfl, rfl⟩
      · obtain rfl : q = .ease := Option.some.inj ease
        exact bounds.1
      · intro n d
        have eq : c.resume i x = d := by
          rw [resume_ok c i ok, backOfHeld_resumed]
          rfl
        refine ⟨eq, ?_, fun free => ?_⟩
        · obtain ⟨a, same⟩ := ((c.resumed i x _).sameHeads_request i _ none _).head i
          rw [← eq, resume_ok c i ok, same, head_resumed]
        · rw [← eq, resume_ok c i ok]
          exact (request_free_runs free).1
    · intro d
      refine ⟨resume_error c i failed, ?_⟩
      show ((Cm8.restFree _ i).head i).activity = _
      rw [head_restFree, clock_post, head_post]

end Sys2Proof
end

section
/-! PROOF. The bodies of RECALL and RECALL INLINE, and the checks of a call (R47, R48, R194). -/

namespace Sys2Proof.Machine

/-! ### The optional fields (R194) -/

theorem takeCue_bytes {p : Byte} (cue : Option (BitVec 32)) (named : p.getLsbD 0 = cue.isSome) (rest : List Byte) :
    takeCue p ((cue.map enc4).getD [] ++ rest) = some (cue, rest) := by
  unfold takeCue
  cases cue with
  | none => exact if_neg (by rw [named]; exact Bool.false_ne_true)
  | some w =>
    refine (if_pos (by rw [named]; rfl)).trans ?_
    show some (some (be4 _ _ _ _), rest) = _
    rw [be4_enc4]

theorem takeDuration_bytes {p : Byte} (d : Option (Byte × Byte)) (named : p.getLsbD 1 = d.isSome)
    (rest : List Byte) : takeDuration p ((d.map fun d => [d.1, d.2]).getD [] ++ rest) =
      some (d.map fun d => be2 d.1 d.2, rest) := by
  unfold takeDuration
  cases d with
  | none => exact if_neg (by rw [named]; exact Bool.false_ne_true)
  | some w => exact if_pos (by rw [named]; rfl)

theorem takeProfile_bytes {p : Byte} (q : Option Byte) (named : p.getLsbD 2 = q.isSome) (rest : List Byte) :
    takeProfile p ((q.map fun q => [q]).getD [] ++ rest) = some (q, rest) := by
  unfold takeProfile
  cases q with
  | none => exact if_neg (by rw [named]; exact Bool.false_ne_true)
  | some w => exact if_pos (by rw [named]; rfl)

namespace RawOptions

/-- The optional fields as they are read. -/
def read (o : RawOptions) : CallOptions := ⟨o.cue, o.duration.map fun d => be2 d.1 d.2, o.profile⟩

theorem takeOptions_bytes {p : Byte} (o : RawOptions) (named : o.Named p) (rest : List Byte) :
    takeOptions p (o.bytes ++ rest) = some (o.read, rest) := by
  obtain ⟨cue, duration, profile⟩ := named
  unfold takeOptions bytes
  rw [List.append_assoc, List.append_assoc, takeCue_bytes _ cue]
  dsimp only
  rw [takeDuration_bytes _ duration]
  dsimp only
  rw [takeProfile_bytes _ profile]
  rfl

theorem checked_none {o : RawOptions} (unfit : ¬ o.Fits) : o.read.checked = none := by
  unfold CallOptions.checked read
  dsimp only
  split
  · rename_i duration
    have short : ∀ d, o.duration = some d → 1 ≤ be2 d.1 d.2 ∧ be2 d.1 d.2 ≤ 4095 := fun d hd => by
      rw [hd] at duration
      exact (within_iff ..).1 duration
    cases profile : o.profile with
    | none => exact absurd ⟨short, fun q hq => nomatch profile.symm.trans hq⟩ unfit
    | some q =>
      have high : 2 ≤ q.toNat := by
        by_contra low
        refine unfit ⟨short, fun x hx => ?_⟩
        obtain rfl := Option.some.inj (profile.symm.trans hx)
        omega
      show (profileOf q).map some = none
      rw [profileOf_none high]
      rfl
  · rfl

end RawOptions

namespace Call

/-- The optional fields of a call, as bytes. -/
def raw (x : Call) : RawOptions :=
  ⟨x.cue, x.duration.map fun n => (BitVec.ofNat 8 (n / 256), BitVec.ofNat 8 n), x.profile.map Profile.code⟩

theorem options_eq (x : Call) : x.options = x.raw.bytes := by
  unfold options RawOptions.bytes raw
  cases x.duration <;> cases x.profile <;> rfl

theorem flagsByte_bits (a b c : Bool) : (flagsByte [a, b, c]).getLsbD 0 = a ∧
    (flagsByte [a, b, c]).getLsbD 1 = b ∧ (flagsByte [a, b, c]).getLsbD 2 = c := by
  cases a <;> cases b <;> cases c <;> decide

theorem raw_named (x : Call) : x.raw.Named x.presence := by
  obtain ⟨cue, duration, profile⟩ := flagsByte_bits x.cue.isSome x.duration.isSome x.profile.isSome
  exact ⟨cue, duration.trans Option.isSome_map.symm, profile.trans Option.isSome_map.symm⟩

theorem raw_checked {x : Call} (fits : ∀ d, x.duration = some d → 1 ≤ d ∧ d ≤ 4095) :
    x.raw.read.checked = some x.profile ∧ x.raw.read.cue = x.cue ∧ x.raw.read.duration = x.duration := by
  have duration : x.raw.read.duration = x.duration := by
    show (x.duration.map _).map _ = _
    rw [Option.map_map]
    cases d : x.duration with
    | none => rfl
    | some n => exact congrArg some (be2_enc2 (by have := (fits n d).2; omega))
  refine ⟨?_, rfl, duration⟩
  unfold CallOptions.checked
  rw [duration, if_pos]
  · rw [show x.raw.read.profile = x.profile.map Profile.code from rfl]
    cases x.profile with
    | none => rfl
    | some q => exact congrArg (Option.map some) (Cm8.profileOf_code q)
  · cases d : x.duration with
    | none => rfl
    | some n => exact (within_iff ..).2 (fits n d)

end Call

theorem modeOf_byte (m : CallMode) : modeOf m.byte = some m := by cases m <;> rfl

theorem modeOf_none {b : Byte} (h : 3 ≤ b.toNat) : modeOf b = none := by
  unfold modeOf
  rw [if_neg, if_neg, if_neg] <;> rintro rfl <;> exact absurd h (by decide)

namespace Cm8

variable (c : Cm8)

/-! ### Reading a call (R24, R47) -/

theorem recallShot_call (i : Slot) (mode : CallMode) (x : Call) {k : Fin 64} (source : x.source = .shot k)
    (fits : ∀ d, x.duration = some d → 1 ≤ d ∧ d ≤ 4095) :
    c.recallShot x.tag ([slotByte i, mode.byte, BitVec.ofNat 8 k.val, x.presence] ++ x.options) =
      c.callChecked i mode x := by
  obtain ⟨checked, cue, duration⟩ := x.raw_checked fits
  have read := x.raw.takeOptions_bytes x.raw_named []
  rw [List.append_nil] at read
  show c.recallShot x.tag (slotByte i :: mode.byte :: BitVec.ofNat 8 k.val :: x.presence :: x.options) = _
  unfold recallShot
  dsimp only
  rw [x.options_eq, read]
  dsimp only
  rw [slotOf_slotByte, modeOf_byte, shotOf_ofNat, checked]
  dsimp only
  rw [cue, duration, ← source]

theorem recallShot_range {tag b m k p : Byte} {o : RawOptions} (named : o.Named p)
    (out : 8 ≤ b.toNat ∨ 3 ≤ m.toNat ∨ 64 ≤ k.toNat ∨ ¬ o.Fits) :
    c.recallShot tag ([b, m, k, p] ++ o.bytes) = .error .range := by
  have read := o.takeOptions_bytes named []
  rw [List.append_nil] at read
  show c.recallShot tag (b :: m :: k :: p :: o.bytes) = _
  unfold recallShot
  dsimp only
  rw [read]
  dsimp only
  split
  · rename_i slot mode shot checked
    rcases out with h | h | h | h
    · exact nomatch (slotOf_none h).symm.trans slot
    · exact nomatch (modeOf_none h).symm.trans mode
    · exact nomatch (shotOf_none h).symm.trans shot
    · exact nomatch (RawOptions.checked_none h).symm.trans checked
  · rfl

theorem recallInline_call (i : Slot) (mode : CallMode) (x : Call) {ts : List (Axis × Int)}
    (source : x.source = .inline ts) (fits : ∀ d, x.duration = some d → 1 ≤ d ∧ d ≤ 4095)
    (targets : TargetsFit (c.head i).map.mask ts) :
    c.recallInline x.tag ([slotByte i, mode.byte, x.presence] ++ x.options ++ enc1 ts.length ++ pairBytes ts) =
      c.callChecked i mode x := by
  obtain ⟨checked, cue, duration⟩ := x.raw_checked fits
  have read := x.raw.takeOptions_bytes x.raw_named (enc1 ts.length ++ pairBytes ts)
  rw [List.append_assoc, List.append_assoc]
  show c.recallInline x.tag (slotByte i :: mode.byte :: x.presence :: (x.options ++ (enc1 ts.length ++ pairBytes ts))) = _
  unfold recallInline
  dsimp only
  rw [x.options_eq, read]
  dsimp only
  rw [show inlinePairs (enc1 ts.length ++ pairBytes ts) = some (rawPairs ts) from
    counted_pairBytes (by have := targets.count.2; omega) targets.values]
  dsimp only
  rw [slotOf_slotByte, modeOf_byte, checked]
  dsimp only
  rw [targetList_rawPairs targets]
  dsimp only
  rw [cue, duration, ← source]

theorem recallInline_range {tag b m p n : Byte} {o : RawOptions} {ps : List (Byte × Int)} (named : o.Named p)
    (count : ps.length = n.toNat) (values : ∀ t ∈ ps, fitsPosition t.2 = true)
    (out : 8 ≤ b.toNat ∨ 3 ≤ m.toNat ∨ ¬ o.Fits ∨ ps = [] ∨
      ∃ i : Slot, b = slotByte i ∧ ¬ ListFits (c.head i).map.mask ps) :
    c.recallInline tag ([b, m, p] ++ o.bytes ++ n :: rawPairBytes ps) = .error .range := by
  rw [List.append_assoc]
  show c.recallInline tag (b :: m :: p :: (o.bytes ++ n :: rawPairBytes ps)) = _
  unfold recallInline
  dsimp only
  rw [o.takeOptions_bytes named]
  dsimp only
  rw [show inlinePairs (n :: rawPairBytes ps) = some ps from counted_rawPairBytes count values]
  dsimp only
  split
  · rename_i i mode q slot mode' checked
    rw [targetList_none]
    rcases out with h | h | h | h | ⟨j, rfl, unfit⟩
    · exact nomatch (slotOf_none h).symm.trans slot
    · exact nomatch (modeOf_none h).symm.trans mode'
    · exact nomatch (RawOptions.checked_none h).symm.trans checked
    · exact .inl h
    · obtain rfl := Option.some.inj ((slotOf_slotByte j).symm.trans slot)
      exact .inr unfit
  · rfl

end Cm8

/-! ### The row of a call -/

/-- The body of RECALL that makes a call. -/
def Call.shotBody (x : Call) (i : Slot) (mode : CallMode) (k : Fin 64) : List Byte :=
  [slotByte i, mode.byte, BitVec.ofNat 8 k.val, x.presence] ++ x.options

/-- The body of RECALL INLINE that makes a call. -/
def Call.inlineBody (x : Call) (i : Slot) (mode : CallMode) (ts : List (Axis × Int)) : List Byte :=
  [slotByte i, mode.byte, x.presence] ++ x.options ++ enc1 ts.length ++ pairBytes ts

/-- The fields of a call that its body can carry. -/
structure Call.Sound (x : Call) (mask : AxisMask) : Prop where
  duration : ∀ d, x.duration = some d → 1 ≤ d ∧ d ≤ 4095
  targets : ∀ ts, x.source = .inline ts → TargetsFit mask ts

theorem Call.Fits.sound {x : Call} {mask : AxisMask} {mode : CallMode} (h : x.Fits mask mode) : x.Sound mask :=
  ⟨h.duration, h.targets⟩

section
variable {s : State} {i : Slot} {x : Call} (mode : CallMode) (ready : s.part.Ready)
  (sound : x.Sound (s.part.head i).map.mask)
include ready sound

theorem call_accepts {d : Cm8} {data : List Byte} (ok : s.part.callChecked i mode x = .ok (d, data)) :
    exec (x.row i mode) s = .next (s.accepts d x.kind x.tag data) := by
  unfold Call.row Call.kind
  match source : x.source with
  | .shot k =>
    exact s.verdict_accepts .recallShot x.tag (x.shotBody i mode k)
      (fun c => c.recallShot x.tag (x.shotBody i mode k)) ready
      ((Cm8.recallShot_call _ i mode x source sound.duration).trans ok)
  | .inline ts =>
    exact s.verdict_accepts .recallInline x.tag (x.inlineBody i mode ts)
      (fun c => c.recallInline x.tag (x.inlineBody i mode ts)) ready
      ((Cm8.recallInline_call _ i mode x source sound.duration (sound.targets ts source)).trans ok)

theorem call_refuses {why : Reason} (no : s.part.callChecked i mode x = .error why) :
    exec (x.row i mode) s = .next (s.refuses s.part x.kind x.tag why) := by
  unfold Call.row Call.kind
  match source : x.source with
  | .shot k =>
    exact s.verdict_refuses .recallShot x.tag (x.shotBody i mode k)
      (fun c => c.recallShot x.tag (x.shotBody i mode k)) ready
      ((Cm8.recallShot_call _ i mode x source sound.duration).trans no)
  | .inline ts =>
    exact s.verdict_refuses .recallInline x.tag (x.inlineBody i mode ts)
      (fun c => c.recallInline x.tag (x.inlineBody i mode ts)) ready
      ((Cm8.recallInline_call _ i mode x source sound.duration (sound.targets ts source)).trans no)

end

end Sys2Proof.Machine
end

section
/-! PROOF. The checks of a call on its head, and the calls that are queued (O47). -/

namespace Sys2Proof.Machine.Cm8

variable {c : Cm8} {i : Slot} {mode : CallMode} {x : Call}

/-! ### The checks of R47 and R48 -/

theorem callChecked_malformed (priority : mode = .priority) (cued : x.cue ≠ none) :
    c.callChecked i mode x = .error .malformed := by
  refine if_pos ?_
  rw [Bool.and_eq_true, decide_eq_true_iff, Option.isSome_iff_ne_none]
  exact ⟨priority, cued⟩

theorem callChecked_call (uncued : mode = .priority → x.cue = none) :
    c.callChecked i mode x = c.call i mode x := by
  refine if_neg ?_
  rw [Bool.and_eq_true, decide_eq_true_iff, Option.isSome_iff_ne_none]
  exact fun h => h.2 (uncued h.1)

theorem call_noHead (h : (c.head i).link.state ≠ .linked ∨ (c.head i).activity = .offline) :
    c.call i mode x = .error .noHead := by
  refine if_pos ?_
  rw [Bool.or_eq_true, Bool.not_eq_true', ← Bool.not_eq_true, Head.isLinked_iff, Activity.isOffline_iff]
  exact h

/-- On a linked head that is not OFFLINE the checks go on. -/
theorem call_linked (linked : (c.head i).link.state = .linked) (on : (c.head i).activity ≠ .offline) :
    c.call i mode x = if (c.head i).activity.isHalted then .error .halted
      else if callBusy (c.head i).activity mode x.cue.isSome then .error .busy else c.callBy i mode x := by
  refine if_neg ?_
  rw [Bool.or_eq_true, Bool.not_eq_true', ← Bool.not_eq_true, Head.isLinked_iff, Activity.isOffline_iff]
  exact fun h => h.elim (· linked) on

theorem call_halted (linked : (c.head i).link.state = .linked) {w : HaltCause}
    (h : (c.head i).activity = .halted w) : c.call i mode x = .error .halted := by
  rw [call_linked linked (by rw [h]; nofun), h]
  rfl

theorem call_busy (linked : (c.head i).link.state = .linked)
    (on : (c.head i).activity ≠ .offline) (running : ∀ w, (c.head i).activity ≠ .halted w)
    (busy : callBusy (c.head i).activity mode x.cue.isSome = true) : c.call i mode x = .error .busy := by
  rw [call_linked linked on, if_neg, if_pos busy]
  rw [Activity.isHalted_iff]
  exact fun ⟨w, h⟩ => running w h

theorem call_callable (callable : (c.head i).callable = true)
    (taken : callBusy (c.head i).activity mode x.cue.isSome = false) : c.call i mode x = c.callBy i mode x := by
  obtain ⟨linked, run⟩ := (callable_iff _).1 callable
  obtain ⟨on, running⟩ := (runs_iff _).1 run
  rw [call_linked linked on, if_neg, if_neg (Bool.eq_false_iff.1 taken)]
  rw [Activity.isHalted_iff]
  exact fun ⟨w, h⟩ => running w h

theorem callBusy_append (a : Activity) (cued : Bool) : callBusy a .append cued = false := by
  cases a <;> rfl

/-- A REPLACE or a PRIORITY meets a head that neither jogs nor stops. -/
theorem callBusy_free {a : Activity} (cued : Bool) (still : ∀ j, a ≠ .jogging j)
    (unstopped : ∀ m held, a = .moving m held → m.cls ≠ .stop) : callBusy a mode cued = false := by
  cases a with
  | jogging j => exact absurd rfl (still j)
  | moving m held =>
    cases mode with
    | append => rfl
    | replace => simp [callBusy, unstopped m held rfl]
    | priority => simp [callBusy, unstopped m held rfl]
  | _ => cases mode <;> rfl

/-- A REPLACE with a cue meets any head that does not jog. -/
theorem callBusy_cued {a : Activity} (still : ∀ j, a ≠ .jogging j) : callBusy a .replace true = false := by
  cases a with
  | jogging j => exact absurd rfl (still j)
  | moving m held => exact Bool.and_false _
  | _ => rfl

/-! ### The calls that are queued (R49, R56) -/

/-- A free head takes the state of R50, any other keeps its own. -/
theorem turned_refresh (c : Cm8) (i : Slot) : c.Turned (c.refresh i) i { c.head i with
    activity := if (c.head i).activity.isFree then freeActivity c.clock.frame (c.head i).queue
      else (c.head i).activity } 0#16 [] := by
  unfold refresh
  split
  · exact turned_toFree ..
  · exact .refl c i

theorem refresh_free (free : (c.head i).activity.isFree = true) : c.refresh i = c.toFree i := if_pos free

theorem refresh_kept (kept : (c.head i).activity.isFree = false) : c.refresh i = c :=
  if_neg (Bool.eq_false_iff.1 kept)

/-- An entry joins the tail of the queue, and a free head takes the state of R50. -/
theorem appended_eq (q : List QueueEntry) : (c.setQueue i q).refresh i = c.setHead i { c.head i with
    queue := q
    activity := if (c.head i).activity.isFree then freeActivity c.clock.frame q else (c.head i).activity } := by
  have own : (c.setQueue i q).head i = { c.head i with queue := q } := (turned_setQueue ..).head
  cases free : (c.head i).activity.isFree with
  | true =>
    rw [refresh_free (by rw [own]; exact free), if_pos rfl]
    show (c.setHead i _).setHead i { (c.setQueue i q).head i with activity := _ } = _
    rw [setHead_setHead, own]
    rfl
  | false =>
    rw [refresh_kept (by rw [own]; exact free), if_neg Bool.false_ne_true]
    rfl

theorem callAppend_full (full : 8 ≤ (c.head i).queue.length) : c.callAppend i x = .error .queueFull := if_pos full

theorem callAppend_joins (room : (c.head i).queue.length < 8) : c.callAppend i x =
    .ok ((c.setQueue i ((c.head i).queue ++ [x.entry .after])).refresh i,
      [0#8, BitVec.ofNat 8 ((c.head i).queue.length + 1)]) := by
  have joined : c.callAppend i x = .ok ((c.setQueue i ((c.head i).queue ++ [x.entry .after])).refresh i,
      queuedData ((((c.setQueue i ((c.head i).queue ++ [x.entry .after])).refresh i).head i).queue.length)) :=
    if_neg (Nat.not_le.2 room)
  have queue : (((c.setQueue i ((c.head i).queue ++ [x.entry .after])).refresh i).head i).queue =
      (c.head i).queue ++ [x.entry .after] := by
    rw [(turned_refresh ..).head, (turned_setQueue ..).head]
  rw [joined, queue, List.length_append]
  rfl

end Sys2Proof.Machine.Cm8

namespace Sys2Proof

open Sys2Proof.Machine Sys2Proof.Machine.Cm8

/-- Settles O47. -/
theorem queuedCallsJoinQueue : Obligations.QueuedCallsJoinQueue := by
  unfold Obligations.QueuedCallsJoinQueue
  refine ⟨?_, ?_, ?_, ?_, ?_⟩
  · intro s i x ready callable fits h queue
    have calls : s.part.callChecked i .append x = s.part.callAppend i x :=
      (callChecked_call (mode := .append) nofun).trans (call_callable callable (callBusy_append ..))
    refine ⟨fun room => ?_, fun full => call_refuses .append ready fits.sound (calls.trans (callAppend_full full))⟩
    rw [call_accepts .append ready fits.sound (calls.trans (callAppend_joins room)), appended_eq]
    refine congrArg (fun a => Host.Outcome.next (s.accepts (s.part.setHead i { h with
      queue := queue, activity := a }) x.kind x.tag [0#8, BitVec.ofNat 8 (h.queue.length + 1)])) ?_
    show (if h.activity.isFree = true then freeActivity s.part.clock.frame queue else h.activity) = _
    cases h.activity <;> rfl
  · intro s i x cue ready callable still cued fits c queue
    have calls : c.callChecked i .replace x = .ok (((c.flush i).setQueue i queue).refresh i, [0#8, 1#8]) := by
      refine (callChecked_call (mode := .replace) nofun).trans ((call_callable callable ?_).trans ?_)
      · rw [cued]
        exact callBusy_cued still
      · unfold callBy callCued Call.entry
        rw [cued]
        rfl
    have flushed := c.turned_flush i
    have queued := flushed.trans (turned_setQueue _ i queue)
    have done := queued.trans (turned_refresh _ i)
    refine ⟨_, call_accepts .replace ready fits.sound calls, rfl, ?_, fun kept => ?_, done.holder_eq⟩
    · rw [done.head, queued.head]
    · rw [refresh_kept (by rw [queued.head, flushed.head]; exact kept), queued.head, flushed.head]
  · intro s tag b m k p o ready named out
    exact s.verdict_refuses .recallShot tag _ (fun c => c.recallShot tag _) ready
      (recallShot_range s.part named out)
  · intro s tag b m p n o ps ready named count values out
    exact s.verdict_refuses .recallInline tag _ (fun c => c.recallInline tag _) ready
      (recallInline_range s.part named count values out)
  · intro s i mode x ready fits h refused
    have refuse {why : Reason} (no : s.part.callChecked i mode x = .error why) : refused why :=
      call_refuses mode ready fits.sound no
    refine ⟨fun priority cued => refuse (callChecked_malformed priority cued), fun uncued => ?_⟩
    have calls := callChecked_call (c := s.part) (i := i) uncued
    refine ⟨fun none => refuse (calls.trans (call_noHead none)), fun linked =>
      ⟨fun w halted => refuse (calls.trans (call_halted linked halted)), fun j jogs mode' => ?_,
        fun m held moves stop mode' => ?_⟩⟩
    · refine refuse (calls.trans (call_busy linked ?_ ?_ ?_))
      · rw [show (s.part.head i).activity = _ from jogs]
        nofun
      · rw [show (s.part.head i).activity = _ from jogs]
        nofun
      · rw [show (s.part.head i).activity = _ from jogs]
        cases mode with
        | append => exact absurd rfl mode'
        | _ => rfl
    · refine refuse (calls.trans (call_busy linked ?_ ?_ ?_))
      · rw [show (s.part.head i).activity = _ from moves]
        nofun
      · rw [show (s.part.head i).activity = _ from moves]
        nofun
      · rw [show (s.part.head i).activity = _ from moves]
        rcases mode' with rfl | ⟨rfl, none⟩
        · exact decide_eq_true stop
        · rw [none]
          exact (Bool.and_true _).trans (decide_eq_true stop)

end Sys2Proof
end

section
/-! PROOF. Calls that act at once: REPLACE without a cue, and PRIORITY (O48, O49). -/

namespace Sys2Proof.Machine.Cm8

variable {c : Cm8} {i : Slot} {x : Call}

/-! ### Plannings while a command is taken (R55, R58) -/

section
variable {st : Start} {cls : MoveClass} {src : Source} {duration : Option Nat} {profile : Option Profile}
  {tag : Byte}

/-- A planned move is not LATE. -/
theorem planSource_late {p : Planned} (ok : c.planSource i st cls src duration profile tag = .ok p) :
    p.move.flags.late = false := by
  cases read : (c.head i).read src duration profile with
  | none => exact nomatch (planSource_unread read).symm.trans ok
  | some r =>
    obtain ⟨q, soft, _, _, rfl⟩ := planSource_eq_ok ok read
    rfl

/-- A planning fails with NO_SHOT, ON_AIR or LIMIT (R94). -/
theorem planSource_error {why : DropReason} (no : c.planSource i st cls src duration profile tag = .error why) :
    why = .noShot ∨ why = .onAir ∨ why = .limit := by
  cases read : (c.head i).read src duration profile with
  | none => exact .inl (Except.error.inj ((planSource_unread read).symm.trans no)).symm
  | some r =>
    cases stands : c.policy.apply (c.head i).tally r.profile with
    | none => exact .inr (.inl (Except.error.inj ((planSource_blocked read stands).symm.trans no)).symm)
    | some q =>
      obtain ⟨q, soft⟩ := q
      cases made : c.plan i st (askOf (c.head i) cls tag r q soft) with
      | none => exact .inr (.inr (Except.error.inj ((planSource_limit read stands made).symm.trans no)).symm)
      | some m => exact nomatch (planSource_ok read stands made).symm.trans no

end

theorem startedAs_none {m : Move} (early : m.flags.late = false) : c.startedAs m none = m := by
  show ({ m with flags := { m.flags with late := false } } : Move) = m
  rw [← early]

theorem overStart_moving {m : Move} {held : Option Held} (moves : (c.head i).activity = .moving m held) :
    c.overStart i = (c.head i).blendStart m := by
  unfold overStart
  rw [moves]
  rfl

theorem overStart_rest (rest : (c.head i).activity.active = none) : c.overStart i = (c.head i).restStart := by
  unfold overStart
  rw [rest]

/-! ### REPLACE without a cue (R55) -/

section
variable (uncued : x.cue = none)
include uncued

theorem callBy_replace : c.callBy i .replace x = c.callReplace i x := by
  unfold callBy
  rw [uncued]

end

theorem callReplace_error {why : DropReason}
    (no : c.planSource i (c.overStart i) .planned x.source x.duration x.profile x.tag = .error why) :
    c.callReplace i x = .error (refusalOf why) := by
  unfold callReplace
  rw [no]

theorem callReplace_moving {p : Planned} {m : Move} {held : Option Held}
    (moves : (c.head i).activity = .moving m held)
    (ok : c.planSource i (c.overStart i) .planned x.source x.duration x.profile x.tag = .ok p) :
    c.callReplace i x = if c.obtainable i p.move.zones then
      .ok ((c.flush i).overrideWith i p.move, 1#8 :: enc2 p.move.d) else .error .zoneBusy := by
  unfold callReplace
  rw [ok]
  dsimp only
  rw [moves]
  rfl

theorem callReplace_rest {p : Planned} (rest : (c.head i).activity.active = none)
    (ok : c.planSource i (c.overStart i) .planned x.source x.duration x.profile x.tag = .ok p) :
    c.callReplace i x = .ok (c.replaceFree i x p) := by
  unfold callReplace
  rw [ok]
  dsimp only
  rw [rest]

/-- A flush and what a REPLACE displaces from a head with no active move (R55). -/
theorem turned_replaceFree : c.Turned (((c.flush i).dropDisplaced i).toFree i) i
    { c.head i with activity := .idle, queue := [] } 0#16
    (flushRecords i (c.head i).queue ++ displacedRecords i (c.head i).activity) := by
  have flushed := c.turned_flush i
  have displaced := flushed.trans (turned_dropDisplaced _ i)
  refine ((displaced.trans (turned_toFree _ i)).records ?_).headAs ?_
  · rw [List.append_nil, flushed.head]
  · rw [displaced.head, flushed.head]
    rfl

/-- A flush, and then a move that takes over the head (R55). -/
theorem replaceOver_taken (m : Move) : c.TakenOver ((c.flush i).overrideWith i m) i m none []
    (flushRecords i (c.head i).queue ++ displacedRecords i (c.head i).activity) := by
  have flushed := c.turned_flush i
  obtain ⟨e, turned, eq⟩ := overrideWith_taken (c := c.flush i) (i := i) m
  refine ⟨e, ?_, eq⟩
  rw [flushed.head] at turned
  exact flushed.trans turned

/-! ### PRIORITY (R58, R59, R70) -/

/-- The held move under a priority move (R71). -/
def wayHeld : Activity → Option Held
  | .moving m held =>
    if m.cls = .planned then some ⟨m.target, m.d - m.k, m.profile, m.source, m.tag, m.zones⟩ else held
  | _ => none

/-- The queue that a PRIORITY leaves (R59). -/
def wayQueue (q : List QueueEntry) : Activity → List QueueEntry
  | .waitZone w => w.back :: q
  | _ => q

/-- The records of a PRIORITY for the move that gives way (R70). -/
def wayRecords (i : Slot) : Activity → List (Option Slot × Option Byte × Event)
  | .moving m _ => [(some i, m.tag, if m.cls = .planned then .moveHeld m.source (m.d - m.k)
      else .moveDropped m.source .superseded)]
  | _ => []

/-- What gives way to a priority move (R59, R70). -/
theorem makeWay_turns (unstopped : ∀ m held, (c.head i).activity = .moving m held → m.cls ≠ .stop) :
    c.Turned (c.makeWay i).1 i { c.head i with queue := wayQueue (c.head i).queue (c.head i).activity } 0#16
      (wayRecords i (c.head i).activity) ∧ (c.makeWay i).2 = wayHeld (c.head i).activity := by
  unfold makeWay
  cases act : (c.head i).activity with
  | moving m held =>
    unfold wayHeld wayRecords
    dsimp only
    by_cases planned : m.cls = .planned
    · rw [if_pos planned, if_pos planned, if_pos planned]
      exact ⟨turned_post .., rfl⟩
    · rw [if_neg planned, if_neg planned, if_neg planned]
      refine ⟨(c.turned_dropMove i m .superseded).records ?_, rfl⟩
      exact if_neg (unstopped m held act)
  | waitZone w => exact ⟨turned_onHead c i fun h => { h with queue := w.back :: h.queue }, rfl⟩
  | _ => exact ⟨.refl c i, rfl⟩

theorem startPriority_taken (m : Move)
    (unstopped : ∀ m held, (c.head i).activity = .moving m held → m.cls ≠ .stop) :
    c.TakenOver (c.startPriority i m) i m (wayHeld (c.head i).activity)
      (wayQueue (c.head i).queue (c.head i).activity) (wayRecords i (c.head i).activity) := by
  obtain ⟨way, held⟩ := makeWay_turns unstopped
  refine ⟨(c.makeWay i).1.taken i m (c.makeWay i).2, ?_, rfl⟩
  rw [← held]
  refine ((way.trans (turned_taken _ i m _)).records (List.append_nil _)).headAs ?_
  rw [way.head]

theorem head_startPriority (m : Move)
    (unstopped : ∀ m held, (c.head i).activity = .moving m held → m.cls ≠ .stop) :
    (c.startPriority i m).head i = { c.head i with
      activity := .moving m (wayHeld (c.head i).activity)
      queue := wayQueue (c.head i).queue (c.head i).activity } := by
  obtain ⟨way, held⟩ := makeWay_turns unstopped
  unfold startPriority postStarted
  dsimp only
  rw [head_post, head_takeOver, way.head, held]

theorem startPriority_holds {m : Move}
    (unstopped : ∀ m held, (c.head i).activity = .moving m held → m.cls ≠ .stop)
    (free : ∀ z : Zone, m.zones.getLsbD z.val = true → c.holder z = none ∨ c.holder z = some i) :
    (c.startPriority i m).HoldsAll i m.zones := by
  have way := (makeWay_turns unstopped).1
  have held := takeOver_holds (c := (c.makeWay i).1) (i := i) (m := m) (c.makeWay i).2 fun z hz => by
    rw [way.holder_eq]
    exact free z hz
  exact fun z hz => (holder_post ..).trans (held z hz)

theorem putBackFull_iff : c.putBackFull i = true ↔
    (∃ w, (c.head i).activity = .waitZone w) ∧ 8 ≤ (c.head i).queue.length := by
  unfold putBackFull waitingOf
  rw [Bool.and_eq_true, decide_eq_true_iff]
  refine and_congr_left fun _ => ?_
  cases (c.head i).activity <;> simp [Activity.waiting]

theorem callPriority_full (full : c.putBackFull i = true) : c.callPriority i x = .error .queueFull := if_pos full

section
variable (room : c.putBackFull i = false)
include room

theorem callPriority_error {why : DropReason}
    (no : c.planSource i (c.overStart i) .priority x.source x.duration x.profile x.tag = .error why) :
    c.callPriority i x = .error (refusalOf why) := by
  unfold callPriority
  rw [if_neg (Bool.eq_false_iff.1 room), no]

theorem callPriority_ok {p : Planned}
    (ok : c.planSource i (c.overStart i) .priority x.source x.duration x.profile x.tag = .ok p) :
    c.callPriority i x = if c.obtainable i p.move.zones then
      .ok (c.startPriority i p.move, 1#8 :: enc2 p.move.d) else .error .zoneBusy := by
  unfold callPriority
  rw [if_neg (Bool.eq_false_iff.1 room), ok]
  rfl

end

end Sys2Proof.Machine.Cm8
end

section
/-! PROOF. REPLACE without a cue, and PRIORITY: the rows (O48, O49). -/

namespace Sys2Proof

open Sys2Proof.Machine Sys2Proof.Machine.Cm8

/-- Settles O48. -/
theorem replaceStartsAtOnce : Obligations.ReplaceStartsAtOnce := by
  unfold Obligations.ReplaceStartsAtOnce
  refine ⟨?_, ?_, ?_, ?_⟩
  · intro s i x m held p ready linked moves running uncued fits c ok
    have act : (c.head i).activity = .moving m held := moves
    have callable : (c.head i).callable = true :=
      (callable_iff _).2 ⟨linked, (runs_iff _).2 ⟨by rw [act]; nofun, by rw [act]; nofun⟩⟩
    have calls : c.callChecked i .replace x = c.callReplace i x := by
      refine (callChecked_call (mode := .replace) nofun).trans ((call_callable callable ?_).trans (callBy_replace uncued))
      refine callBusy_free _ (fun j h => ?_) fun n held' h => ?_
      · exact nomatch act.symm.trans h
      · obtain ⟨rfl, rfl⟩ := Activity.moving.inj (act.symm.trans h)
        exact running
    have made := callReplace_moving (c := c) (x := x) act (by rw [overStart_moving act]; exact ok)
    refine ⟨fun free => ?_, fun busy => ?_⟩
    · intro d
      have flushed := c.turned_flush i
      have head : d.head i = { c.head i with activity := .moving p.move none, queue := [] } :=
        (head_overrideWith ..).trans (by rw [flushed.head])
      refine ⟨call_accepts .replace ready fits.sound (calls.trans (made.trans (if_pos ((obtainable_iff ..).2 free)))),
        by rw [head], by rw [head], overrideWith_holds fun z hz => ?_, replaceOver_taken _⟩
      rw [flushed.holder_eq]
      exact free z hz
    · exact call_refuses .replace ready fits.sound
        (calls.trans (made.trans (if_neg (Bool.eq_false_iff.1 ((obtainable_false_iff ..).2 busy)))))
  · intro s i x p ready linked state uncued fits c ok d
    have rest : (c.head i).activity.active = none := by
      rcases state with h | h | ⟨w, h⟩ <;> rw [show (c.head i).activity = _ from h] <;> rfl
    have callable : (c.head i).callable = true := by
      refine (callable_iff _).2 ⟨linked, (runs_iff _).2 ?_⟩
      rcases state with h | h | ⟨w, h⟩ <;> rw [show (c.head i).activity = _ from h] <;> exact ⟨nofun, nofun⟩
    have calls : c.callChecked i .replace x = c.callReplace i x := by
      refine (callChecked_call (mode := .replace) nofun).trans ((call_callable callable ?_).trans (callBy_replace uncued))
      refine callBusy_free _ (fun j h => ?_) fun n held' h => ?_
      · rcases state with k | k | ⟨w, k⟩ <;> exact nomatch k.symm.trans h
      · rcases state with k | k | ⟨w, k⟩ <;> exact nomatch k.symm.trans h
    have made := callReplace_rest (c := c) (x := x) rest (by rw [overStart_rest rest]; exact ok)
    have turned := c.turned_replaceFree (i := i)
    refine ⟨call_accepts .replace ready fits.sound (calls.trans made), ?_, fun free => ?_, _, turned, rfl⟩
    · obtain ⟨a, same⟩ := (sameHeads_requestTold _ i p ⟨x.source, .after, none, x.duration, x.profile, x.tag⟩).head i
      rw [show d.head i = _ from same, turned.head]
    · rw [show d = _ from requestTold_free free]
      have zones : ((((c.flush i).dropDisplaced i).toFree i).HoldsAll i (startedAs (((c.flush i).dropDisplaced i).toFree i)
          p.move none).zones) := by
        rw [show (startedAs (((c.flush i).dropDisplaced i).toFree i) p.move none).zones = 0#16 from free]
        exact holdsAll_zero i _
      have runs := ((runs_makeActive zones).settle.post (some i) p.move.tag
        (.moveStarted p.move.source p.move.d p.move.flags)).1
      rw [startedAs_none (planSource_late ok)] at runs ⊢
      exact runs
  · intro c i p cue back starts started waits w pass others m
    have wait (x : Option (BitVec 32)) : c.asWaiting i p x back = w x := asWaiting_eq ..
    have move (x : Option (BitVec 32)) : c.startedAs p.move x = m x := by
      cases x with
      | none => rfl
      | some y =>
        exact congrArg (fun b => ({ p.move with flags := { p.move.flags with late := b } } : Move))
          (lateBy_some ..)
    have judged (x : Option (BitVec 32)) : (c.waitingFor i p x back).judgePass = pass x := by
      unfold waitingFor
      rw [wait]
    refine ⟨fun free => ⟨?_, ?_⟩, fun needs granted => ?_, fun needs refused => ?_, fun needs granted => ?_,
      fun needs refused => ?_⟩
    · rw [request_free free, move]
      rfl
    · rw [requestTold_free free, move]
      rfl
    · rw [← judged] at granted
      have done := request_granted needs granted
      rw [judged, move] at done
      exact ⟨done.1, done.2.1, done.2.2⟩
    · rw [← judged] at refused
      have done := request_waits needs refused
      have waiting := others_wait refused
      rw [judged, wait] at done waiting
      intro d
      exact ⟨done, (congrArg Head.activity (head_recompute ..)).trans
        ((congrArg Head.activity (head_post ..)).trans waiting)⟩
    · rw [← judged] at granted
      have done := requestTold_granted needs granted
      rw [judged, move] at done
      exact ⟨done.1, done.2.1, done.2.2⟩
    · rw [← judged] at refused
      have done := requestTold_waits needs refused
      have waiting := others_wait refused
      rw [judged, wait] at done waiting
      have told := waitTold_cases waiting
      intro d
      exact ⟨fun still => done.trans (told.1 still), fun gone => done.trans (told.2 gone)⟩
  · intro s i x why ready callable still unstopped uncued fits c no
    have calls : c.callChecked i .replace x = c.callReplace i x :=
      (callChecked_call (mode := .replace) nofun).trans
        ((call_callable callable (callBusy_free _ still unstopped)).trans (callBy_replace uncued))
    have refuses := call_refuses .replace ready fits.sound (calls.trans (callReplace_error no))
    refine ⟨planSource_error no, ?_, fun m held moves => overStart_moving moves, overStart_rest⟩
    rw [refuses]
    rcases planSource_error no with rfl | rfl | rfl <;> rfl

/-- Settles O49. -/
theorem priorityHoldsMove : Obligations.PriorityHoldsMove := by
  unfold Obligations.PriorityHoldsMove
  refine ⟨?_, ?_⟩
  · intro s i x p ready callable still unstopped room fits c ok free d
    have calls : c.callChecked i .priority x = c.callPriority i x :=
      (callChecked_call fun _ => fits.cue rfl).trans (call_callable callable (callBusy_free _ still unstopped))
    have roomy : c.putBackFull i = false := by
      refine Bool.eq_false_iff.2 fun full => ?_
      obtain ⟨⟨w, waits⟩, long⟩ := putBackFull_iff.1 full
      exact absurd (room w waits) (Nat.not_lt.2 long)
    have made := (callPriority_ok roomy ok).trans (if_pos ((obtainable_iff ..).2 free))
    have head := head_startPriority (c := c) (i := i) p.move unstopped
    have taken := startPriority_taken (c := c) (i := i) p.move unstopped
    refine ⟨call_accepts .priority ready fits.sound (calls.trans made), ?_, ?_,
      startPriority_holds unstopped free, ?_⟩
    · rw [show d.head i = _ from head]
      cases (c.head i).activity <;> rfl
    · rw [show d.head i = _ from head]
      cases (c.head i).activity <;> rfl
    · cases act : (c.head i).activity <;> rw [act] at taken <;> exact taken
  · intro s i x ready callable still unstopped fits c refused full plan
    have calls : c.callChecked i .priority x = c.callPriority i x :=
      (callChecked_call fun _ => fits.cue rfl).trans (call_callable callable (callBusy_free _ still unstopped))
    have refuse {why : Reason} (no : c.callPriority i x = .error why) : refused why :=
      call_refuses .priority ready fits.sound (calls.trans no)
    refine ⟨fun full => refuse (callPriority_full (putBackFull_iff.2 full)), fun room => ?_⟩
    have roomy : c.putBackFull i = false := Bool.eq_false_iff.2 fun h => room (putBackFull_iff.1 h)
    refine ⟨fun why no => ⟨planSource_error no, ?_⟩, fun p ok busy => refuse
      ((callPriority_ok roomy ok).trans (if_neg (Bool.eq_false_iff.1 ((obtainable_false_iff ..).2 busy))))⟩
    have refuses := refuse (callPriority_error roomy no)
    rcases planSource_error no with rfl | rfl | rfl <;> exact refuses

end Sys2Proof
end

section
/-! PROOF. Receivers: what a run of characters from a marker on makes, for either format (R144, R176). -/

namespace Sys2Proof

namespace FrameFormat

variable (f : FrameFormat)

/-- The length is the first character that a frame in progress holds. -/
theorem hear_length {len : Byte} (least : f.least ≤ len.toNat) (greatest : len.toNat ≤ f.greatest) :
    f.hear (some []) (some len) = (some [len], .nothing) := by
  simp [hear, extend, Nat.not_lt.2 least, Nat.not_lt.2 greatest]

section
variable {f} {S : Type} {step : S → Option Byte → S} {state : Option (List Byte) → Heard → S}
  (hears : ∀ taken b, step (state taken .nothing) (some b) =
    state (f.hear taken (some b)).1 (f.hear taken (some b)).2)
include hears

theorem foldl_marker : ([f.marker].map some).foldl step (state none .nothing) = state (some []) .nothing :=
  (hears none f.marker).trans (by rw [f.hear_marker])

/-- A length that is not admitted discards the frame as it arrives. -/
theorem foldl_badLength {len : Byte} (bad : len.toNat < f.least ∨ f.greatest < len.toNat) :
    ([f.marker, len].map some).foldl step (state none .nothing) = state none .badLength := by
  have marked := foldl_marker hears
  show step (([f.marker].map some).foldl step (state none .nothing)) (some len) = _
  rw [marked, hears, f.hear_badLength len bad]

variable {len : Byte} (least : f.least ≤ len.toNat) (greatest : len.toNat ≤ f.greatest)
include least greatest

/-- A frame that still lacks characters is in progress. -/
theorem foldl_taken (l : List Byte) (short : l.length < len.toNat + 2) :
    ((f.marker :: len :: l).map some).foldl step (state none .nothing) = state (some (len :: l)) .nothing := by
  induction l using List.reverseRecOn with
  | nil =>
    show step (([f.marker].map some).foldl step (state none .nothing)) (some len) = _
    rw [foldl_marker hears, hears, f.hear_length least greatest]
  | append_singleton l b ih =>
    rw [List.length_append, List.length_singleton] at short
    rw [← List.cons_append, ← List.cons_append, List.map_append, List.foldl_append, ih (by omega)]
    exact (hears _ b).trans (by rw [f.hear_more len b l least greatest short]; rfl)

/-- So is every part of a frame that begins with the marker and lacks the frame's end. -/
theorem foldl_take {n : Nat} (rest : List Byte) (whole : rest.length = len.toNat + 2) (low : 1 ≤ n)
    (high : n < (f.marker :: len :: rest).length) :
    (((f.marker :: len :: rest).take n).map some).foldl step (state none .nothing) =
      state (some (((f.marker :: len :: rest).take n).drop 1)) .nothing := by
  match n, low with
  | 1, _ => exact foldl_marker hears
  | n + 2, _ =>
    have shorter := List.length_take_le n rest
    have size : (f.marker :: len :: rest).length = rest.length + 2 := rfl
    exact foldl_taken hears least greatest (rest.take n) (by omega)

/-- The last character of a frame completes it. -/
theorem foldl_frame (l : List Byte) (whole : l.length = len.toNat + 2) :
    ((f.marker :: len :: l).map some).foldl step (state none .nothing) =
      state none (.frame (f.marker :: len :: l)) := by
  obtain ⟨l, b, rfl⟩ : ∃ l' b, l = l' ++ [b] := by
    rcases List.eq_nil_or_concat l with rfl | ⟨l', b, rfl⟩
    · nomatch whole
    · exact ⟨l', b, List.concat_eq_append⟩
  rw [List.length_append, List.length_singleton] at whole
  rw [← List.cons_append, ← List.cons_append, List.map_append, List.foldl_append,
    foldl_taken hears least greatest l (by omega)]
  exact (hears _ b).trans (by rw [f.hear_last len b l least greatest whole]; rfl)

end

end FrameFormat

/-! ### Frames as they are laid out (R176, R193) -/

theorem take_covered (x y : List Byte) {n : Nat} (size : x.length = n) :
    (x ++ y).take n = x ∧ (x ++ y).drop n = y := by
  subst size
  exact ⟨List.take_left, List.drop_left⟩

theorem toNat_length {n : Nat} (small : n < 256) : (BitVec.ofNat 8 n).toNat = n := by
  rw [BitVec.toNat_ofNat]
  exact Nat.mod_eq_of_lt small

theorem length_encW (w : BitVec 16) : (encW w).length = 2 := rfl

namespace PortFrame

theorem encode_eq (f : PortFrame) : f.encode = 0xC5#8 :: BitVec.ofNat 8 (f.body.length + 3) ::
    ((f.address :: f.kind :: f.tag :: f.body) ++
      encW (crc16 (BitVec.ofNat 8 (f.body.length + 3) :: f.address :: f.kind :: f.tag :: f.body))) := rfl

/-- What the decoder makes of a frame of an admitted length. -/
theorem decode_whole {len : Byte} {rest : List Byte} (least : 3 ≤ len.toNat) (greatest : len.toNat ≤ 250)
    (whole : rest.length = len.toNat + 2) : decode (0xC5#8 :: len :: rest) =
      if rest.drop len.toNat ≠ encW (crc16 (len :: rest.take len.toNat)) then .error .crc
      else
        match rest.take len.toNat with
        | a :: k :: t :: body => if 8 < a.toNat then .error .address else .ok ⟨a, k, t, body⟩
        | _ => .error .length := by
  refine if_neg ?_
  rintro (no | low | high | size)
  · exact no rfl
  · omega
  · omega
  · exact size whole

theorem decode_encode {f : PortFrame} (address : f.address.toNat ≤ 8) (body : f.body.length ≤ 247) :
    decode f.encode = .ok f := by
  have size : (BitVec.ofNat 8 (f.body.length + 3)).toNat = f.body.length + 3 := toNat_length (by omega)
  have parts := take_covered (f.address :: f.kind :: f.tag :: f.body)
    (encW (crc16 (BitVec.ofNat 8 (f.body.length + 3) :: f.address :: f.kind :: f.tag :: f.body)))
    (n := f.body.length + 3) rfl
  rw [encode_eq, decode_whole (by omega) (by omega) (by rw [size, List.length_append, length_encW]; rfl), size,
    parts.1, parts.2, if_neg (not_not.2 rfl)]
  exact if_neg (Nat.not_lt.2 address)

end PortFrame

theorem portArrival_error {instant : Nat} {chars : List Byte} {why : PortFault}
    (bad : PortFrame.decode chars = .error why) : portArrival instant chars = .portBadFrame why := by
  unfold portArrival
  rw [bad]

theorem portArrival_ok {instant : Nat} {chars : List Byte} {f : PortFrame}
    (ok : PortFrame.decode chars = .ok f) : portArrival instant chars =
      if f.address = 0#8 then .commandFrame instant f.kind f.tag f.body
      else .directFrame (Fin.ofNat 8 (f.address.toNat - 1)) f.body := by
  unfold portArrival
  rw [ok]

theorem portArrival_crc {instant : Nat} {len : Byte} {rest : List Byte} (least : 3 ≤ len.toNat)
    (greatest : len.toNat ≤ 250) (whole : rest.length = len.toNat + 2)
    (bad : rest.drop len.toNat ≠ encW (crc16 (len :: rest.take len.toNat))) :
    portArrival instant (0xC5#8 :: len :: rest) = .portBadFrame .crc :=
  portArrival_error ((PortFrame.decode_whole least greatest whole).trans (if_pos bad))

theorem portArrival_address {instant : Nat} {len a : Byte} {more : List Byte} (least : 3 ≤ len.toNat)
    (greatest : len.toNat ≤ 250) (whole : (a :: more).length = len.toNat + 2)
    (good : (a :: more).drop len.toNat = encW (crc16 (len :: (a :: more).take len.toNat))) (high : 8 < a.toNat) :
    portArrival instant (0xC5#8 :: len :: a :: more) = .portBadFrame .address := by
  refine portArrival_error ((PortFrame.decode_whole least greatest whole).trans
    ((if_neg (not_not.2 good)).trans ?_))
  obtain ⟨k, t, body, taken⟩ : ∃ k t body, (a :: more).take len.toNat = a :: k :: t :: body := by
    obtain ⟨n, hn⟩ := Nat.exists_eq_add_of_le' least
    rw [hn, List.length_cons] at whole
    match more, whole with
    | k :: t :: rest, _ => exact ⟨k, t, rest.take n, by rw [hn]; rfl⟩
  rw [taken]
  exact if_pos high

/-! ### Frames of a head line (R144, R193) -/

theorem LineFrame.encode_eq (f : LineFrame) : f.encode = 0xA3#8 :: BitVec.ofNat 8 (f.body.length + 2) ::
    ((f.address :: f.kind.code :: f.body) ++
      encW (crc16 (BitVec.ofNat 8 (f.body.length + 2) :: f.address :: f.kind.code :: f.body))) := rfl

/-- What the receiver of a line makes of a frame of an admitted length. -/
theorem lineArrival_whole (st : StoreId) {len : Byte} {rest : List Byte} (least : 2 ≤ len.toNat)
    (greatest : len.toNat ≤ 60) (whole : rest.length = len.toNat + 2) : lineArrival st (0xA3#8 :: len :: rest) =
      if rest.drop len.toNat ≠ encW (crc16 (len :: rest.take len.toNat)) then .lineBadFrame st .crc
      else
        match rest.take len.toNat with
        | a :: k :: body =>
          if k = LineKind.report.code then .report st a body
          else if k = LineKind.page.code then .page st a body
          else .lineBadFrame st .kind
        | _ => .lineBadFrame st .length := by
  refine if_neg ?_
  rintro (no | low | high | size)
  · exact no rfl
  · omega
  · omega
  · exact size whole

theorem lineArrival_encode (st : StoreId) {f : LineFrame} (body : f.body.length ≤ 58) :
    lineArrival st f.encode = if f.kind.code = LineKind.report.code then .report st f.address f.body
      else if f.kind.code = LineKind.page.code then .page st f.address f.body else .lineBadFrame st .kind := by
  have size : (BitVec.ofNat 8 (f.body.length + 2)).toNat = f.body.length + 2 := toNat_length (by omega)
  have parts := take_covered (f.address :: f.kind.code :: f.body)
    (encW (crc16 (BitVec.ofNat 8 (f.body.length + 2) :: f.address :: f.kind.code :: f.body)))
    (n := f.body.length + 2) rfl
  rw [LineFrame.encode_eq, lineArrival_whole st (by omega) (by omega)
    (by rw [size, List.length_append, length_encW]; rfl), size, parts.1, parts.2, if_neg (not_not.2 rfl)]

theorem lineArrival_kind (st : StoreId) {len a k : Byte} {more : List Byte} (least : 2 ≤ len.toNat)
    (greatest : len.toNat ≤ 60) (whole : (a :: k :: more).length = len.toNat + 2)
    (good : (a :: k :: more).drop len.toNat = encW (crc16 (len :: (a :: k :: more).take len.toNat)))
    (report : k ≠ 0x81#8) (page : k ≠ 0x82#8) :
    lineArrival st (0xA3#8 :: len :: a :: k :: more) = .lineBadFrame st .kind := by
  refine (lineArrival_whole st least greatest whole).trans ((if_neg (not_not.2 good)).trans ?_)
  obtain ⟨n, hn⟩ := Nat.exists_eq_add_of_le' least
  rw [hn]
  exact (if_neg report).trans (if_neg page)

end Sys2Proof
end

section
/-! PROOF. The port frame and its receiver; head line frames and theirs (O8, O9). -/

namespace Sys2Proof.Machine

/-! ### The receiver of the port (R176) -/

/-- The state in which the port has heard something since `s`, with a frame in progress or none. -/
def State.portHears (s : State) (instant : Nat) (taken : Option (List Byte)) (h : Heard) : State :=
  ⟨s.part.hearPort taken, s.pending ++ (portHeard instant h).toList⟩

theorem State.portCharacter_hears (s : State) (instant : Nat) (taken : Option (List Byte)) (char : Option Byte) :
    State.portCharacter instant (s.portHears instant taken .nothing) char =
      s.portHears instant (portFormat.hear taken char).1 (portFormat.hear taken char).2 := by
  show State.mk _ ((s.pending ++ []) ++ _) = State.mk _ _
  rw [List.append_nil]
  rfl

/-- Between frames the port has heard nothing. -/
theorem State.portHears_idle {s : State} (instant : Nat) (idle : s.part.port.incoming = none) :
    s.portHears instant none .nothing = s := by
  show State.mk (s.part.hearPort none) (s.pending ++ []) = s
  rw [← idle, Cm8.hearPort_self, List.append_nil]

theorem State.portHears_told {s : State} (instant : Nat) (idle : s.part.port.incoming = none) (h : Heard) :
    s.portHears instant none h = { s with pending := s.pending ++ (portHeard instant h).toList } := by
  show State.mk (s.part.hearPort none) _ = _
  rw [← idle, Cm8.hearPort_self]

/-- A gap gives up the frame in progress. -/
theorem State.portGap_within (s : State) (instant : Nat) (cs : List Byte) :
    (s.portHears instant (some cs) .nothing).portGap =
      ⟨s.part.hearPort none, s.pending ++ [.portCharacterGapTimeout]⟩ := by
  show State.mk _ ((s.pending ++ []) ++ _) = _
  rw [List.append_nil]
  rfl

/-! ### The receiver of a line (R144) -/

namespace Cm8

variable (c : Cm8) (st : StoreId)

theorem setStore_store : c.setStore st (c.store st) = c := by
  obtain ⟨p, l⟩ := st
  fin_cases p <;> cases l <;> rfl

theorem setStore_setStore (a b : LineStore) : (c.setStore st a).setStore st b = c.setStore st b := by
  obtain ⟨p, l⟩ := st
  fin_cases p <;> cases l <;> rfl

theorem hearLine_eq (taken : Option (List Byte)) :
    c.hearLine st taken = c.setStore st { c.store st with incoming := taken } := rfl

theorem hearLine_idle (idle : (c.store st).incoming = none) : c.hearLine st none = c := by
  rw [hearLine_eq, ← idle]
  exact c.setStore_store st

theorem hearLine_hearLine (a b : Option (List Byte)) : (c.hearLine st a).hearLine st b = c.hearLine st b := by
  rw [hearLine_eq, hearLine_eq, hearLine_eq, store_setStore_self, setStore_setStore]

theorem finish_idle {c : Cm8} (idle : c.work = []) : c.finish = c := by
  unfold finish
  rw [idle]
  rfl

end Cm8

/-- The state in which a line has heard something since `s`, with a frame in progress or none. -/
def State.lineHears (s : State) (st : StoreId) (taken : Option (List Byte)) (h : Heard) : State :=
  ⟨s.part.hearLine st taken, s.pending ++ (lineHeard st h).toList⟩

section
variable {s : State} {st : StoreId} (idle : s.part.work = [])
include idle

theorem State.lineCharacter_deaf (deaf : s.part.receives st = false) (char : Option Byte) :
    s.lineCharacter st char = s := by
  unfold State.lineCharacter
  rw [Cm8.finish_idle idle]
  exact if_neg (Bool.eq_false_iff.1 deaf)

theorem State.lineCharacter_heard (hears : s.part.receives st = true) (char : Option Byte) :
    s.lineCharacter st char = s.lineHears st (lineFormat.hear (s.part.store st).incoming char).1
      (lineFormat.hear (s.part.store st).incoming char).2 := by
  unfold State.lineCharacter
  rw [Cm8.finish_idle idle]
  exact if_pos hears

theorem State.lineCharacter_hears (hears : s.part.receives st = true) (taken : Option (List Byte))
    (char : Option Byte) : State.lineCharacter st (s.lineHears st taken .nothing) char =
      s.lineHears st (lineFormat.hear taken char).1 (lineFormat.hear taken char).2 := by
  have work : (s.lineHears st taken .nothing).part.work = [] := (Cm8.work_hearLine ..).trans idle
  rw [State.lineCharacter_heard work ((Cm8.receives_hearLine ..).trans hears)]
  show State.mk ((s.part.hearLine st taken).hearLine st _) ((s.pending ++ []) ++ _) = _
  rw [Cm8.hearLine_hearLine, List.append_nil,
    show ((s.lineHears st taken .nothing).part.store st).incoming = taken from Cm8.incoming_hearLine ..]
  rfl

theorem State.lineGap_within {cs : List Byte} (within : (s.part.store st).incoming = some cs) :
    s.lineGap st = ⟨s.part.hearLine st none, s.pending ++ [.lineCharacterGapTimeout st]⟩ := by
  unfold State.lineGap
  rw [Cm8.finish_idle idle]
  dsimp only
  rw [within]

theorem State.lineGap_between (between : (s.part.store st).incoming = none) : s.lineGap st = s := by
  unfold State.lineGap
  rw [Cm8.finish_idle idle]
  dsimp only
  rw [between]

end

theorem State.lineHears_told {s : State} {st : StoreId} (between : (s.part.store st).incoming = none) (h : Heard) :
    s.lineHears st none h = { s with pending := s.pending ++ (lineHeard st h).toList } := by
  show State.mk (s.part.hearLine st none) _ = _
  rw [Cm8.hearLine_idle _ _ between]

theorem State.lineHears_idle {s : State} {st : StoreId} (between : (s.part.store st).incoming = none) :
    s.lineHears st none .nothing = s := by
  rw [State.lineHears_told between]
  show State.mk s.part (s.pending ++ []) = s
  rw [List.append_nil]

/-! ### Positions and reports (R188, R193) -/

/-- Three bytes as a number, high byte first. -/
theorem toNat_three (b2 b1 b0 : Byte) : (b2 ++ b1 ++ b0 : BitVec 24).toNat =
    b2.toNat * 65536 + b1.toNat * 256 + b0.toNat := by
  rw [BitVec.toNat_append, BitVec.toNat_append, ← Nat.shiftLeft_add_eq_or_of_lt b0.isLt,
    ← Nat.shiftLeft_add_eq_or_of_lt b1.isLt, Nat.shiftLeft_eq, Nat.shiftLeft_eq]
  omega

/-- Three bytes of two's complement: the number, or the number less 2^24 (R188). -/
theorem toNat_be3 (b2 b1 b0 : Byte) : ((b2.toNat * 65536 + b1.toNat * 256 + b0.toNat : Nat) : Int) =
    if be3 b2 b1 b0 < 0 then be3 b2 b1 b0 + 16777216 else be3 b2 b1 b0 := by
  have h2 := b2.isLt
  have h1 := b1.isLt
  have h0 := b0.isLt
  unfold be3
  rw [BitVec.toInt_eq_toNat_cond, toNat_three]
  split <;> split <;> omega

/-- The two flags of a report's status byte (R193). -/
theorem flagsByte_pair (a b : Bool) : (flagsByte [a, b]).getLsbD 0 = a ∧ (flagsByte [a, b]).getLsbD 1 = b := by
  cases a <;> cases b <;> decide

/-- A report laid out by R193 is read back as it was laid out. -/
theorem readReport_laid {mask : AxisMask} {r : Report}
    (fits : ∀ a, mask.getLsbD a.num = true → fitsPosition (r.measured.get a) = true) :
    ∃ q : Report, readReport mask ([r.echo, flagsByte [r.servoFault, r.localControl]] ++
        mask.axes.flatMap fun a => encPos (r.measured.get a)) = some q ∧
      q.echo = r.echo ∧ q.servoFault = r.servoFault ∧ q.localControl = r.localControl ∧
      ∀ a, mask.getLsbD a.num = true → q.measured.get a = r.measured.get a := by
  obtain ⟨m, read, _, mine⟩ := readPositions_encPos mask.axes (AxisMask.nodup_axes mask)
    (mask.axes.map r.measured.get) (.const 0) (List.length_map _) fun p hp => by
      obtain ⟨a, ha, rfl⟩ := List.mem_map.1 hp
      exact fits a ((AxisMask.mem_axes ..).1 ha)
  rw [List.flatMap_map] at read
  obtain ⟨fault, localControl⟩ := flagsByte_pair r.servoFault r.localControl
  refine ⟨⟨r.echo, _, _, m⟩, (readReport_cons ..).trans (congrArg _ read), rfl, fault, localControl,
    fun a ha => ?_⟩
  obtain ⟨n, hn⟩ := List.mem_iff_getElem?.1 ((AxisMask.mem_axes mask a).2 ha)
  have value := mine n a hn
  rw [List.getElem?_map, hn] at value
  exact (Option.some.inj value).symm

end Sys2Proof.Machine

namespace Sys2Proof

open Sys2Proof.Machine Sys2Proof.Machine.Cm8

/-- Settles O8. -/
theorem portFrameReadsBack : Obligations.PortFrameReadsBack := by
  unfold Obligations.PortFrameReadsBack
  refine ⟨?_, ?_, ?_⟩
  · intro f instant address body
    have decoded := PortFrame.decode_encode address body
    refine ⟨decoded, fun zero => (portArrival_ok decoded).trans (if_pos zero), fun i own => ?_⟩
    have number : f.address.toNat = i.val + 1 := by
      rw [own]
      exact toNat_length (by omega)
    rw [portArrival_ok decoded, if_neg, number]
    · refine congrArg (fun j => Instr.directFrame j f.body) (Fin.ext ?_)
      exact Nat.mod_eq_of_lt i.isLt
    · intro zero
      rw [zero] at number
      exact absurd number (Nat.succ_ne_zero _).symm
  · intro s instant between
    have hears (taken : Option (List Byte)) (b : Byte) := s.portCharacter_hears instant taken (some b)
    have idle := State.portHears_idle instant between
    have first (char : Option Byte) := s.portCharacter_hears instant none char
    rw [idle] at first
    refine ⟨fun b other => ?_, ?_, ?_, fun len rest least greatest whole => ?_, fun len bad => ?_⟩
    · rw [first, portFormat.hear_other b other, idle]
    · rw [first]
      exact idle
    · unfold State.portGap
      rw [between]
    · intro chars
      refine ⟨?_, fun n low high => ?_⟩
      · have framed := FrameFormat.foldl_frame hears least greatest rest whole
        rw [idle, State.portHears_told instant between] at framed
        exact framed
      · have taken := FrameFormat.foldl_take hears least greatest rest whole low high
        rw [idle] at taken
        intro t
        have held : t = s.portHears instant (some ((chars.take n).drop 1)) .nothing := taken
        rw [held]
        refine ⟨List.append_nil _, rfl, ?_, ?_⟩
        · rw [State.portCharacter_hears, portFormat.hear_error_within, State.portHears_told instant between]
          rfl
        · rw [State.portGap_within, ← between, hearPort_self]
    · have discarded := FrameFormat.foldl_badLength hears (len := len) bad
      rw [idle, State.portHears_told instant between] at discarded
      exact discarded
  · intro len rest instant least greatest whole arrival
    refine ⟨portArrival_crc least greatest whole, fun good a more parts high => ?_⟩
    subst parts
    exact portArrival_address least greatest whole good high

/-- Settles O9. -/
theorem headLineFieldsReadBack : Obligations.HeadLineFieldsReadBack := by
  unfold Obligations.HeadLineFieldsReadBack
  refine ⟨fun st address body small => ⟨(lineArrival_encode st small).trans (if_pos rfl),
      (lineArrival_encode st small).trans ((if_neg (show LineKind.page.code ≠ LineKind.report.code by decide)).trans (if_pos rfl))⟩, fun p low high => ?_,
    fun mask r fits => readReport_laid fits, ?_, ?_⟩
  · obtain ⟨b2, b1, b0, bytes, value⟩ := encPos_eq (decide_eq_true ⟨low, high⟩ : fitsPosition p = true)
    exact ⟨b2, b1, b0, bytes, value, by rw [toNat_be3, value]⟩
  · intro s st idle
    refine ⟨fun hears between => ?_, fun cs hears within => ?_, fun char deaf => State.lineCharacter_deaf idle deaf char,
      fun between => ⟨State.lineGap_between idle between, ?_, fun b other => ?_⟩,
      fun cs within => State.lineGap_within idle within⟩
    · have heard (taken : Option (List Byte)) (b : Byte) := State.lineCharacter_hears idle hears taken (some b)
      have rest := State.lineHears_idle between
      refine ⟨fun f small => ?_, fun len bad => ?_⟩
      · have size : (BitVec.ofNat 8 (f.body.length + 2)).toNat = f.body.length + 2 := toNat_length (by omega)
        have framed := FrameFormat.foldl_frame heard (len := BitVec.ofNat 8 (f.body.length + 2))
          (by rw [size]; exact Nat.le_add_left ..) (by rw [size]; show _ ≤ 60; omega)
          ((f.address :: f.kind.code :: f.body) ++
            encW (crc16 (BitVec.ofNat 8 (f.body.length + 2) :: f.address :: f.kind.code :: f.body)))
          (by rw [size, List.length_append, length_encW]; rfl)
        rw [rest, State.lineHears_told between] at framed
        exact framed
      · have discarded := FrameFormat.foldl_badLength heard (len := len) bad
        rw [rest, State.lineHears_told between] at discarded
        exact discarded
    · rw [State.lineCharacter_heard idle hears, within]
      rfl
    · cases hears : s.part.receives st with
      | false => exact State.lineCharacter_deaf idle hears none
      | true =>
        rw [State.lineCharacter_heard idle hears, between]
        exact State.lineHears_idle between
    · cases hears : s.part.receives st with
      | false => exact State.lineCharacter_deaf idle hears (some b)
      | true =>
        rw [State.lineCharacter_heard idle hears, between, lineFormat.hear_other b other]
        exact State.lineHears_idle between
  · intro st len rest least greatest whole arrival
    refine ⟨fun bad => (lineArrival_whole st least greatest whole).trans (if_pos bad),
      fun good a k more parts report page => ?_⟩
    subst parts
    exact lineArrival_kind st least greatest whole good report page

end Sys2Proof
end
